-- ==== Sys2Proof/Syntax.lean ====
section
/-! DEFINITION. The commands of the block, one constructor per row of the opcode table, with their operands. The rows of
the core's slots carry the slot's fields (11_cumal_instructions); the rows of events carry what the event names. -/

namespace Sys2Proof

/-- A physical core: its partition and its index there (R4, R5). -/
structure CoreId where
  part : Fin 4
  phys : Fin 100
  deriving DecidableEq, Repr

/-- A layer run: LAYER_ID and micro-batch index (R144, R254). -/
structure Run where
  layer : BitVec 16
  mb : BitVec 8
  deriving DecidableEq, Repr

/-- What every slot carries: the core that issues it, whether further slots of the same wide instruction follow, the
header fields of R274, and whether a reserved bit of the slot is set (R275). -/
structure Issue where
  k : CoreId
  more : Bool := false
  pred : Fin 16 := 0
  pneg : Bool := false
  rnd : Fin 8 := 0
  sat : Bool := false
  fz : Bool := false
  cr : Bool := false
  fl : Bool := false
  rsv : Bool := false
  deriving DecidableEq, Repr

/-- C-slot fields (R279). -/
structure CSlot where
  i : Issue
  rd : Fin 64 := 0
  ra : Fin 64 := 0
  rb : Fin 64 := 0
  pd : Fin 16 := 0
  pa : Fin 16 := 0
  pb : Fin 16 := 0
  tgt : BitVec 12 := 0
  imm : W64 := 0
  deriving DecidableEq, Repr

/-- V-slot fields (R282). -/
structure VSlot where
  i : Issue
  vd : Fin 64 := 0
  va : Fin 64 := 0
  vb : Fin 64 := 0
  vc : Fin 64 := 0
  sa : Fin 64 := 0
  sb : Fin 64 := 0
  pd : Fin 16 := 0
  fmt : Fin 16 := 0
  fn : Byte := 0
  mode : Fin 4 := 0
  lane : Fin 64 := 0
  imm16 : BitVec 16 := 0
  imm16b : BitVec 16 := 0
  sc : Fin 64 := 0
  sd : Fin 64 := 0
  d2 : Bool := false
  deriving DecidableEq, Repr

/-- W-slot fields (R288). -/
structure WSlot where
  i : Issue
  arr : Fin 2 := 0
  bind : Bool := false
  td : Fin 32 := 0
  start : Bool := false
  shape : Fin 4 := 0
  afmt : Bool := false
  bank : Fin 16 := 0
  g : Fin 4 := 0
  sample : Bool := false
  pd : Fin 16 := 0
  ofmt : Fin 4 := 0
  sk0 : Fin 64 := 0
  sklen : Fin 64 := 0
  deriving DecidableEq, Repr

/-- M-slot fields (R290). -/
structure MSlot where
  i : Issue
  arr : Fin 4 := 0
  ta : Fin 32 := 0
  tb : Fin 32 := 0
  tc : Fin 32 := 0
  start : Bool := false
  sr : Bool := false
  conv : Bool := false
  shape : Fin 4 := 0
  afmt : Bool := false
  bank : Fin 8 := 0
  rs : Bool := false
  vt : Bool := false
  pa : Bool := false
  sk0 : Fin 64 := 0
  sklen : Fin 64 := 0
  sx : Fin 64 := 0
  ofmt : Fin 4 := 0
  deriving DecidableEq, Repr

/-- T-slot fields (R292); FN of a TSTAT is fixed by its row. -/
structure TSlot where
  i : Issue
  ts : Fin 32 := 0
  td : Fin 32 := 0
  inv : Bool := false
  gran : Fin 8 := 0
  lrec : BitVec 16 := 0
  sa : Fin 64 := 0
  trn : Bool := false
  deriving DecidableEq, Repr

/-- D-slot fields (R294); KIND of a DST is fixed by its row. -/
structure DSlot where
  i : Issue
  ts : Fin 32 := 0
  td : Fin 32 := 0
  sa : Fin 64 := 0
  sb : Fin 64 := 0
  tok : Fin 16 := 0
  slot : Fin 8 := 0
  wtag : Byte := 0
  wmode : Bool := false
  rd : Fin 64 := 0
  deriving DecidableEq, Repr

/-- L-slot fields (R297). -/
structure LSlot where
  i : Issue
  sa : Fin 64 := 0
  sb : Fin 64 := 0
  ch : Fin 16 := 0
  ev : Fin 8 := 0
  ts : Fin 32 := 0
  imm16 : BitVec 16 := 0
  deriving DecidableEq, Repr

/-- The places of Weld sequencers (R266). -/
inductive WeldId where
  | mordant (k : CoreId)
  | link (n : Fin 48)
  | indigo (e : Fin 48)
  | sepia (p : Fin 4)
  | ochre (p : Fin 4)
  deriving DecidableEq, Repr

/-- A Weld instruction of format A (R268). -/
structure WeldA where
  w : WeldId
  rd : Fin 16 := 0
  ra : Fin 16 := 0
  rb : Fin 16 := 0
  deriving DecidableEq, Repr

/-- A Weld instruction of format I. -/
structure WeldI where
  w : WeldId
  rd : Fin 16 := 0
  ra : Fin 16 := 0
  imm : BitVec 14 := 0
  deriving DecidableEq, Repr

/-- A Weld instruction of format B. -/
structure WeldB where
  w : WeldId
  ra : Fin 16 := 0
  rb : Fin 16 := 0
  off : BitVec 14 := 0
  deriving DecidableEq, Repr

/-- A Weld instruction of format U. -/
structure WeldU where
  w : WeldId
  rd : Fin 16 := 0
  imm : BitVec 22 := 0
  deriving DecidableEq, Repr

/-- The 32-bit header of an arriving flit; of a message that arrives, the header of its HEAD (R355). -/
structure FlitHead where
  bits : BitVec 32
  deriving DecidableEq, Repr

/-- A peer-copy message (R357, R369). -/
structure PutMsg where
  src : BitVec 12
  slot : Fin 4
  ch : Fin 16
  mseq : W32 := 0
  /-- PUT_REQ: byte length of the tile; PUT_DATA: byte offset; PUT_GO: the length accepted. -/
  offset : Nat := 0
  data : List Byte := []
  /-- one bit per 64-byte flit: the flit is poisoned -/
  poison : List Bool := []
  deriving DecidableEq, Repr

/-- A collective chunk message (R357, R372). -/
structure CollMsg where
  src : BitVec 12
  slot : Fin 4
  ch : Fin 16
  tag : BitVec 16 := 0
  stage : BitVec 16 := 0
  /-- index of the first element -/
  first : Nat := 0
  /-- BF16 elements -/
  elems : List (BitVec 16) := []
  /-- one bit per flit of 32 elements -/
  poison : List Bool := []
  deriving DecidableEq, Repr

/-- A message whose HEAD is taken field by field (R357). -/
structure RawMsg where
  dst : BitVec 12
  src : BitVec 12
  hops : Nat
  hptr : Nat
  /-- ROUTE entries, index 0 first -/
  route : List (Fin 64)
  tc : Fin 4
  /-- the other fields of the HEAD -/
  msg : Byte := 0
  ctx : Byte := 0
  ch : Byte := 0
  tag : BitVec 16 := 0
  stage : BitVec 16 := 0
  offset : W64 := 0
  mseq : W32 := 0
  /-- the payloads of its DATA flits, and which of them are poisoned -/
  data : List Byte := []
  poison : List Bool := []
  deriving DecidableEq, Repr

/-- A SYNC flit as it arrives (R306, R358): T_TX and the arrival time T_rx in units of 1/256 ns. -/
structure SyncFlit where
  tTx : Nat
  tRx : Nat
  seq : BitVec 16
  master : BitVec 12
  hops : Byte
  head : FlitHead := { bits := 5 }
  crcOk : Bool := true
  deriving DecidableEq, Repr

/-- A DELAY_RESP as it arrives (R306, R358), times in units of 1/256 ns. -/
structure DelayResp where
  t1 : Nat
  t2 : Nat
  t3 : Nat
  t4 : Nat
  head : FlitHead := { bits := 7 }
  crcOk : Bool := true
  deriving DecidableEq, Repr

/-- Why a flit failed (R354, R356, R359). -/
inductive FlitCause where
  | crc
  /-- it overlaps a codeword that the FEC cannot correct: the first such flit of that codeword, or a later one -/
  | fec (first : Bool)
  | reservedType | outOfSequence
  deriving DecidableEq, Repr

/-- Why a link retrains (R366). -/
inductive RetrainCause where
  | software | retryMax | fecAlignment | codewords
  deriving DecidableEq, Repr

/-- How training of a link ends (R365 to R367). -/
structure TrainResult where
  /-- bit l: lane l trained -/
  lanes : BitVec 4
  precode : Bool := false
  peerDev : BitVec 12 := 0
  peerLink : BitVec 6 := 0
  asym : W32 := 0
  /-- eye margin, % of its time-zero value (R421) -/
  margin : Nat := 100
  deriving DecidableEq, Repr

/-- A DELAY_REQ flit as it arrives: its header and its time, in units of 1/256 ns (R358). -/
structure DelayReq where
  head : FlitHead
  t1 : Nat
  deriving DecidableEq, Repr

/-- The bytes that a write of BAR0 carries: how many, and their value (R484). -/
structure RegData where
  size : Nat
  v : W64
  deriving DecidableEq, Repr

/-- The registers read as a latched pair (R304, R493). -/
inductive LatchPair where
  | timNow | timPpsCap | timPromise (slot : Fin 4) | timLaunch (slot : Fin 4) | memUeAddr (stack : Fin 20) | sepCkDigest (slot : Fin 4)
  | gctCtxTime (slot : Fin 4)
  deriving DecidableEq, Repr

/-- A read of a latched pair: of its LO register, or of 8 bytes (R304, R484). -/
structure PairRead where
  pair : LatchPair
  wide : Bool := false
  deriving DecidableEq, Repr

/-- What patrol scrub or an access finds in a unit (R335, R336, R338). -/
inductive ScrubFinding where
  | clean | corrected | uncorrectable
  deriving DecidableEq, Repr

/-- The windows of host accesses (R431). -/
inductive HostWindow where
  | bar2 | hdm
  deriving DecidableEq, Repr

/-- How a tier-3 request completes (R429). -/
inductive T3Reply where
  | data (bytes : List Byte) (poisoned : Bool)
  | written
  | error
  deriving DecidableEq, Repr

/-- A host command as taken from submission queue `q` (R434). -/
structure HostCmd where
  q : Fin 16
  slot : Fin 4
  cid : BitVec 16 := 0
  addr : W64 := 0
  arg0 : W64 := 0
  arg1 : W64 := 0
  /-- a reserved bit of the entry is set -/
  rsv : Bool := false
  deriving DecidableEq, Repr

/-- Units with a fast clock of their own (R319, R454). -/
inductive UnitId where
  | core (k : CoreId)
  | woad (k : CoreId) (a : Fin 2)
  | madder (k : CoreId) (a : Fin 4)
  | mordant (k : CoreId)
  | indigo (e : Fin 48)
  | link (n : Fin 48)
  deriving DecidableEq, Repr

/-- Why a core test is requested (R389, R392). -/
inductive TestCause where
  | periodic | suspect | disagreement
  deriving DecidableEq, Repr

/-- A calibration that runs (R340): of a link, or of a stack with the lanes it repairs and the pseudo-channels that it
must retire. -/
inductive Calibration where
  | link (n : Fin 48)
  | stack (s : Fin 20) (badLanes : List Nat) (retire : List Nat)
  deriving DecidableEq, Repr

/-- A core's Ochre test pass that ends (R389): its pass number, and what a defect of the core changes in its digest, 0 for a core with none. -/
structure TestResult where
  pass : W32
  flaw : W64
  deriving DecidableEq, Repr

/-- A cause of partition or device scope, as an ERR record names it (R406). -/
structure ErrCause where
  source : Byte
  inst : BitVec 16 := 0
  detail : W32 := 0
  deriving DecidableEq, Repr

/-- One sensor reading (R421): class, partition, instance, raw value. -/
structure SensorReading where
  cls : Nat
  part : Fin 4
  inst : Nat
  raw : Nat
  deriving DecidableEq, Repr

/-- The commands of the block: one constructor per row of the opcode table, with the row's rule. -/
inductive Instr where
  /-- ADD (R280). -/
  | add (c : CSlot)
  /-- SUB (R280). -/
  | sub (c : CSlot)
  /-- AND (R280). -/
  | and (c : CSlot)
  /-- OR (R280). -/
  | or (c : CSlot)
  /-- XOR (R280). -/
  | xor (c : CSlot)
  /-- SHL (R280). -/
  | shl (c : CSlot)
  /-- SHR (R280). -/
  | shr (c : CSlot)
  /-- SAR (R280). -/
  | sar (c : CSlot)
  /-- MUL (R280). -/
  | mul (c : CSlot)
  /-- MULHU (R280). -/
  | mulhu (c : CSlot)
  /-- MIN (R280). -/
  | min (c : CSlot)
  /-- MAX (R280). -/
  | max (c : CSlot)
  /-- ADDI (R280). -/
  | addi (c : CSlot)
  /-- ANDI (R280). -/
  | andi (c : CSlot)
  /-- ORI (R280). -/
  | ori (c : CSlot)
  /-- XORI (R280). -/
  | xori (c : CSlot)
  /-- SHLI (R280). -/
  | shli (c : CSlot)
  /-- SHRI (R280). -/
  | shri (c : CSlot)
  /-- MOVI (R280). -/
  | movi (c : CSlot)
  /-- CMP_EQ (R280). -/
  | cmpEq (c : CSlot)
  /-- CMP_NE (R280). -/
  | cmpNe (c : CSlot)
  /-- CMP_LT (R280). -/
  | cmpLt (c : CSlot)
  /-- CMP_LTU (R280). -/
  | cmpLtu (c : CSlot)
  /-- CMPI_EQ (R280). -/
  | cmpiEq (c : CSlot)
  /-- CMPI_LT (R280). -/
  | cmpiLt (c : CSlot)
  /-- PAND (R280). -/
  | pand (c : CSlot)
  /-- POR (R280). -/
  | por (c : CSlot)
  /-- PXOR (R280). -/
  | pxor (c : CSlot)
  /-- PNOT (R280). -/
  | pnot (c : CSlot)
  /-- PSET (R280). -/
  | pset (c : CSlot)
  /-- JMP (R281). -/
  | jmp (c : CSlot)
  /-- JR (R281). -/
  | jr (c : CSlot)
  /-- CALL (R280). -/
  | call (c : CSlot)
  /-- LOOP (R280). -/
  | loop (c : CSlot)
  /-- CRD (R280). -/
  | crd (c : CSlot)
  /-- CWR (R280). -/
  | cwr (c : CSlot)
  /-- CLVL (R280). -/
  | clvl (c : CSlot)
  /-- TLD (R280). -/
  | tld (c : CSlot)
  /-- TST (R280). -/
  | tst (c : CSlot)
  /-- TADDR (R280). -/
  | taddr (c : CSlot)
  /-- TORG (R280). -/
  | torg (c : CSlot)
  /-- LDS (R280). -/
  | lds (c : CSlot)
  /-- STS (R280). -/
  | sts (c : CSlot)
  /-- CSPEC (R254). -/
  | cspec (c : CSlot)
  /-- CCOMMIT (R254). -/
  | ccommit (c : CSlot)
  /-- CCOMMIT_STEP (R260). -/
  | ccommitStep (c : CSlot)
  /-- HALT (R251). -/
  | halt (c : CSlot)
  /-- VADD (R283). -/
  | vadd (v : VSlot)
  /-- VSUB (R283). -/
  | vsub (v : VSlot)
  /-- VMUL (R283). -/
  | vmul (v : VSlot)
  /-- VFMA (R283). -/
  | vfma (v : VSlot)
  /-- VMAX (R283). -/
  | vmax (v : VSlot)
  /-- VMIN (R283). -/
  | vmin (v : VSlot)
  /-- VCMP (R283). -/
  | vcmp (v : VSlot)
  /-- VSEL (R283). -/
  | vsel (v : VSlot)
  /-- VIADD (R283). -/
  | viadd (v : VSlot)
  /-- VISUB (R283). -/
  | visub (v : VSlot)
  /-- VIMUL (R283). -/
  | vimul (v : VSlot)
  /-- VAND (R283). -/
  | vand (v : VSlot)
  /-- VOR (R283). -/
  | vor (v : VSlot)
  /-- VXOR (R283). -/
  | vxor (v : VSlot)
  /-- VSHL (R283). -/
  | vshl (v : VSlot)
  /-- VSHR (R283). -/
  | vshr (v : VSlot)
  /-- VSAR (R283). -/
  | vsar (v : VSlot)
  /-- VICMP (R283). -/
  | vicmp (v : VSlot)
  /-- VIOTA (R283). -/
  | viota (v : VSlot)
  /-- VBCAST (R283). -/
  | vbcast (v : VSlot)
  /-- VCVT (R283). -/
  | vcvt (v : VSlot)
  /-- VLD (R287). -/
  | vld (v : VSlot)
  /-- VST (R287). -/
  | vst (v : VSlot)
  /-- VEXT (R283). -/
  | vext (v : VSlot)
  /-- VINS (R283). -/
  | vins (v : VSlot)
  /-- VEXP (R175). -/
  | vexp (v : VSlot)
  /-- VEXP2 (R175). -/
  | vexp2 (v : VSlot)
  /-- VLOG (R175). -/
  | vlog (v : VSlot)
  /-- VLOG2 (R175). -/
  | vlog2 (v : VSlot)
  /-- VRCP (R175). -/
  | vrcp (v : VSlot)
  /-- VRSQ (R175). -/
  | vrsq (v : VSlot)
  /-- VSQRT (R175). -/
  | vsqrt (v : VSlot)
  /-- VDIV (R175). -/
  | vdiv (v : VSlot)
  /-- VCOS (R175). -/
  | vcos (v : VSlot)
  /-- VSIN (R175). -/
  | vsin (v : VSlot)
  /-- VACT (R183). -/
  | vact (v : VSlot)
  /-- VACT_D (R184). -/
  | vactD (v : VSlot)
  /-- VACT_DI (R183). -/
  | vactDi (v : VSlot)
  /-- VRED (R174). -/
  | vred (v : VSlot)
  /-- VRNG (R167). -/
  | vrng (v : VSlot)
  /-- VOSM_I (R233). -/
  | vosmI (v : VSlot)
  /-- VOSM_M (R234). -/
  | vosmM (v : VSlot)
  /-- VOSM_L (R233). -/
  | vosmL (v : VSlot)
  /-- VOSM_F (R233). -/
  | vosmF (v : VSlot)
  /-- VOSM_S (R233). -/
  | vosmS (v : VSlot)
  /-- WLD (R76). -/
  | wld (w : WSlot)
  /-- WMM (R66). -/
  | wmm (w : WSlot)
  /-- WCK (R77). -/
  | wck (w : WSlot)
  /-- WFL (R77). -/
  | wfl (w : WSlot)
  /-- MMM (R90). -/
  | mmm (m : MSlot)
  /-- MDX (R91). -/
  | mdx (m : MSlot)
  /-- MDW (R98). -/
  | mdw (m : MSlot)
  /-- MFL (R96). -/
  | mfl (m : MSlot)
  /-- MVW (R100). -/
  | mvw (m : MSlot)
  /-- TQZ (R123). -/
  | tqz (t : TSlot)
  /-- TDQ (R193). -/
  | tdq (t : TSlot)
  /-- TROT (R127). -/
  | trot (t : TSlot)
  /-- TCV (R132). -/
  | tcv (t : TSlot)
  /-- TSTAT_AMAX (R135). -/
  | tstatAmax (t : TSlot)
  /-- TSTAT_CHK (R143). -/
  | tstatChk (t : TSlot)
  /-- TSTAT_FIN (R146). -/
  | tstatFin (t : TSlot)
  /-- DLD (R296). -/
  | dld (d : DSlot)
  /-- DST (R295). -/
  | dst (d : DSlot)
  /-- DST_COLLECTOR (R117). -/
  | dstCollector (d : DSlot)
  /-- DST_WALK_REQUEST (R215). -/
  | dstWalkRequest (d : DSlot)
  /-- DST_RELEASE (R218). -/
  | dstRelease (d : DSlot)
  /-- DST_EDIT (R221). -/
  | dstEdit (d : DSlot)
  /-- DCP (R295). -/
  | dcp (d : DSlot)
  /-- DPF (R296). -/
  | dpf (d : DSlot)
  /-- DLD_WAIT (R295). -/
  | dldWait (d : DSlot)
  /-- LAT (R312). -/
  | lat (l : LSlot)
  /-- LAT_TIME_REACHED (R312). -/
  | latTimeReached (k : CoreId)
  /-- LWAIT (R298). -/
  | lwait (l : LSlot)
  /-- LWAIT_TIMEOUT (R298). -/
  | lwaitTimeout (k : CoreId)
  /-- LSEND (R369). -/
  | lsend (l : LSlot)
  /-- LRECV (R370). -/
  | lrecv (l : LSlot)
  /-- LCOLL (R372). -/
  | lcoll (l : LSlot)
  /-- LFENCE (R298). -/
  | lfence (l : LSlot)
  /-- LFENCE_TIMEOUT (R298). -/
  | lfenceTimeout (k : CoreId)
  /-- EPOCH_ISSUE_LIMIT (R255). -/
  | epochIssueLimit (k : CoreId)
  /-- VAT_WRITE (R105). -/
  | vatWrite (k : CoreId) (i : Nat)
  /-- VAT_WRITE_ACK (R109). -/
  | vatWriteAck (k : CoreId)
  /-- COLLECTOR_PARTIAL (R118). -/
  | collectorPartial (k : CoreId) (i : Nat)
  /-- FIN_DELTAS_RECEIVE (R146). -/
  | finDeltasReceive (k : CoreId)
  /-- SHADOW_DIGEST_RECEIVE (R395). -/
  | shadowDigestReceive (k : CoreId)
  /-- VERDICT (R148). -/
  | verdict (slot : Fin 4) (run : Run)
  /-- REDYE_VERDICT (R150). -/
  | redyeVerdict (slot : Fin 4) (lrec : BitVec 16)
  /-- WELD_BUDGET_TRAP (R271). -/
  | weldBudgetTrap (w : WeldId)
  /-- EPOCH_COMMIT (R256). -/
  | epochCommit (k : CoreId)
  /-- EPOCH_ABORT (R258). -/
  | epochAbort (slot : Fin 4) (run : Run)
  /-- STEP_COMMIT (R260). -/
  | stepCommit (slot : Fin 4)
  /-- DRAIN_COMPLETE (R252). -/
  | drainComplete (slot : Fin 4)
  /-- SAVE_BOUNDARY_REACHED (R263). -/
  | saveBoundaryReached (slot : Fin 4)
  /-- WELD_ADD (R269). -/
  | weldAdd (a : WeldA)
  /-- WELD_SUB (R269). -/
  | weldSub (a : WeldA)
  /-- WELD_AND (R269). -/
  | weldAnd (a : WeldA)
  /-- WELD_OR (R269). -/
  | weldOr (a : WeldA)
  /-- WELD_XOR (R269). -/
  | weldXor (a : WeldA)
  /-- WELD_SHL (R269). -/
  | weldShl (a : WeldA)
  /-- WELD_SHR (R269). -/
  | weldShr (a : WeldA)
  /-- WELD_SAR (R269). -/
  | weldSar (a : WeldA)
  /-- WELD_MUL (R269). -/
  | weldMul (a : WeldA)
  /-- WELD_MULHU (R269). -/
  | weldMulhu (a : WeldA)
  /-- WELD_SLT (R269). -/
  | weldSlt (a : WeldA)
  /-- WELD_SLTU (R269). -/
  | weldSltu (a : WeldA)
  /-- WELD_MIN (R269). -/
  | weldMin (a : WeldA)
  /-- WELD_MAX (R269). -/
  | weldMax (a : WeldA)
  /-- WELD_ADDI (R269). -/
  | weldAddi (a : WeldI)
  /-- WELD_ANDI (R269). -/
  | weldAndi (a : WeldI)
  /-- WELD_ORI (R269). -/
  | weldOri (a : WeldI)
  /-- WELD_XORI (R269). -/
  | weldXori (a : WeldI)
  /-- WELD_SHLI (R269). -/
  | weldShli (a : WeldI)
  /-- WELD_SHRI (R269). -/
  | weldShri (a : WeldI)
  /-- WELD_LUI (R269). -/
  | weldLui (a : WeldU)
  /-- WELD_LD (R269). -/
  | weldLd (a : WeldI)
  /-- WELD_ST (R269). -/
  | weldSt (a : WeldI)
  /-- WELD_LDX (R269). -/
  | weldLdx (a : WeldI)
  /-- WELD_STX (R269). -/
  | weldStx (a : WeldI)
  /-- WELD_BEQ (R269). -/
  | weldBeq (a : WeldB)
  /-- WELD_BNE (R269). -/
  | weldBne (a : WeldB)
  /-- WELD_BLT (R269). -/
  | weldBlt (a : WeldB)
  /-- WELD_BGE (R269). -/
  | weldBge (a : WeldB)
  /-- WELD_BLTU (R269). -/
  | weldBltu (a : WeldB)
  /-- WELD_JAL (R269). -/
  | weldJal (a : WeldU)
  /-- WELD_JR (R269). -/
  | weldJr (a : WeldI)
  /-- WELD_RET (R267). -/
  | weldRet (a : WeldA)
  /-- WELD_TRAP (R270). -/
  | weldTrap (a : WeldA)
  /-- STAGE_SEND (R372). -/
  | stageSend (link : Fin 48)
  /-- STAGE_ADD_SEND (R374). -/
  | stageAddSend (link : Fin 48)
  /-- STAGE_ADD_WRITE (R374). -/
  | stageAddWrite (link : Fin 48)
  /-- STAGE_COPY_SEND (R372). -/
  | stageCopySend (link : Fin 48)
  /-- STAGE_COPY (R372). -/
  | stageCopy (link : Fin 48)
  /-- STAGE_WAIT (R372). -/
  | stageWait (link : Fin 48)
  /-- COLL_CHUNK_RECEIVE (R374). -/
  | collChunkReceive (link : Fin 48) (h : FlitHead) (g : CollMsg)
  /-- WALK_REQUEST (R215). -/
  | walkRequest (e : Fin 48)
  /-- PIN_PHASE (R216). -/
  | pinPhase (e : Fin 48) (i : Nat)
  /-- PAGE_DELIVERED (R217). -/
  | pageDelivered (e : Fin 48) (i : Nat)
  /-- SLOT_RELEASE (R218). -/
  | slotRelease (e : Fin 48) (i : Nat)
  /-- STAGE_COPY_DONE (R229). -/
  | stageCopyDone (e : Fin 48) (i : Nat)
  /-- EDIT_BATCH (R223). -/
  | editBatch (e : Fin 48)
  /-- SPILL_PAGE (R226). -/
  | spillPage (e : Fin 48)
  /-- SPILL_COPY_DONE (R226). -/
  | spillCopyDone (e : Fin 48)
  /-- AGEING_SWEEP (R227). -/
  | ageingSweep (e : Fin 48)
  /-- IND_ENABLE (R225). -/
  | indEnable (e : Fin 48)
  /-- IND_EDIT_SUBMIT (R221). -/
  | indEditSubmit (e : Fin 48) (v : W32)
  /-- BIND (R249). -/
  | bind (c : HostCmd)
  /-- UNBIND (R251). -/
  | unbind (c : HostCmd)
  /-- LOAD (R435). -/
  | load (c : HostCmd)
  /-- SUBMIT (R320). -/
  | submit (c : HostCmd)
  /-- ADMISSION_DECISION (R321). -/
  | admissionDecision (slot : Fin 4)
  /-- CANCEL (R324). -/
  | cancel (c : HostCmd)
  /-- SAVE (R263). -/
  | save (c : HostCmd)
  /-- RESTORE (R265). -/
  | restore (c : HostCmd)
  /-- CLEAR (R251). -/
  | clear (c : HostCmd)
  /-- RESTORE_CKPT (R419). -/
  | restoreCkpt (c : HostCmd)
  /-- RESTORE_PEER (R420). -/
  | restorePeer (c : HostCmd)
  /-- PREWAKE (R315). -/
  | prewake (slot : Fin 4)
  /-- PROGRAM_LAUNCH (R314). -/
  | programLaunch (slot : Fin 4)
  /-- PROMISE_OVERRUN (R328). -/
  | promiseOverrun (slot : Fin 4)
  /-- UNIT_WAKE (R454). -/
  | unitWake (u : UnitId)
  /-- UNIT_SLEEP (R454). -/
  | unitSleep (u : UnitId)
  /-- TEST_REQUEST (R329). -/
  | testRequest (k : CoreId) (cause : TestCause)
  /-- CALIBRATION (R340). -/
  | calibration (c : Calibration)
  /-- SYNC_SEND (R306). -/
  | syncSend
  /-- SYNC (R307). -/
  | sync (link : Fin 48) (f : SyncFlit)
  /-- DELAY_MEASURE (R306). -/
  | delayMeasure
  /-- DELAY_REQ (R358). -/
  | delayReq (link : Fin 48) (f : DelayReq) (crcOk : Bool)
  /-- DELAY_RESP (R306). -/
  | delayResp (link : Fin 48) (f : DelayResp)
  /-- SYNC_TIMEOUT (R308). -/
  | syncTimeout
  /-- HOLDOVER_TIMEOUT (R308). -/
  | holdoverTimeout
  /-- PPS_EDGE (R311). -/
  | ppsEdge
  /-- PPS_LOST (R311). -/
  | ppsLost
  /-- TIM_SET_WRITE (R305). -/
  | timSetWrite (v : W32)
  /-- LATCHED_PAIR_READ (R304). -/
  | latchedPairRead (r : PairRead)
  /-- SCRUB (R338). -/
  | scrub (stack : Fin 20) (unit : Nat) (f : ScrubFinding)
  /-- ROW_REPAIR_DONE (R339). -/
  | rowRepairDone (stack : Fin 20) (row : Nat)
  /-- STACK_FRAME (R346). -/
  | stackFrame (stack : Fin 20)
  /-- VWR_ARM (R341). -/
  | vwrArm (part : Fin 4) (i : Fin 16) (v : W32)
  /-- VWR_DISARM (R343). -/
  | vwrDisarm (part : Fin 4) (i : Fin 16) (v : W32)
  /-- VWR_DRAIN_COMPLETE (R343). -/
  | vwrDrainComplete (part : Fin 4) (i : Fin 16)
  /-- HOST_READ (R429). -/
  | hostRead (w : HostWindow) (addr : Nat) (n : Nat)
  /-- HOST_WRITE (R429). -/
  | hostWrite (w : HostWindow) (addr : Nat) (bytes : List Byte) (poisoned : Bool)
  /-- STACK_IDLE_REFRESH (R457). -/
  | stackIdleRefresh (stack : Fin 20)
  /-- T3_COMPLETION (R429). -/
  | t3Completion (tag : Nat) (c : T3Reply)
  /-- T3_COMPLETION_TIMEOUT (R429). -/
  | t3CompletionTimeout (tag : Nat)
  /-- PUT_REQ (R369). -/
  | putReq (link : Fin 48) (h : FlitHead) (g : PutMsg)
  /-- PUT_GO (R369). -/
  | putGo (link : Fin 48) (h : FlitHead) (g : PutMsg)
  /-- PUT_DATA (R370). -/
  | putData (link : Fin 48) (h : FlitHead) (g : PutMsg)
  /-- PUT_DONE (R369). -/
  | putDone (link : Fin 48) (h : FlitHead) (g : PutMsg)
  /-- MESSAGE_FORWARD (R362). -/
  | messageForward (link : Fin 48) (h : FlitHead) (g : RawMsg)
  /-- FORWARD_STALL_TIMEOUT (R364). -/
  | forwardStallTimeout (link : Fin 48) (tc : Fin 4)
  /-- NAK (R359). -/
  | nak (link : Fin 48) (h : FlitHead)
  /-- IDLE (R356). -/
  | idle (link : Fin 48) (h : FlitHead)
  /-- REPLAY_TIMEOUT (R359). -/
  | replayTimeout (link : Fin 48)
  /-- LINK_ENABLE (R365). -/
  | linkEnable (link : Fin 48)
  /-- LINK_RETRAIN (R366). -/
  | linkRetrain (link : Fin 48) (cause : RetrainCause)
  /-- TRAINING_COMPLETE (R365). -/
  | trainingComplete (link : Fin 48) (r : TrainResult)
  /-- LNK_CRD_ALLOC_WRITE (R360). -/
  | lnkCrdAllocWrite (link : Fin 48) (v : W32)
  /-- TEST_PASS_COMPLETE (R389). -/
  | testPassComplete (k : CoreId) (r : TestResult)
  /-- STEP_REPLAY (R405). -/
  | stepReplay (slot : Fin 4)
  /-- REFEREE_COMPARE (R399). -/
  | refereeCompare (slot : Fin 4)
  /-- PARTITION_RESET (R385). -/
  | partitionReset (part : Fin 4) (cause : ErrCause)
  /-- PARTITION_RESET_DONE (R385). -/
  | partitionResetDone (part : Fin 4)
  /-- DEVICE_RESET (R387). -/
  | deviceReset (cause : ErrCause)
  /-- COMMIT_DIGEST_RECEIVE (R411). -/
  | commitDigestReceive (slot : Fin 4) (member : BitVec 12) (step : W32) (digest : W64)
  /-- CHECK_GROUP_TIMEOUT (R411). -/
  | checkGroupTimeout (slot : Fin 4)
  /-- SHARD_LIST_RECEIVE (R402). -/
  | shardListReceive (slot : Fin 4) (member : BitVec 12) (digests : List W64)
  /-- SAVE_TIMER (R413). -/
  | saveTimer (slot : Fin 4)
  /-- SAVE_START (R414). -/
  | saveStart (slot : Fin 4)
  /-- PIECE_CAPTURED (R415). -/
  | pieceCaptured
  /-- SAVE_DONE (R414). -/
  | saveDone
  /-- SAVE_STREAM_RECEIVE (R420). -/
  | saveStreamReceive (src : BitVec 12) (slot : Fin 4) (region : Nat) (offset : Nat) (data : List Byte) (last : Bool)
  /-- SEP_SAVE_REQUEST (R413). -/
  | sepSaveRequest (v : W32)
  /-- SEP_PEER_SAVE_REQUEST (R420). -/
  | sepPeerSaveRequest (v : W32)
  /-- SEP_ABANDON (R418). -/
  | sepAbandon (v : W32)
  /-- OCHRE_SAMPLE (R422). -/
  | ochreSample (readings : List SensorReading)
  /-- LIFE_FIT (R423). -/
  | lifeFit
  /-- SQ_DOORBELL (R433). -/
  | sqDoorbell (q : Fin 16) (v : W32)
  /-- CQ_DOORBELL (R433). -/
  | cqDoorbell (q : Fin 16) (v : W32)
  /-- Q_CFG_WRITE (R495). -/
  | qCfgWrite (q : Fin 16) (v : W32)
  /-- T3_WINDOW_WRITE (R432). -/
  | t3WindowWrite (off : Nat) (v : W32)
  /-- DBG_NEW (R447). -/
  | dbgNew
  /-- DBG_SUBMIT (R447). -/
  | dbgSubmit
  /-- SET_ENDPOINT_ID (R442). -/
  | setEndpointId (eid : Byte)
  /-- PLDM_MONITORING_REQUEST (R443). -/
  | pldmMonitoringRequest (body : List Byte)
  /-- REQUEST_UPDATE (R444). -/
  | requestUpdate (body : List Byte)
  /-- VERIFY_COMPLETE (R444). -/
  | verifyComplete (body : List Byte)
  /-- ACTIVATE_FIRMWARE (R444). -/
  | activateFirmware (body : List Byte)
  /-- GET_VERSION (R445). -/
  | getVersion (body : List Byte)
  /-- GET_CAPABILITIES (R445). -/
  | getCapabilities (body : List Byte)
  /-- NEGOTIATE_ALGORITHMS (R445). -/
  | negotiateAlgorithms (body : List Byte)
  /-- GET_DIGESTS (R445). -/
  | getDigests (body : List Byte)
  /-- GET_CERTIFICATE (R445). -/
  | getCertificate (body : List Byte)
  /-- CHALLENGE (R445). -/
  | challenge (body : List Byte)
  /-- GET_MEASUREMENTS (R445). -/
  | getMeasurements (body : List Byte)
  /-- BOOT (R440). -/
  | boot (kat : List Nat)
  /-- BRING_UP_READY (R441). -/
  | bringUpReady
  /-- POWER_ON_RESET (R448). -/
  | powerOnReset
  /-- DEV_RST_N (R448). -/
  | devRstN
  /-- WARM (R448). -/
  | warm
  /-- PART_RST (R385). -/
  | partRst (parts : BitVec 4)
  /-- PREPARE_OFF (R460). -/
  | prepareOff
  /-- OFF_READY (R460). -/
  | offReady
  /-- HOST_LINK_RESET (R450). -/
  | hostLinkReset (flr : Bool)
  /-- D3HOT_ENTRY (R458). -/
  | d3hotEntry
  /-- UMB_PART_PWR_WRITE (R456). -/
  | umbPartPwrWrite (v : W32)
  /-- POWER_INTERVAL (R461). -/
  | powerInterval (mw : Nat)
  /-- THERMAL_SAMPLE (R462). -/
  | thermalSample (temps : List Nat)
  /-- KRM_CTX_SEED_WRITE (R161). -/
  | krmCtxSeedWrite (slot : Fin 4) (check : Bool) (hi : Bool) (v : W32)
  /-- VW_SEED_WRITE (R161). -/
  | vwSeedWrite (v : W32)
  /-- VW_SEED_COPY_DONE (R161). -/
  | vwSeedCopyDone
  /-- WLD_LOAD (R272). -/
  | wldLoad (w : WeldId)
  /-- WLD_LOAD_DONE (R272). -/
  | wldLoadDone (w : WeldId)
  /-- CLR_DATA (R272). -/
  | clrData (w : WeldId)
  /-- WLD_PROG_DATA_WRITE (R272). -/
  | wldProgDataWrite (w : WeldId) (v : W32)
  /-- WOA_ACC_DATA_READ (R80). -/
  | woaAccDataRead (k : CoreId)
  /-- MAD_ACC_DATA_READ (R122). -/
  | madAccDataRead (k : CoreId)
  /-- LOCK_WRITE (R486). -/
  | lockWrite (off : Nat) (v : W32)
  /-- EVT_MASK_WRITE (R489). -/
  | evtMaskWrite (v : W32)
  /-- REGISTER_WRITE (R7). -/
  | registerWrite (off : Nat) (d : RegData)
  /-- FLIT_FAILED (R359). -/
  | flitFailed (link : Fin 48) (cause : FlitCause) (seq : Nat)
  /-- TWIN_DIGEST_RECEIVE (R398). -/
  | twinDigestReceive (slot : Fin 4) (ch : Fin 16) (digests : List W64)
  /-- DROOP_EVENT (R468). -/
  | droopEvent (part : Fin 4) (inst : Nat)
  /-- CXL_SNOOP (R428). -/
  | cxlSnoop (addr : Nat)
  /-- PARTITION_WAKE_DONE (R456). -/
  | partitionWakeDone (part : Fin 4)
  /-- RESTORE_PIECE_DONE (R419). -/
  | restorePieceDone (slot : Fin 4)
  /-- DATA_MOVEMENT_COMPLETE (R296). -/
  | dataMovementComplete (k : CoreId) (i : Nat)
  /-- PERST_N_RELEASE (R441). -/
  | perstNRelease
  deriving DecidableEq, Repr

end Sys2Proof
end

