-- ==== Sys2Proof/Decode.lean ====
section
/-! DEFINITION. The command that a word of the opcode table spells, and what the bits of a wide instruction spell: the fields of each slot at the
bits that R273, R274, R279, R282, R288, R290, R292, R294 and R297 give, and the opcodes of R280, R283, R284, R289, R291, R293, R295 and R298. -/

namespace Sys2Proof

/-- The command that `nbits` bits with value `w` spell by the bits of the opcode table. The table gives no row any bits
("fields" is empty in every row), so no word spells a command (log entry 1: DESIGN CHOICE). -/
def decodeTableWord (_nbits _w : Nat) : Option Instr := none

/-! ## Fields -/

/-- The field of `n` bits from bit `lo` of a slot, as a register or code number. -/
def slotFin (w : BitVec 128) (lo n : Nat) : Fin (2 ^ n) := (w.extractLsb' lo n).toFin

/-- Whether any of `n` bits from bit `lo` is set. -/
def slotAny (w : BitVec 128) (lo n : Nat) : Bool := w.extractLsb' lo n != 0

/-- The header of a slot (R274); `rsv`: whether a reserved bit of the slot is set. -/
def decodeHeader (k : CoreId) (w : BitVec 128) (rsv : Bool) : Issue :=
  { k := k, pred := slotFin w 8 4, pneg := w.getLsbD 12, rnd := slotFin w 13 3, sat := w.getLsbD 16, fz := w.getLsbD 17
    cr := w.getLsbD 18, fl := w.getLsbD 19, rsv := rsv }

/-- The fields of a C slot (R279). -/
def decodeC (k : CoreId) (w : BitVec 128) : CSlot :=
  { i := decodeHeader k w (slotAny w 62 2), rd := slotFin w 20 6, ra := slotFin w 26 6, rb := slotFin w 32 6, pd := slotFin w 38 4
    pa := slotFin w 42 4, pb := slotFin w 46 4, tgt := w.extractLsb' 50 12, imm := w.extractLsb' 64 64 }

/-- The fields of a V0 or V1 slot (R282). -/
def decodeV (k : CoreId) (w : BitVec 128) : VSlot :=
  { i := decodeHeader k w (slotAny w 125 3), vd := slotFin w 20 6, va := slotFin w 26 6, vb := slotFin w 32 6, vc := slotFin w 38 6
    sa := slotFin w 44 6, sb := slotFin w 50 6, pd := slotFin w 56 4, fmt := slotFin w 60 4, fn := w.extractLsb' 64 8
    mode := slotFin w 72 2, lane := slotFin w 74 6, imm16 := w.extractLsb' 80 16, imm16b := w.extractLsb' 96 16
    sc := slotFin w 112 6, sd := slotFin w 118 6, d2 := w.getLsbD 124 }

/-- The fields of a W slot (R288). -/
def decodeW (k : CoreId) (w : BitVec 128) : WSlot :=
  { i := decodeHeader k w (slotAny w 44 2 || slotAny w 58 70), arr := slotFin w 20 1, bind := w.getLsbD 21, td := slotFin w 22 5
    start := w.getLsbD 27, shape := slotFin w 28 2, afmt := w.getLsbD 30, bank := slotFin w 31 4, g := slotFin w 35 2
    sample := w.getLsbD 37, pd := slotFin w 38 4, ofmt := slotFin w 42 2, sk0 := slotFin w 46 6, sklen := slotFin w 52 6 }

/-- The fields of an M slot (R290). -/
def decodeM (k : CoreId) (w : BitVec 128) : MSlot :=
  { i := decodeHeader k w (slotAny w 69 59), arr := slotFin w 20 2, ta := slotFin w 22 5, tb := slotFin w 27 5, tc := slotFin w 32 5
    start := w.getLsbD 37, sr := w.getLsbD 38, conv := w.getLsbD 39, shape := slotFin w 40 2, afmt := w.getLsbD 42
    bank := slotFin w 43 3, rs := w.getLsbD 46, vt := w.getLsbD 47, pa := w.getLsbD 48, sk0 := slotFin w 49 6
    sklen := slotFin w 55 6, sx := slotFin w 61 6, ofmt := slotFin w 67 2 }

/-- The fields of a T slot (R292); `fn`: the opcode uses FN. -/
def decodeT (k : CoreId) (w : BitVec 128) (fn : Bool) : TSlot :=
  { i := decodeHeader k w (slotAny w 60 68 || (!fn && slotAny w 31 3)), ts := slotFin w 20 5, td := slotFin w 25 5, inv := w.getLsbD 30
    gran := slotFin w 34 3, lrec := w.extractLsb' 37 16, sa := slotFin w 53 6, trn := w.getLsbD 59 }

/-- The fields of a D slot (R294); `kind`: the opcode uses KIND. -/
def decodeD (k : CoreId) (w : BitVec 128) (kind : Bool) : DSlot :=
  { i := decodeHeader k w (slotAny w 67 61 || (!kind && slotAny w 30 3)), ts := slotFin w 20 5, td := slotFin w 25 5, sa := slotFin w 33 6
    sb := slotFin w 39 6, tok := slotFin w 45 4, slot := slotFin w 49 3, wtag := w.extractLsb' 52 8, wmode := w.getLsbD 60
    rd := slotFin w 61 6 }

/-- The fields of an L slot (R297). -/
def decodeL (k : CoreId) (w : BitVec 128) : LSlot :=
  { i := decodeHeader k w (slotAny w 60 68), sa := slotFin w 20 6, sb := slotFin w 26 6, ch := slotFin w 32 4, ev := slotFin w 36 3
    ts := slotFin w 39 5, imm16 := w.extractLsb' 44 16 }

/-! ## Opcodes -/

/-- The C-slot opcodes (R280). -/
def opC (op : Nat) : Option (CSlot → Instr) :=
  match op with
  | 0x01 => some .add
  | 0x02 => some .sub
  | 0x03 => some .and
  | 0x04 => some .or
  | 0x05 => some .xor
  | 0x06 => some .shl
  | 0x07 => some .shr
  | 0x08 => some .sar
  | 0x09 => some .mul
  | 0x0A => some .mulhu
  | 0x0B => some .min
  | 0x0C => some .max
  | 0x10 => some .addi
  | 0x11 => some .andi
  | 0x12 => some .ori
  | 0x13 => some .xori
  | 0x14 => some .shli
  | 0x15 => some .shri
  | 0x16 => some .movi
  | 0x18 => some .cmpEq
  | 0x19 => some .cmpNe
  | 0x1A => some .cmpLt
  | 0x1B => some .cmpLtu
  | 0x1C => some .cmpiEq
  | 0x1D => some .cmpiLt
  | 0x20 => some .pand
  | 0x21 => some .por
  | 0x22 => some .pxor
  | 0x23 => some .pnot
  | 0x24 => some .pset
  | 0x28 => some .jmp
  | 0x29 => some .jr
  | 0x2A => some .call
  | 0x2B => some .loop
  | 0x30 => some .crd
  | 0x31 => some .cwr
  | 0x32 => some .clvl
  | 0x34 => some .tld
  | 0x35 => some .tst
  | 0x36 => some .taddr
  | 0x37 => some .torg
  | 0x38 => some .lds
  | 0x39 => some .sts
  | 0x3C => some .cspec
  | 0x3D => some .ccommit
  | 0x3E => some .ccommitStep
  | 0x3F => some .halt
  | _ => none

/-- The V0 opcodes (R283). -/
def opV0 (op : Nat) : Option (VSlot → Instr) :=
  match op with
  | 0x01 => some .vadd
  | 0x02 => some .vsub
  | 0x03 => some .vmul
  | 0x04 => some .vfma
  | 0x05 => some .vmax
  | 0x06 => some .vmin
  | 0x08 => some .vcmp
  | 0x09 => some .vsel
  | 0x10 => some .viadd
  | 0x11 => some .visub
  | 0x12 => some .vimul
  | 0x13 => some .vand
  | 0x14 => some .vor
  | 0x15 => some .vxor
  | 0x16 => some .vshl
  | 0x17 => some .vshr
  | 0x18 => some .vsar
  | 0x19 => some .vicmp
  | 0x1A => some .viota
  | 0x1B => some .vbcast
  | 0x20 => some .vcvt
  | 0x21 => some .vld
  | 0x22 => some .vst
  | 0x30 => some .vext
  | 0x31 => some .vins
  | _ => none

/-- The V1 opcodes (R284). -/
def opV1 (op : Nat) : Option (VSlot → Instr) :=
  match op with
  | 0x40 => some .vexp
  | 0x41 => some .vexp2
  | 0x42 => some .vlog
  | 0x43 => some .vlog2
  | 0x44 => some .vrcp
  | 0x45 => some .vrsq
  | 0x46 => some .vsqrt
  | 0x47 => some .vdiv
  | 0x48 => some .vcos
  | 0x49 => some .vsin
  | 0x50 => some .vact
  | 0x51 => some .vactD
  | 0x52 => some .vactDi
  | 0x58 => some .vred
  | 0x60 => some .vrng
  | 0x68 => some .vosmI
  | 0x69 => some .vosmM
  | 0x6A => some .vosmL
  | 0x6B => some .vosmF
  | 0x6C => some .vosmS
  | _ => none

/-- The W-slot opcodes (R289). -/
def opW (op : Nat) : Option (WSlot → Instr) :=
  match op with
  | 0x01 => some .wld
  | 0x02 => some .wmm
  | 0x03 => some .wck
  | 0x04 => some .wfl
  | _ => none

/-- The M-slot opcodes (R291). -/
def opM (op : Nat) : Option (MSlot → Instr) :=
  match op with
  | 0x01 => some .mmm
  | 0x02 => some .mdx
  | 0x03 => some .mdw
  | 0x04 => some .mfl
  | 0x05 => some .mvw
  | _ => none

/-- The T-slot opcodes (R293), a TSTAT by its FN (R292). -/
def opT (op fn : Nat) : Option (TSlot → Instr) :=
  match op, fn with
  | 0x01, _ => some .tqz
  | 0x02, _ => some .tdq
  | 0x03, _ => some .trot
  | 0x04, _ => some .tcv
  | 0x05, 0 => some .tstatAmax
  | 0x05, 1 => some .tstatChk
  | 0x05, 2 => some .tstatFin
  | _, _ => none

/-- The D-slot opcodes (R295), a DST by its KIND. -/
def opD (op kind : Nat) : Option (DSlot → Instr) :=
  match op, kind with
  | 0x01, _ => some .dld
  | 0x02, 0 => some .dst
  | 0x02, 1 => some .dstCollector
  | 0x02, 2 => some .dstWalkRequest
  | 0x02, 3 => some .dstRelease
  | 0x02, 4 => some .dstEdit
  | 0x03, _ => some .dcp
  | 0x04, _ => some .dpf
  | 0x05, _ => some .dldWait
  | _, _ => none

/-- The L-slot opcodes (R298). -/
def opL (op : Nat) : Option (LSlot → Instr) :=
  match op with
  | 0x01 => some .lat
  | 0x02 => some .lwait
  | 0x03 => some .lsend
  | 0x04 => some .lrecv
  | 0x05 => some .lcoll
  | 0x06 => some .lfence
  | _ => none

/-! ## Wide instructions -/

/-- OP of a slot (R274). -/
def slotOp (w : BitVec 128) : Nat := (w.extractLsb' 0 8).toNat

/-- The instruction that slot `n` of a wide instruction spells; none for a NOP, an unlisted opcode and a reserved KIND or FN (R275). -/
def decodeSlot (k : CoreId) (n : Nat) (w : BitVec 128) : Option Instr :=
  let op := slotOp w
  match n with
  | 0 => (opC op).map (fun f => f (decodeC k w))
  | 1 => (opV0 op).map (fun f => f (decodeV k w))
  | 2 => (opV1 op).map (fun f => f (decodeV k w))
  | 3 => (opW op).map (fun f => f (decodeW k w))
  | 4 => (opM op).map (fun f => f (decodeM k w))
  | 5 => (opT op (w.extractLsb' 31 3).toNat).map (fun f => f (decodeT k w (op == 5)))
  | 6 => (opD op (w.extractLsb' 30 3).toNat).map (fun f => f (decodeD k w (op == 2)))
  | 7 => (opL op).map (fun f => f (decodeL k w))
  | _ => none

/-- Slot `n` of a wide instruction: bits 128n + 127 : 128n (R273). -/
def slotBits (w : BitVec 1024) (n : Nat) : BitVec 128 := w.extractLsb' (128 * n) 128

end Sys2Proof
end

