-- ==== Sys2Proof/Config.lean ====
section
/-! DEFINITION. What one part has fused or leaves open: constants with no body. No proof can see a value of any of them. -/

namespace Sys2Proof

/-- The fused 64-bit unique serial (R481, GCT_SERIAL). Log entry 4. -/
opaque Config.fusedSerial : BitVec 64

/-- The fused minimum security version of firmware (R440). Log entry 4. -/
opaque Config.fusedMinSvn : Nat

/-- Whether a fused key (firmware 0 to 3, debug 4 to 7) is revoked by fuse (R440, R446). Log entry 4. -/
opaque Config.keyRevoked : Nat → Bool

/-- Whether the public key of a fused key index is present with its fused hash (R440, R446). Log entry 4. -/
opaque Config.keyHashOk : Nat → Bool

/-- ECDSA P-384 verification under fused key `k` of a SHA-384 digest and a 96-byte signature (R440, R446): the manual
places no public key, so the outcome is open. Log entry 4. -/
opaque Config.ecdsaVerifies : Nat → List (BitVec 8) → List (BitVec 8) → Bool

/-- A value the manual leaves open, numbered by the counter `free` of the state (log entry 3: DESIGN CHOICE). -/
opaque Config.freeValue (w : Nat) : Nat → BitVec w

/-- Which of the results within the bound of R175 a non-CR function gives: a fixed function of the function's code, its
operand bits and the silicon revision (R176). Log entry 20. -/
opaque Config.functionPick : Nat → BitVec 32 → BitVec 32 → Nat

/-- The rows and columns of output tiles of a layer (R140): the manual gives the Mordant unit no source for them. Arguments: digest of the
program, layer, shape of the tile. Log entry 49. -/
opaque Config.layerTiles : List (BitVec 8) → Nat → Nat → Nat × Nat

/-- Whether a tile is sampled where no record says (R140). Arguments: digest of the program, layer, microbatch, tile. Log entry 49. -/
opaque Config.sampleOpen : List (BitVec 8) → Nat → Nat → Nat → Bool

/-- The byte that a NaN (0) becomes in a plain integer format, or an infinity (1 positive, 2 negative) where the result wraps: the
manual states none. Arguments: format code, kind. Log entry 22. -/
opaque Config.intOfSpecial : Nat → Nat → BitVec 8

/-- The entropy source of the Umber controller (R447). Log entry 3. -/
opaque Config.entropy : Nat → BitVec 128

/-- The device key's signature or a certificate or digest body in an SPDM answer (R445), by request and index. Log entry 12. -/
opaque Config.spdmBody : Nat → Nat → List (BitVec 8)

/-- The PDRs that a PLDM monitoring request asks for (R443). Log entry 12. -/
opaque Config.pdrBody : List (BitVec 8) → List (BitVec 8)

/-- Which cores of a partition of the LXV4-352-15-L are fused off (R2, R22). Arguments: partition, number from 0 to 7. Log entry 5. -/
opaque Config.fusedPick : Nat → Nat → Nat

/-- Whether a core's walk requests go to the engine 11 that admission has reserved on the LXV4-352-15-L (R14), by logical core. Log entry 114. -/
opaque Config.usesEngine11 : Nat → Bool

/-- The voltage, in mV, that the fused voltage table of a partition names (R470). Log entry 4. -/
opaque Config.fusedVoltage : Nat → Nat

/-- The size in bytes of the HDM window that the config block gives, a multiple of 256 MiB of at most 64 GiB, 0 for none
(R431). Log entry 4. -/
opaque Config.hdmBytes : Nat

/-- The size of BAR2 that the config block gives: 2^n GiB, none for an absent BAR2 (R431). Log entry 4. -/
opaque Config.bar2Log2 : Option Nat

/-- The part of a link's class 0x05 capacity, in MB/s, that the Sepia engine's reservation takes (R417 gives a number of links and
neither which nor how much of each). Arguments: SEP_BW.LINKS, partition, INDEX of the link. Log entry 70. -/
opaque Config.linkReserve : Nat → Nat → Nat → Nat

/-- The reservation that the device holds for Ochre tests (R322, R390), by class, partition and INDEX: the manual gives no amount.
Log entry 70. -/
opaque Config.testReserve : Nat → Nat → Nat → Nat

/-- The correction of an up-link delay for a static asymmetry that is not 0, in units of 1/256 ns (R306: the manual states neither its sign
nor its scale). Log entry 85. -/
opaque Config.asymCorrection : BitVec 32 → Int

/-- Whether a byte of the operand store lies in a speculative region that a certificate declares (R257). The format of R316 to R319 gives the
size that the regions of a partition store take and no address. Arguments: digest of the program, logical core, address. Log entry 35. -/
opaque Config.specLocal : List (BitVec 8) → Nat → Nat → Bool

/-- Whether a byte of a partition store lies in a declared speculative region. Arguments: digest of the program, index of the partition in
the context, offset. Log entry 35. -/
opaque Config.specStore : List (BitVec 8) → Nat → Nat → Bool

/-- The format version of the save images of this device (R264). Log entry 80. -/
opaque Config.imageVersion : Nat

/-- Whether a 64-byte unit of a partition store lies in a region that a certificate declares persistent (R264). Arguments: digest of the
program, index of the partition in the context, unit. Log entry 80. -/
opaque Config.persistent : List (BitVec 8) → Nat → Nat → Bool

/-- The unit of a partition store where a restore puts a unit of an image's (R265), by the new program, the index and the old unit. Log
entry 80. -/
opaque Config.restoredAt : List (BitVec 8) → Nat → Nat → Nat

/-- The number of operands of the Ochre test pass, a fixed program of firmware (R389). Log entry 133. -/
opaque Config.testOperands : Nat

/-- The digest with which the test pass ends on a core without a defect, by its operands (R389). Log entry 133. -/
opaque Config.testDigest : List (BitVec 64 × BitVec 64) → BitVec 64

/-- The length in ns of a calibration of a link (0) or a memory stack (1), which R329 schedules by it and gives no value. Log entry 135. -/
opaque Config.calibrationNs : Nat → Nat

/-- The bank that holds a row of a stack, and the number of spare rows of a bank (R339: the manual gives neither). Log entry 84. -/
opaque Config.bankOf : Nat → Nat

/-- The spare rows of a bank. Log entry 84. -/
opaque Config.spareRows : Nat

/-- The share, in percent, that a number of used spare rows is of a stack's spare rows (R421). Log entry 84. -/
opaque Config.rowPercent : Nat → Nat

/-- What the elements of a lake whose POISON bit is set read as, in the form of a lake's bytes, by the lake's bytes. Row 1 of R45 gives them no
value. Log entry 113: DESIGN CHOICE, safe. -/
opaque Config.poisonedLake : List (BitVec 8) → List (BitVec 8)

/-- What may happen at a tick without a command (log entry 130): a core's sequencer issues the wide instruction at its PC (R244), a Weld sequencer with an invocation runs the instruction at its PC (R267), the arrays of
a core end what they have in flight (R80), or an error arises in one of the structures of R380. Numbers beyond a structure name its
element modulo its size. -/
inductive Happening where
  | issue (core : Nat)
  | weld (seq : Nat)
  | landed (core : Nat)
  | woaAcc (core arr word : Nat)
  | woaLatch (core arr : Nat) (weight : Bool) (line : Nat)
  | madAcc (core arr word : Nat)
  | madFeed (core arr : Nat)
  | vatCe (core : Nat)
  | vatUe (core unit : Nat)
  | operandUe (core unit : Nat)
  | storeUe (part unit : Nat)
  | sReg (core reg : Nat)
  | pReg (core reg : Nat)
  | vLane (core reg lane : Nat)
  | tReg (core reg : Nat)
  | imem (core word : Nat)
  | symbol (part unit sym : Nat) (flip : BitVec 8)
  | onDie (stack : Nat)
  | regulator (part : Nat) (bad : Bool)
  | symbols (link k : Nat)
  | retireUe (engine i : Nat)
  | control (part source inst : Nat)
  | device (source inst : Nat)
  deriving DecidableEq, Repr

/-- What happens at a tick, if anything. Argument: the counter `free` of the state. Log entry 130. -/
opaque Config.happens : Nat → Option Happening

end Sys2Proof
end

