-- ==== Sys2Proof/Machine/Fp.lean ====
section
/-! DEFINITION. Number formats and roundings (02_number_formats): values held exactly, one rounding at the end (R10). -/

namespace Sys2Proof.Machine

/-- An exact magnitude: num / den × 2^exp. -/
structure Mag where
  num : Nat
  den : Nat
  exp : Int
deriving DecidableEq, Repr

/-- The value of a number: NaN, an infinity, or a signed exact magnitude (a zero keeps its sign). -/
inductive FV where
  | nan
  | inf (neg : Bool)
  | fin (neg : Bool) (m : Mag)
deriving DecidableEq, Repr

/-- A rounding of R46. -/
inductive Rnd where
  | rne | rna | rz | ro | sr
deriving DecidableEq, Repr

/-- The rounding of a 3-bit field; 101 to 111 are reserved (R46). -/
def Rnd.ofCode (c : Nat) : Option Rnd :=
  if c = 0 then some .rne else if c = 1 then some .rna else if c = 2 then some .rz
  else if c = 3 then some .ro else if c = 4 then some .sr else none

/-- The rounding of a field, RNE where it is reserved (never reached: R275 refuses first). -/
def Rnd.ofCodeD (c : Nat) : Rnd := (Rnd.ofCode c).getD .rne

/-- A format of R25: exponent bits, fraction bits, bias, whether it has infinity, the greatest finite exponent and its
greatest significand. -/
structure FFmt where
  eb : Nat
  mb : Nat
  bias : Nat
  hasInf : Bool
  emax : Int
  maxN : Nat
deriving DecidableEq, Repr

/-- FP32 (R25). -/
def fp32 : FFmt := { eb := 8, mb := 23, bias := 127, hasInf := true, emax := 127, maxN := 2 ^ 24 - 1 }
/-- XF19 (R25), as its 19-bit code. -/
def xf19 : FFmt := { eb := 8, mb := 10, bias := 127, hasInf := true, emax := 127, maxN := 2 ^ 11 - 1 }
/-- BF16 (R25). -/
def bf16 : FFmt := { eb := 8, mb := 7, bias := 127, hasInf := true, emax := 127, maxN := 2 ^ 8 - 1 }
/-- FP16 (R25). -/
def fp16 : FFmt := { eb := 5, mb := 10, bias := 15, hasInf := true, emax := 15, maxN := 2 ^ 11 - 1 }
/-- FP8-E4M3 (R25): no infinity, 448 is 0b1110 × 2^(8-3). -/
def e4m3 : FFmt := { eb := 4, mb := 3, bias := 7, hasInf := false, emax := 8, maxN := 14 }
/-- FP8-E5M2 (R25). -/
def e5m2 : FFmt := { eb := 5, mb := 2, bias := 15, hasInf := true, emax := 15, maxN := 7 }
/-- FP4-E2M1 (R25): no infinity, no NaN. -/
def fp4 : FFmt := { eb := 2, mb := 1, bias := 1, hasInf := false, emax := 2, maxN := 3 }

/-- The floating-point format of a code of R23. -/
def FFmt.ofCode (c : Nat) : Option FFmt :=
  if c = 0 then some fp32 else if c = 1 then some xf19 else if c = 2 then some bf16 else if c = 3 then some fp16
  else if c = 4 then some e4m3 else if c = 5 then some e5m2 else if c = 8 then some fp4 else none

/-- Bits of an element of a format code outside its container (R23). -/
def fmtWidth (c : Nat) : Nat :=
  if c = 0 then 32 else if c = 1 then 19 else if c = 2 ∨ c = 3 then 16 else if c ≤ 7 then 8 else if c ≤ 9 then 4 else 2

/-- Bytes of an element of a plain tile (R23, R26): XF19 is held in 32 bits. -/
def fmtBytes (c : Nat) : Nat := if c ≤ 1 then 4 else if c ≤ 3 then 2 else 1

/-! ## Exact arithmetic -/

/-- The exact magnitude m × 2^e. -/
def Mag.dyadic (m : Nat) (e : Int) : Mag := { num := m, den := 1, exp := e }

/-- A signed integer times 2^e as a value; a zero is +0. -/
def FV.ofInt (i : Int) (e : Int) : FV := .fin (decide (i < 0)) (Mag.dyadic i.natAbs e)

/-- Two magnitudes over one denominator and exponent: their numerators. -/
def Mag.align (a b : Mag) : Nat × Nat × Nat × Int :=
  let e := min a.exp b.exp
  (a.num * b.den * 2 ^ (a.exp - e).toNat, b.num * a.den * 2 ^ (b.exp - e).toNat, a.den * b.den, e)

/-- Whether magnitude `a` is below magnitude `b`. -/
def Mag.lt (a b : Mag) : Bool :=
  let t := Mag.align a b
  decide (t.1 < t.2.1)

/-- The exact product of two magnitudes. -/
def Mag.mul (a b : Mag) : Mag := { num := a.num * b.num, den := a.den * b.den, exp := a.exp + b.exp }

/-- The exact quotient of two magnitudes (the divisor is not zero). -/
def Mag.div (a b : Mag) : Mag := { num := a.num * b.den, den := a.den * b.num, exp := a.exp - b.exp }

/-- Whether a value is NaN. -/
def FV.isNan : FV → Bool
  | .nan => true
  | _ => false

/-- Whether a value is finite. -/
def FV.isFin : FV → Bool
  | .fin _ _ => true
  | _ => false

/-- Whether a value is a zero. -/
def FV.isZero : FV → Bool
  | .fin _ m => m.num == 0
  | _ => false

/-- The value negated. -/
def FV.neg : FV → FV
  | .nan => .nan
  | .inf s => .inf (!s)
  | .fin s m => .fin (!s) m

/-- The magnitude of a value, with sign plus. -/
def FV.abs : FV → FV
  | .nan => .nan
  | .inf _ => .inf false
  | .fin _ m => .fin false m

/-- The exact sum. Opposite infinities give NaN (R85); an exact cancellation is +0 and -0 + -0 is -0 (log entry 21: DEDUCED). -/
def FV.add : FV → FV → FV
  | .nan, _ => .nan
  | _, .nan => .nan
  | .inf s, .inf t => if s = t then .inf s else .nan
  | .inf s, .fin _ _ => .inf s
  | .fin _ _, .inf t => .inf t
  | .fin s a, .fin t b =>
    let r := Mag.align a b
    if s = t then .fin s { num := r.1 + r.2.1, den := r.2.2.1, exp := r.2.2.2 }
    else if r.1 = r.2.1 then .fin false { num := 0, den := 1, exp := 0 }
    else if r.1 < r.2.1 then .fin t { num := r.2.1 - r.1, den := r.2.2.1, exp := r.2.2.2 }
    else .fin s { num := r.1 - r.2.1, den := r.2.2.1, exp := r.2.2.2 }

/-- The exact product; infinity times zero is NaN (R85). -/
def FV.mul : FV → FV → FV
  | .nan, _ => .nan
  | _, .nan => .nan
  | .inf s, .inf t => .inf (s != t)
  | .inf s, .fin t m => if m.num = 0 then .nan else .inf (s != t)
  | .fin s m, .inf t => if m.num = 0 then .nan else .inf (s != t)
  | .fin s a, .fin t b => .fin (s != t) (Mag.mul a b)

/-- The exact quotient (R175, VDIV: as the exact quotient): 0/0 and inf/inf are NaN, x/0 is an infinity. -/
def FV.div : FV → FV → FV
  | .nan, _ => .nan
  | _, .nan => .nan
  | .inf _, .inf _ => .nan
  | .inf s, .fin t _ => .inf (s != t)
  | .fin s _, .inf t => .fin (s != t) { num := 0, den := 1, exp := 0 }
  | .fin s a, .fin t b =>
    if b.num = 0 then (if a.num = 0 then .nan else .inf (s != t)) else .fin (s != t) (Mag.div a b)

/-- Order of two values that are not NaN: whether `a` is below `b` as numbers. -/
def FV.lt : FV → FV → Bool
  | .nan, _ => false
  | _, .nan => false
  | .inf s, .inf t => s && !t
  | .inf s, .fin _ _ => s
  | .fin _ _, .inf t => !t
  | .fin s a, .fin t b =>
    if a.num = 0 then (b.num != 0 && !t)
    else if b.num = 0 then s
    else if s != t then s
    else if s then Mag.lt b a else Mag.lt a b

/-- Whether two values that are not NaN are equal as numbers (+0 equals -0). -/
def FV.eq (a b : FV) : Bool := !a.isNan && !b.isNan && !FV.lt a b && !FV.lt b a

/-! ## Rounding -/

/-- ⌊log₂ n⌋ of a positive number. -/
def log2 (n : Nat) : Nat := Nat.log2 n

/-- ⌊log₂ v⌋ of a positive magnitude. -/
def Mag.floorLog2 (m : Mag) : Int :=
  let l : Int := (log2 m.num : Int) - (log2 m.den : Int)
  let below : Bool :=
    if 0 ≤ l then decide (m.num < m.den * 2 ^ l.toNat) else decide (m.num * 2 ^ (-l).toNat < m.den)
  l + m.exp - (if below then 1 else 0)

/-- A magnitude over the quantum 2^q as numerator and denominator. -/
def Mag.scaled (m : Mag) (q : Int) : Nat × Nat :=
  let d := m.exp - q
  if 0 ≤ d then (m.num * 2 ^ d.toNat, m.den) else (m.num, m.den * 2 ^ (-d).toNat)

/-- One rounding of N / D to an integer under R46 and R48; `r` is the 16 Kermes bits of SR. -/
def roundQuot (mode : Rnd) (r : Nat) (N D : Nat) : Nat :=
  let n := N / D
  let rem := N % D
  match mode with
  | .rne => if 2 * rem > D ∨ (2 * rem = D ∧ n % 2 = 1) then n + 1 else n
  | .rna => if 2 * rem ≥ D then n + 1 else n
  | .rz => n
  | .ro => if rem ≠ 0 ∧ n % 2 = 0 then n + 1 else n
  | .sr => if rem ≠ 0 ∧ rem * 65536 / D + r ≥ 65536 then n + 1 else n

/-- The magnitude rounded to the grid of a format with no upper limit on the exponent (R46): the significand `n` and the
quantum exponent `q`, with value n × 2^q. -/
def FFmt.roundMag (f : FFmt) (mode : Rnd) (r : Nat) (m : Mag) : Nat × Int :=
  if m.num = 0 then (0, 1 - (f.bias : Int) - f.mb)
  else
    let q : Int := max (m.floorLog2) (1 - (f.bias : Int)) - f.mb
    let t := m.scaled q
    (roundQuot mode r t.1 t.2, q)

/-- Whether SR of this magnitude is inexact, so that it draws bits (R165). -/
def FFmt.inexact (f : FFmt) (m : Mag) : Bool :=
  if m.num = 0 then false
  else
    let q : Int := max (m.floorLog2) (1 - (f.bias : Int)) - f.mb
    let t := m.scaled q
    t.1 % t.2 != 0

/-- Whether n × 2^q is above the largest finite value of the format (R46). -/
def FFmt.over (f : FFmt) (n : Nat) (q : Int) : Bool :=
  let top := f.emax - f.mb
  if q < top then decide (n > f.maxN * 2 ^ (top - q).toNat) else decide (n * 2 ^ (q - top).toNat > f.maxN)

/-- The code of sign `s` and magnitude n × 2^q, which the format holds. -/
def FFmt.pack (f : FFmt) (s : Bool) (n : Nat) (q : Int) : Nat :=
  let sg := bit s * 2 ^ (f.eb + f.mb)
  if n = 0 then sg
  else
    let n' := if n ≥ 2 ^ (f.mb + 1) then n / 2 else n
    let q' := if n ≥ 2 ^ (f.mb + 1) then q + 1 else q
    if n' < 2 ^ f.mb then sg + n'
    else sg + (q' + f.mb + f.bias).toNat * 2 ^ f.mb + (n' - 2 ^ f.mb)

/-- The code of the largest finite value with a sign. -/
def FFmt.maxCode (f : FFmt) (s : Bool) : Nat := f.pack s f.maxN (f.emax - f.mb)

/-- The code of an infinity. -/
def FFmt.infCode (f : FFmt) (s : Bool) : Nat := bit s * 2 ^ (f.eb + f.mb) + (2 ^ f.eb - 1) * 2 ^ f.mb

/-- The canonical NaN of the format (R29); FP4 has none. -/
def FFmt.nanCode (f : FFmt) : Nat :=
  if f.hasInf then (2 ^ f.eb - 1) * 2 ^ f.mb + 2 ^ (f.mb - 1) else 2 ^ (f.eb + f.mb) - 1

/-- A value rounded to a format: its code, and whether it saturated. `sat`: overflow saturates (R47). -/
def FFmt.round (f : FFmt) (mode : Rnd) (r : Nat) (sat : Bool) (v : FV) : Nat × Bool :=
  match v with
  | .nan => (f.nanCode, false)
  | .inf s => if f.hasInf then (f.infCode s, false) else (f.maxCode s, true)
  | .fin s m =>
    let t := f.roundMag mode r m
    if f.over t.1 t.2 then
      if sat || !f.hasInf then (f.maxCode s, true)
      else match mode with
        | .rz | .ro => (f.maxCode s, false)
        | _ => (f.infCode s, false)
    else (f.pack s t.1 t.2, false)

/-- The value of a code of a format (R25, R29). -/
def FFmt.decode (f : FFmt) (c : Nat) : FV :=
  let s := natBit c (f.eb + f.mb)
  let e := natBits c (f.mb + f.eb - 1) f.mb
  let fr := c % 2 ^ f.mb
  if f.hasInf ∧ e = 2 ^ f.eb - 1 then (if fr = 0 then .inf s else .nan)
  else if f.eb = 4 ∧ e = 15 ∧ fr = 7 then .nan
  else if e = 0 then .fin s (Mag.dyadic fr (1 - (f.bias : Int) - f.mb))
  else .fin s (Mag.dyadic (2 ^ f.mb + fr) ((e : Int) - f.bias - f.mb))

/-- Whether a code is a non-zero subnormal of the format. -/
def FFmt.isSub (f : FFmt) (c : Nat) : Bool := natBits c (f.mb + f.eb - 1) f.mb == 0 && c % 2 ^ f.mb != 0

/-- A subnormal code flushed to zero of its sign (R28). -/
def FFmt.flush (f : FFmt) (c : Nat) : Nat := if f.isSub c then c / 2 ^ (f.eb + f.mb) * 2 ^ (f.eb + f.mb) else c

/-! ## FP32 operations -/

/-- The value of an FP32 word. -/
def f32v (x : W32) : FV := fp32.decode x.toNat

/-- A value rounded to FP32, flushed under R28 where `fz` is set (R173). -/
def f32r (mode : Rnd) (fz : Bool) (v : FV) : W32 :=
  let c := (fp32.round mode 0 false v).1
  BitVec.ofNat 32 (if fz then fp32.flush c else c)

/-- FP32 canonical NaN (R29). -/
def nan32 : W32 := 0x7FC00000#32

/-- FP32 one. -/
def one32 : W32 := 0x3F800000#32

/-- FP32 minus infinity. -/
def ninf32 : W32 := 0xFF800000#32

/-- FP32 plus infinity. -/
def inf32 : W32 := 0x7F800000#32

/-- Whether an FP32 word is a NaN. -/
def isNan32 (x : W32) : Bool := (f32v x).isNan

/-- FP32 sign bit inverted; a NaN is the canonical NaN (R29). -/
def neg32 (x : W32) : W32 := if isNan32 x then nan32 else x ^^^ 0x80000000#32

/-- `add32` of R113: RNE, R28 flush, R29 NaN rules. -/
def add32 (a b : W32) : W32 := f32r .rne true (FV.add (f32v a) (f32v b))
/-- `sub32` with the flush of R28. -/
def sub32 (a b : W32) : W32 := f32r .rne true (FV.add (f32v a) (FV.neg (f32v b)))
/-- `mul32` with the flush of R28 (R127, R235). -/
def mul32 (a b : W32) : W32 := f32r .rne true (FV.mul (f32v a) (f32v b))
/-- `add32` of R177: RNE, subnormal results kept (R173). -/
def add32k (a b : W32) : W32 := f32r .rne false (FV.add (f32v a) (f32v b))
/-- `sub32` of R177, subnormal results kept. -/
def sub32k (a b : W32) : W32 := f32r .rne false (FV.add (f32v a) (FV.neg (f32v b)))
/-- `mul32` of R177, subnormal results kept. -/
def mul32k (a b : W32) : W32 := f32r .rne false (FV.mul (f32v a) (f32v b))
/-- `div32` of R143, R175. -/
def div32 (a b : W32) : W32 := f32r .rne false (FV.div (f32v a) (f32v b))

/-- `combine` of R113, one level: neighbours added in pairs, an odd last value passed on. -/
def combineLevel : List W32 → List W32
  | a :: b :: t => add32 a b :: combineLevel t
  | l => l

/-- `combine` of R113 with fuel for the levels. -/
def combineFuel : Nat → List W32 → W32
  | 0, l => l.headD 0
  | n + 1, l => match l with
    | [] => 0
    | [x] => x
    | l => combineFuel n (combineLevel l)

/-- `combine` of R113: partials added pairwise in a fixed order. -/
def combine (l : List W32) : W32 := combineFuel l.length l

/-- The 32-bit container of an XF19 code (R26). -/
def xf19Container (c : Nat) : Nat := c * 2 ^ 13

/-- The XF19 code of a container, its bits 12:0 ignored (R26). -/
def xf19OfContainer (w : Nat) : Nat := w / 2 ^ 13 % 2 ^ 19

/-- The value of a plain element, held as `fmtBytes c` bytes (R23, R26, R30): INT8 and UINT8Z bytes are plain integers. -/
def plainValue (c : Nat) (w : Nat) : FV :=
  if c = 1 then xf19.decode (xf19OfContainer w)
  else if c = 6 then .ofInt (if w ≥ 128 then (w : Int) - 256 else w) 0
  else if c = 7 then .ofInt w 0
  else match FFmt.ofCode c with
    | some f => f.decode w
    | none => .nan

/-- The produced range of an integer format (R30), as its least and greatest value. -/
def intRange (c : Nat) : Int × Int :=
  if c = 6 then (-127, 127) else if c = 7 then (0, 255) else if c = 9 then (-7, 7) else (-2 ^ 31, 2 ^ 31 - 1)

/-- A finite value rounded to an integer under R46, R48, R51 (ties of RNE go to the even code). -/
def roundInt (mode : Rnd) (r : Nat) (s : Bool) (m : Mag) : Int :=
  let t := m.scaled 0
  let n : Nat := roundQuot mode r t.1 t.2
  if s then -(n : Int) else n

/-- An integer result saturated or wrapped (R47): its pattern in `w` bits and whether it saturated. -/
def satInt (wrap : Bool) (c w : Nat) (i : Int) : Nat × Bool :=
  let b := intRange c
  if wrap then ((i % (2 ^ w : Int)).toNat, false)
  else if i < b.1 then ((b.1 % (2 ^ w : Int)).toNat, true)
  else if i > b.2 then ((b.2 % (2 ^ w : Int)).toNat, true)
  else ((i % (2 ^ w : Int)).toNat, false)

/-- A code that the manual leaves open, as one that the device produces in the format (R30): 0 in place of INT8 −128, INT4 −8 and the
reserved TER code. -/
def producedCode (c v : Nat) : Nat :=
  let w := v % 2 ^ fmtWidth c
  if (c = 6 ∧ w = 128) ∨ (c = 9 ∧ w = 8) ∨ (c = 11 ∧ w = 3) then 0 else w

/-- A value converted to a plain element of format `c` (R46, R47): code, saturations counted. XF19 gives its 19-bit code.
An integer conversion of a NaN, or of an infinity that wraps, gives an open byte; an infinity saturates (log entry 22: DESIGN CHOICE). -/
def toPlain (c : Nat) (mode : Rnd) (r : Nat) (wrap : Bool) (v : FV) : Nat × Bool :=
  if c = 6 ∨ c = 7 then
    match v with
    | .nan => (producedCode c (Config.intOfSpecial c 0).toNat, false)
    | .inf s => if wrap then (producedCode c (Config.intOfSpecial c (if s then 2 else 1)).toNat, false)
                else satInt false c 8 (if s then -1000 else 1000)
    | .fin s m => satInt wrap c 8 (roundInt mode r s m)
  else match FFmt.ofCode c with
    | some f => f.round mode r false v
    | none => (0, false)

end Sys2Proof.Machine
end

