-- ==== Sys2Proof/Machine/FpFun.lean ====
section
/-! DEFINITION. The functions of the function pipe (R175, R176, R183, R184). The correctly rounded results come from the exact
function carried to 512 binary places (log entry 23: DEDUCED); a form that is not CR gives one of the FP32 values within R175's bound,
picked by the open constant Config.functionPick (log entry 20: DESIGN CHOICE). -/

namespace Sys2Proof.Machine

/-- Binary places carried. -/
def fxP : Nat := 512
/-- One in fixed point. -/
def fxOne : Int := 2 ^ fxP
/-- The product in fixed point. -/
def fxMul (a b : Int) : Int := a * b / fxOne
/-- The quotient in fixed point. -/
def fxDiv (a b : Int) : Int := a * fxOne / b

/-- A signed magnitude in fixed point. -/
def fxOf (s : Bool) (m : Mag) : Int :=
  let t := m.scaled (-(fxP : Int))
  let n : Int := (t.1 / t.2 : Nat)
  if s then -n else n

/-- A fixed-point number times 2^k as a value; zero takes the sign `z`. -/
def fxVal (x : Int) (k : Int) (z : Bool) : FV :=
  if x = 0 then .fin z (Mag.dyadic 0 0) else .fin (decide (x < 0)) (Mag.dyadic x.natAbs (k - fxP))

/-- Σ of the series whose next term is `term × r / d(i)`, `n` terms from index `i`. -/
def fxSeries (r : Int) (d : Nat → Int) : Nat → Nat → Int → Int
  | 0, _, _ => 0
  | n + 1, i, term => term + fxSeries r d n (i + 1) (fxMul term r / d (i + 1))

/-- e^r for |r| < 1. -/
def fxExpSmall (r : Int) : Int := fxSeries r (fun i => (i : Int)) 140 0 fxOne

/-- Σ x^(2i+1)/(2i+1) with signs alternating where `alt`: atanh or atan of a small x. -/
def fxAtSeries (x2 : Int) (alt : Bool) : Nat → Nat → Int → Int
  | 0, _, _ => 0
  | n + 1, i, p => p / ((2 * i + 1 : Nat) : Int) + fxAtSeries x2 alt n (i + 1) (fxMul (if alt then -p else p) x2)

/-- atanh of |x| ≤ 1/3. -/
def fxAtanh (x : Int) : Int := fxAtSeries (fxMul x x) false 340 0 x
/-- atan of |x| ≤ 1/5. -/
def fxAtan (x : Int) : Int := fxAtSeries (fxMul x x) true 240 0 x
/-- ln 2. -/
def fxLn2 : Int := 2 * fxAtanh (fxOne / 3)
/-- π. -/
def fxPi : Int := 16 * fxAtan (fxOne / 5) - 4 * fxAtan (fxOne / 239)

/-- The nearest integer of a fixed-point number. -/
def fxRound (x : Int) : Int := (x + fxOne / 2) / fxOne

/-- e^x as mantissa in fixed point and binary exponent. -/
def fxExp (x : Int) : Int × Int :=
  let k := fxRound (fxDiv x fxLn2)
  (fxExpSmall (x - k * fxLn2), k)

/-- e^x in fixed point (x not large). -/
def fxExpFx (x : Int) : Int :=
  let t := fxExp x
  if 0 ≤ t.2 then t.1 * 2 ^ t.2.toNat else t.1 / 2 ^ (-t.2).toNat

/-- ln of a positive magnitude. -/
def fxLn (m : Mag) : Int :=
  let e := m.floorLog2
  let x := fxOf false { m with exp := m.exp - e }
  e * fxLn2 + 2 * fxAtanh (fxDiv (x - fxOne) (x + fxOne))

/-- sin and cos of |r| ≤ 1. -/
def fxSinSmall (r : Int) : Int := fxSeries (-(fxMul r r)) (fun i => ((2 * i) * (2 * i + 1) : Nat)) 80 0 r
/-- cos of |r| ≤ 1. -/
def fxCosSmall (r : Int) : Int := fxSeries (-(fxMul r r)) (fun i => ((2 * i - 1) * (2 * i) : Nat)) 80 0 fxOne

/-- sin (`c` false) or cos (`c` true) of x. -/
def fxSinCos (c : Bool) (x : Int) : Int :=
  let k := fxRound (fxDiv (2 * x) fxPi)
  let r := x - k * fxPi / 2
  let q := (k + (if c then 1 else 0)) % 4
  if q = 0 then fxSinSmall r else if q = 1 then fxCosSmall r else if q = 2 then -fxSinSmall r else -fxCosSmall r

/-- The integer square root below 2^fuel, bit by bit. -/
def isqrtFuel : Nat → Nat → Nat → Nat
  | 0, _, r => r
  | f + 1, n, r => if (r + 2 ^ f) * (r + 2 ^ f) ≤ n then isqrtFuel f n (r + 2 ^ f) else isqrtFuel f n r

/-- The integer square root. -/
def isqrt (n : Nat) : Nat := isqrtFuel (log2 n / 2 + 1) n 0

/-- √ of a magnitude with a sticky bit below its last place, so that one rounding of it is the rounding of the root. -/
def Mag.sqrt (m : Mag) : Mag :=
  if m.num = 0 then m
  else
    let odd := m.exp % 2 = 1
    let num := if odd then m.num * 2 else m.num
    let e := if odd then m.exp - 1 else m.exp
    let N := num * 2 ^ 1024 / m.den
    let r := isqrt N
    let exact := r * r = N ∧ num * 2 ^ 1024 % m.den = 0
    Mag.dyadic (2 * r + (if exact then 0 else 1)) (e / 2 - 513)

/-- √ of a fixed-point number. -/
def fxSqrt (x : Int) : Int := (isqrt (x.natAbs * 2 ^ fxP) : Nat)

/-- erf by its series, |x| ≤ 11. -/
def fxErf (x : Int) : Int :=
  let x2 := fxMul x x
  let rec go : Nat → Nat → Int → Int
    | 0, _, _ => 0
    | n + 1, i, p => p / ((2 * i + 1 : Nat) : Int) + go n (i + 1) (-(fxMul p x2) / ((i + 1 : Nat) : Int))
  fxDiv (2 * go 700 0 x) (fxSqrt fxPi)

/-- The inverse of the standard normal distribution function at n / 2048, 0 < n < 2048, by bisection on [−4, 4) to 2^−100
(R168 asks for 40 significant bits). -/
def fxPhiInv (n : Nat) : Int :=
  let rec go : Nat → Int → Int → Int
    | 0, lo, _ => lo
    | k + 1, lo, hi =>
      let mid := (lo + hi) / 2
      -- Φ(mid) < n / 2048
      if (fxOne + fxErf (fxDiv mid (fxSqrt (2 * fxOne)))) * 1024 < (n : Int) * fxOne then go k mid hi else go k lo mid
  go 103 (-4 * fxOne) (4 * fxOne)

/-- Entry `i` of the normal table: a_i and b_i, each rounded once with RNE (R168). -/
def normalEntry (i : Nat) : W32 × W32 :=
  let a := fxPhiInv (2 * i + 1)
  let b := if i = 0 then 2 * (fxPhiInv 2 - a)
    else if i = 1023 then 2 * (a - fxPhiInv 2046)
    else fxPhiInv (2 * i + 2) - fxPhiInv (2 * i)
  (f32r .rne false (fxVal a 0 false), f32r .rne false (fxVal b 0 false))

/-! ## Exact functions of an FP32 value -/

/-- e^v; −∞ gives +0, +∞ gives +∞ (R175). Beyond the range the exponent is clamped, which rounds the same. -/
def exExp (two : Bool) (v : FV) : FV :=
  match v with
  | .nan => .nan
  | .inf s => if s then .fin false (Mag.dyadic 0 0) else .inf false
  | .fin s m =>
    if Mag.lt (Mag.dyadic 300 0) m then .fin false (Mag.dyadic 1 (if s then -400 else 400))
    else if two ∧ (m.scaled 0).1 % (m.scaled 0).2 = 0 then
      let n : Int := ((m.scaled 0).1 / (m.scaled 0).2 : Nat)
      .fin false (Mag.dyadic 1 (if s then -n else n))
    else
      let x := if two then fxMul (fxOf s m) fxLn2 else fxOf s m
      let t := fxExp x
      fxVal t.1 t.2 false

/-- ln v or log₂ v: ±0 gives −∞, a negative gives NaN (R175). -/
def exLog (two : Bool) (v : FV) : FV :=
  match v with
  | .nan => .nan
  | .inf s => if s then .nan else .inf false
  | .fin s m =>
    if m.num = 0 then .inf true
    else if s then .nan
    else fxVal (if two then fxDiv (fxLn m) fxLn2 else fxLn m) 0 false

/-- 1/v: ±0 gives ±∞, ±∞ gives ±0 (R175). -/
def exRcp (v : FV) : FV := FV.div (f32v one32) v

/-- √v: −0 gives −0, a negative gives NaN (R175). -/
def exSqrt (v : FV) : FV :=
  match v with
  | .nan => .nan
  | .inf s => if s then .nan else .inf false
  | .fin s m => if m.num = 0 then v else if s then .nan else .fin false m.sqrt

/-- 1/√v: +0 gives +∞, −0 gives −∞, a negative gives NaN (R175). -/
def exRsq (v : FV) : FV :=
  match v with
  | .nan => .nan
  | .inf s => if s then .nan else .fin false (Mag.dyadic 0 0)
  | .fin s m =>
    if m.num = 0 then .inf s
    else if s then .nan
    else .fin false (Mag.sqrt { num := m.den, den := m.num, exp := -m.exp })

/-- sin or cos: |x| > 2²⁰ or infinite gives NaN (R175). -/
def exTrig (c : Bool) (v : FV) : FV :=
  match v with
  | .nan => .nan
  | .inf _ => .nan
  | .fin s m => if Mag.lt (Mag.dyadic 1 20) m then .nan else fxVal (fxSinCos c (fxOf s m)) 0 s

/-- A magnitude clamped to 2^11 in fixed point: past it every function of the activation table has reached its limit. -/
def fxClamp (s : Bool) (m : Mag) : Int :=
  if Mag.lt (Mag.dyadic 1 11) m then (if s then -(fxOne * 2048) else fxOne * 2048) else fxOf s m

/-- σ(x). -/
def fxSigma (x : Int) : Mag :=
  let t := fxExp (-x)
  -- 1 / (1 + t): over a common exponent
  if 0 ≤ t.2 then { num := fxOne.toNat, den := (fxOne + t.1 * 2 ^ t.2.toNat).toNat, exp := 0 }
  else { num := fxOne.toNat * 2 ^ (-t.2).toNat, den := (fxOne * 2 ^ (-t.2).toNat + t.1).toNat, exp := 0 }

/-- A magnitude in fixed point. -/
def Mag.fx (m : Mag) : Int := fxOf false m

/-- tanh x for a clamped x. -/
def fxTanh (x : Int) : Int :=
  let e := fxExpFx (-(2 * (x.natAbs : Int)))
  let t := fxDiv (fxOne - e) (fxOne + e)
  if x < 0 then -t else t

/-- u of GELU_TANH: √(2/π)(z + 0.044715z³) (R183). -/
def fxGeluU (x : Int) : Int :=
  fxMul (fxSqrt (fxDiv (2 * fxOne) fxPi)) (x + fxMul (fxMul x x) x * 44715 / 1000000)

/-- The forward function f of an activation code (R183), exact; `al` is α. Branches test z; NaN gives NaN. -/
def exAct (code : Nat) (al : FV) (v : FV) : FV :=
  match v with
  | .nan => .nan
  | _ =>
    let pos := FV.lt (.fin false (Mag.dyadic 0 0)) v
    let zero : FV := .fin false (Mag.dyadic 0 0)
    if code = 0x00 then v
    else if code = 0x01 then (if pos then v else zero)
    else if code = 0x02 then (if pos then v else FV.mul al v)
    else if code = 0x08 then exExp false v
    else if code = 0x07 then (if pos then FV.mul v v else zero)
    else if code = 0x05 then
      (if pos then v else FV.mul al (match v with
        | .fin s m => fxVal (fxExpFx (fxClamp s m) - fxOne) 0 false
        | _ => FV.neg (f32v one32)))
    else match v with
    | .inf s =>
      if code = 0x03 then (if s then zero else f32v one32)
      else if code = 0x04 then .fin s (Mag.dyadic 1 0)
      else if code = 0x06 then (if s then zero else .inf false)
      else (if s then .fin true (Mag.dyadic 0 0) else .inf false)
    | .fin s m =>
      let x := fxClamp s m
      if code = 0x03 then .fin false (fxSigma x)
      else if code = 0x04 then fxVal (fxTanh x) 0 s
      else if code = 0x06 then
        -- ln(1 + e^z) = max(z, 0) + ln(1 + e^(-|z|))
        let e := fxExp (-(x.natAbs : Int))
        let y : Int := if e.2 ≤ 0 then e.1 / 2 ^ (-e.2).toNat else e.1 * 2 ^ e.2.toNat
        let ln1 : FV :=
          if y < fxOne / 2 ^ 200 then fxVal e.1 e.2 false
          else fxVal (fxLn { num := (fxOne + y).toNat, den := fxOne.toNat, exp := 0 }) 0 false
        if pos then FV.add v ln1 else ln1
      else if code = 0x10 then
        if s ∧ Mag.lt (Mag.dyadic 16 0) m then .fin true (Mag.dyadic 1 (-400))
        else if Mag.lt (Mag.dyadic 16 0) m then v
        else FV.mul v (fxVal ((fxOne + fxErf (fxDiv x (fxSqrt (2 * fxOne)))) / 2) 0 false)
      else if code = 0x11 then
        if Mag.lt (Mag.dyadic 16 0) m then (if s then .fin true (Mag.dyadic 1 (-400)) else v)
        else FV.mul v (fxVal ((fxOne + fxTanh (fxGeluU x)) / 2) 0 false)
      else FV.mul v (.fin false (fxSigma x))
    | .nan => .nan

/-- The derivative f′ from the saved input z (R183, VACT.DI column), exact. -/
def exActD (code : Nat) (al : FV) (v : FV) : FV :=
  match v with
  | .nan => .nan
  | _ =>
    let pos := FV.lt (.fin false (Mag.dyadic 0 0)) v
    let zero : FV := .fin false (Mag.dyadic 0 0)
    let one := f32v one32
    if code = 0x00 then one
    else if code = 0x01 then (if pos then one else zero)
    else if code = 0x02 then (if pos then one else al)
    else if code = 0x05 then (if pos then one else FV.mul al (exExp false v))
    else if code = 0x06 then (match v with
      | .inf s => if s then zero else one
      | .fin s m => .fin false (fxSigma (fxClamp s m))
      | .nan => .nan)
    else if code = 0x07 then (if pos then FV.mul (.ofInt 2 0) v else zero)
    else if code = 0x08 then exExp false v
    else match v with
    | .inf s =>
      if code = 0x03 ∨ code = 0x04 then zero else (if s then .fin true (Mag.dyadic 0 0) else one)
    | .fin s m =>
      let x := fxClamp s m
      if code = 0x03 then .fin false (Mag.mul (fxSigma x) (fxSigma (-x)))
      else if code = 0x04 then
        -- 1 - tanh² = 4 σ(2z) σ(-2z)
        .fin false (Mag.mul (Mag.dyadic 4 0) (Mag.mul (fxSigma (2 * x)) (fxSigma (-(2 * x)))))
      else if code = 0x10 then
        if Mag.lt (Mag.dyadic 16 0) m then (if s then .fin true (Mag.dyadic 1 (-400)) else one)
        else
          let phi := (fxOne + fxErf (fxDiv x (fxSqrt (2 * fxOne)))) / 2
          let dens := fxDiv (fxExpFx (-(fxMul x x) / 2)) (fxSqrt (2 * fxPi))
          fxVal (phi + fxMul x dens) 0 false
      else if code = 0x11 then
        if Mag.lt (Mag.dyadic 16 0) m then (if s then .fin true (Mag.dyadic 1 (-400)) else one)
        else
          let t := fxTanh (fxGeluU x)
          let g := fxMul (fxSqrt (fxDiv (2 * fxOne) fxPi)) (fxOne + fxMul x x * 134145 / 1000000)
          fxVal ((fxOne + t) / 2 + fxMul (fxMul (x / 2) (fxOne - fxMul t t)) g) 0 false
      else if Mag.lt (Mag.dyadic 128 0) m then (if s then .fin true (Mag.dyadic 1 (-400)) else one)
      else
        let sg := (fxSigma x).fx
        fxVal (fxMul sg (fxOne + fxMul x (fxOne - sg))) 0 false
    | .nan => .nan

/-! ## The forms of the function pipe -/

/-- The place of an FP32 word among the words that are not NaN, in the order of the reals: −1 for −0 and 0 for +0. -/
def f32Key (x : W32) : Int := if x.toNat ≥ 2 ^ 31 then -((x.toNat : Int) - 2 ^ 31) - 1 else x.toNat

/-- The word of a place. -/
def f32OfKey (k : Int) : W32 := if k < 0 then BitVec.ofNat 32 ((-k - 1).toNat + 2 ^ 31) else BitVec.ofNat 32 k.toNat

/-- The place of the least (or, with `up` false, the greatest) finite FP32 value that is not below (not above) a finite value. -/
def f32Edge (up : Bool) (v : FV) : Int :=
  let k := f32Key (f32r .rz false v)
  let ok := fun (q : Int) => let w := f32v (f32OfKey q)
    w.isFin && !(if up then FV.lt w v else FV.lt v w)
  ((if up then [k - 1, k, k + 1, k + 2] else [k + 1, k, k - 1, k - 2]).find? ok).getD k

/-- ulp(z) of R175. -/
def ulpOf (z : FV) : Mag :=
  match z with
  | .fin _ m => if m.num = 0 then Mag.dyadic 1 (-149) else Mag.dyadic 1 (max m.floorLog2 (-126) - 23)
  | _ => Mag.dyadic 0 0

/-- The larger of `u` ulp and the absolute bound 2^a (none: no absolute bound). -/
def boundOf (u : Nat) (a : Option Int) (z : FV) : Mag :=
  let b := Mag.mul (Mag.dyadic u 0) (ulpOf z)
  match a with
  | none => b
  | some e => if Mag.lt b (Mag.dyadic 1 e) then Mag.dyadic 1 e else b

/-- A function-pipe result: CR form, correctly rounded with RNE; otherwise one of the FP32 values within the bound (R175,
R176): every one between the least and the greatest of them may be it. NaN, infinities, zeros, overflow and an underflow to zero are as
for the exact result under RNE. Flushed where FZ is set (R173). -/
def pipeResult (cr fz : Bool) (code u : Nat) (a : Option Int) (x y : W32) (z : FV) : W32 :=
  let e := f32r .rne false z
  let r := match f32v e, z with
    | .fin _ q, .fin _ _ =>
      if cr || q.num = 0 then e
      else
        let b : FV := .fin false (boundOf u a z)
        let lo := f32Edge true (FV.add z (FV.neg b))
        let hi := f32Edge false (FV.add z b)
        f32OfKey (lo + (Config.functionPick code x y : Int) % (hi - lo + 1))
    | _, _ => e
  if fz then BitVec.ofNat 32 (fp32.flush r.toNat) else r

end Sys2Proof.Machine
end

