-- ==== Sys2Proof/Machine/AMap.lean ====
section
/-! DEFINITION. Sparse maps from numbers: a list of (key, value) pairs in one canonical form, keys strictly rising and
no entry equal to the value that an unlisted key reads as. Every bank of like things of the device is held so. -/

namespace Sys2Proof.Machine

/-- A sparse map: what an unlisted key reads as is given at each use. -/
abbrev AMap (α : Type) := List (Nat × α)

/-- The value at key `k`, `d` where the map lists none. -/
def AMap.get {α : Type} (d : α) (k : Nat) : AMap α → α
  | [] => d
  | (k', v) :: t => if k' = k then v else AMap.get d k t

/-- The map without key `k`. -/
def AMap.erase {α : Type} (k : Nat) : AMap α → AMap α
  | [] => []
  | (k', v) :: t => if k' = k then AMap.erase k t else (k', v) :: AMap.erase k t

/-- The map with `(k, v)` placed before the first greater key. -/
def AMap.insert {α : Type} (k : Nat) (v : α) : AMap α → AMap α
  | [] => [(k, v)]
  | (k', v') :: t => if k < k' then (k, v) :: (k', v') :: t else (k', v') :: AMap.insert k v t

/-- The map with key `k` at `v`; writing what an unlisted key reads as removes the entry. -/
def AMap.put {α : Type} [DecidableEq α] (d : α) (k : Nat) (v : α) (m : AMap α) : AMap α :=
  if v = d then AMap.erase k m else AMap.insert k v (AMap.erase k m)

/-- Every key of the map is above `b`. -/
def AMap.above {α : Type} (b : Nat) : AMap α → Bool
  | [] => true
  | (k, _) :: t => decide (b < k) && AMap.above b t

/-- The canonical form: keys strictly rising, no entry at the default. -/
def AMap.wf {α : Type} [DecidableEq α] (d : α) : AMap α → Bool
  | [] => true
  | (k, v) :: t => decide (v ≠ d) && AMap.above k t && AMap.wf d t

end Sys2Proof.Machine
end

