-- ==== Sys2Proof/Machine/Regs.lean ====
section
/-! DEFINITION. The registers of BAR0: every register of the manual, its block, offset, reset value and the access code of
its bits (R7, R482, R483, R492 and the register tables at the end of each chapter). -/

namespace Sys2Proof.Machine

/-- The blocks of BAR0 (R482, R483). -/
inductive Blk where
  | gct | tim | hif | err | och | sep | krm | umb | part | core | ind | wld | link | stack | dbg
  deriving DecidableEq, Repr

/-- The registers, by their names in the manual. -/
inductive Reg where
  /-- `WOA_CAP` (03_woad_forward_arrays.md). -/
  | woaCap
  /-- `WOA_FMT` (03_woad_forward_arrays.md). -/
  | woaFmt
  /-- `WOA_STATUS` (03_woad_forward_arrays.md). -/
  | woaStatus
  /-- `WOA_ERR` (03_woad_forward_arrays.md). -/
  | woaErr
  /-- `WOA_CNT` (03_woad_forward_arrays.md). -/
  | woaCnt
  /-- `WOA_ACC_IDX` (03_woad_forward_arrays.md). -/
  | woaAccIdx
  /-- `WOA_ACC_DATA` (03_woad_forward_arrays.md). -/
  | woaAccData
  /-- `MAD_CAP` (04_madder_gradient_engine.md). -/
  | madCap
  /-- `MAD_FMT` (04_madder_gradient_engine.md). -/
  | madFmt
  /-- `MAD_STATUS` (04_madder_gradient_engine.md). -/
  | madStatus
  /-- `MAD_ERR` (04_madder_gradient_engine.md). -/
  | madErr
  /-- `MAD_CNT` (04_madder_gradient_engine.md). -/
  | madCnt
  /-- `MAD_ACC_IDX` (04_madder_gradient_engine.md). -/
  | madAccIdx
  /-- `MAD_ACC_DATA` (04_madder_gradient_engine.md). -/
  | madAccData
  /-- `VAT_CAP` (04_madder_gradient_engine.md). -/
  | vatCap
  /-- `VAT_STATUS` (04_madder_gradient_engine.md). -/
  | vatStatus
  /-- `VAT_VW_OUT` (04_madder_gradient_engine.md). -/
  | vatVwOut
  /-- `VAT_ERR` (04_madder_gradient_engine.md). -/
  | vatErr
  /-- `VAT_CNT` (04_madder_gradient_engine.md). -/
  | vatCnt
  /-- `VAT_TAG_IDX` (04_madder_gradient_engine.md). -/
  | vatTagIdx
  /-- `VAT_TAG_LO` (04_madder_gradient_engine.md). -/
  | vatTagLo
  /-- `VAT_TAG_HI` (04_madder_gradient_engine.md). -/
  | vatTagHi
  /-- `MOR_CAP` (05_mordant_units.md). -/
  | morCap
  /-- `MOR_CTRL` (05_mordant_units.md). -/
  | morCtrl
  /-- `MOR_REC_BASE_LO` (05_mordant_units.md). -/
  | morRecBaseLo
  /-- `MOR_REC_BASE_HI` (05_mordant_units.md). -/
  | morRecBaseHi
  /-- `MOR_STATUS` (05_mordant_units.md). -/
  | morStatus
  /-- `MOR_ERR` (05_mordant_units.md). -/
  | morErr
  /-- `MOR_LAST_VERDICT` (05_mordant_units.md). -/
  | morLastVerdict
  /-- `MOR_CNT` (05_mordant_units.md). -/
  | morCnt
  /-- `KRM_CAP` (06_kermes_rounding.md). -/
  | krmCap
  /-- `KRM_STATUS` (06_kermes_rounding.md). -/
  | krmStatus
  /-- `KRM_ERR` (06_kermes_rounding.md). -/
  | krmErr
  /-- `KRM_VW_SEED_LO` (06_kermes_rounding.md). -/
  | krmVwSeedLo
  /-- `KRM_VW_SEED_HI` (06_kermes_rounding.md). -/
  | krmVwSeedHi
  /-- `KRM_TEST_SEED_LO` (06_kermes_rounding.md). -/
  | krmTestSeedLo
  /-- `KRM_TEST_SEED_HI` (06_kermes_rounding.md). -/
  | krmTestSeedHi
  /-- `KRM_CNT` (06_kermes_rounding.md). -/
  | krmCnt
  /-- `KRM_NTAB_IDX` (06_kermes_rounding.md). -/
  | krmNtabIdx
  /-- `KRM_NTAB_A` (06_kermes_rounding.md). -/
  | krmNtabA
  /-- `KRM_NTAB_B` (06_kermes_rounding.md). -/
  | krmNtabB
  /-- `KRM_CTX_SEED_LO` (06_kermes_rounding.md). -/
  | krmCtxSeedLo
  /-- `KRM_CTX_SEED_HI` (06_kermes_rounding.md). -/
  | krmCtxSeedHi
  /-- `KRM_CTX_CHK_LO` (06_kermes_rounding.md). -/
  | krmCtxChkLo
  /-- `KRM_CTX_CHK_HI` (06_kermes_rounding.md). -/
  | krmCtxChkHi
  /-- `IND_CAP` (09_indigo_attention.md). -/
  | indCap
  /-- `IND_CTRL` (09_indigo_attention.md). -/
  | indCtrl
  /-- `IND_STATUS` (09_indigo_attention.md). -/
  | indStatus
  /-- `IND_ERR` (09_indigo_attention.md). -/
  | indErr
  /-- `IND_PTA` (09_indigo_attention.md). -/
  | indPta
  /-- `IND_POOL` (09_indigo_attention.md). -/
  | indPool
  /-- `IND_T3` (09_indigo_attention.md). -/
  | indT3
  /-- `IND_POOL_CFG` (09_indigo_attention.md). -/
  | indPoolCfg
  /-- `IND_DEV_FRAMES` (09_indigo_attention.md). -/
  | indDevFrames
  /-- `IND_SPILL` (09_indigo_attention.md). -/
  | indSpill
  /-- `IND_EDIT_LO` (09_indigo_attention.md). -/
  | indEditLo
  /-- `IND_EDIT_HI` (09_indigo_attention.md). -/
  | indEditHi
  /-- `IND_CNT` (09_indigo_attention.md). -/
  | indCnt
  /-- `WLD_CAP` (10_programming_model.md). -/
  | wldCap
  /-- `WLD_CTRL` (10_programming_model.md). -/
  | wldCtrl
  /-- `WLD_STATUS` (10_programming_model.md). -/
  | wldStatus
  /-- `WLD_LOAD_LO` (10_programming_model.md). -/
  | wldLoadLo
  /-- `WLD_LOAD_HI` (10_programming_model.md). -/
  | wldLoadHi
  /-- `WLD_PROG_IDX` (10_programming_model.md). -/
  | wldProgIdx
  /-- `WLD_PROG_DATA` (10_programming_model.md). -/
  | wldProgData
  /-- `WLD_CNT` (10_programming_model.md). -/
  | wldCnt
  /-- `TIM_CAP` (12_device_time.md). -/
  | timCap
  /-- `TIM_CTRL` (12_device_time.md). -/
  | timCtrl
  /-- `TIM_STATUS` (12_device_time.md). -/
  | timStatus
  /-- `TIM_NOW_LO` (12_device_time.md). -/
  | timNowLo
  /-- `TIM_NOW_HI` (12_device_time.md). -/
  | timNowHi
  /-- `TIM_SET_LO` (12_device_time.md). -/
  | timSetLo
  /-- `TIM_SET_HI` (12_device_time.md). -/
  | timSetHi
  /-- `TIM_SYNC_CFG` (12_device_time.md). -/
  | timSyncCfg
  /-- `TIM_DOWN_LO` (12_device_time.md). -/
  | timDownLo
  /-- `TIM_DOWN_HI` (12_device_time.md). -/
  | timDownHi
  /-- `TIM_OFFSET` (12_device_time.md). -/
  | timOffset
  /-- `TIM_RATE` (12_device_time.md). -/
  | timRate
  /-- `TIM_PATH` (12_device_time.md). -/
  | timPath
  /-- `TIM_PPS_CAP_LO` (12_device_time.md). -/
  | timPpsCapLo
  /-- `TIM_PPS_CAP_HI` (12_device_time.md). -/
  | timPpsCapHi
  /-- `TIM_PPS_OFS` (12_device_time.md). -/
  | timPpsOfs
  /-- `TIM_WAKE_LEAD` (12_device_time.md). -/
  | timWakeLead
  /-- `TIM_LATE_TOL` (12_device_time.md). -/
  | timLateTol
  /-- `TIM_ERR` (12_device_time.md). -/
  | timErr
  /-- `TIM_EVQ_BASE_LO` (12_device_time.md). -/
  | timEvqBaseLo
  /-- `TIM_EVQ_BASE_HI` (12_device_time.md). -/
  | timEvqBaseHi
  /-- `TIM_EVQ_PTR` (12_device_time.md). -/
  | timEvqPtr
  /-- `TIM_CNT` (12_device_time.md). -/
  | timCnt
  /-- `TIM_PROMISE_LO` (12_device_time.md). -/
  | timPromiseLo
  /-- `TIM_PROMISE_HI` (12_device_time.md). -/
  | timPromiseHi
  /-- `TIM_LAUNCH_LO` (12_device_time.md). -/
  | timLaunchLo
  /-- `TIM_LAUNCH_HI` (12_device_time.md). -/
  | timLaunchHi
  /-- `MEM_CAP` (13_memory_hierarchy.md). -/
  | memCap
  /-- `MEM_STATUS` (13_memory_hierarchy.md). -/
  | memStatus
  /-- `MEM_CTRL` (13_memory_hierarchy.md). -/
  | memCtrl
  /-- `MEM_ERR` (13_memory_hierarchy.md). -/
  | memErr
  /-- `MEM_UE_ADDR_LO` (13_memory_hierarchy.md). -/
  | memUeAddrLo
  /-- `MEM_UE_ADDR_HI` (13_memory_hierarchy.md). -/
  | memUeAddrHi
  /-- `MEM_REPAIR` (13_memory_hierarchy.md). -/
  | memRepair
  /-- `MEM_RETIRED_LO` (13_memory_hierarchy.md). -/
  | memRetiredLo
  /-- `MEM_RETIRED_HI` (13_memory_hierarchy.md). -/
  | memRetiredHi
  /-- `MEM_CNT` (13_memory_hierarchy.md). -/
  | memCnt
  /-- `MEM_PART_CFG` (13_memory_hierarchy.md). -/
  | memPartCfg
  /-- `MEM_VWR_ERR` (13_memory_hierarchy.md). -/
  | memVwrErr
  /-- `MEM_VWR_BASE_LO` (13_memory_hierarchy.md). -/
  | memVwrBaseLo
  /-- `MEM_VWR_BASE_HI` (13_memory_hierarchy.md). -/
  | memVwrBaseHi
  /-- `MEM_VWR_OWNER` (13_memory_hierarchy.md). -/
  | memVwrOwner
  /-- `MEM_VWR_CTRL` (13_memory_hierarchy.md). -/
  | memVwrCtrl
  /-- `LNK_CAP` (14_ferdo_links.md). -/
  | lnkCap
  /-- `LNK_CTRL` (14_ferdo_links.md). -/
  | lnkCtrl
  /-- `LNK_STATUS` (14_ferdo_links.md). -/
  | lnkStatus
  /-- `LNK_ERR` (14_ferdo_links.md). -/
  | lnkErr
  /-- `LNK_CFG` (14_ferdo_links.md). -/
  | lnkCfg
  /-- `LNK_CRD_ALLOC` (14_ferdo_links.md). -/
  | lnkCrdAlloc
  /-- `LNK_ASYM` (14_ferdo_links.md). -/
  | lnkAsym
  /-- `LNK_RT_BASE_LO` (14_ferdo_links.md). -/
  | lnkRtBaseLo
  /-- `LNK_RT_BASE_HI` (14_ferdo_links.md). -/
  | lnkRtBaseHi
  /-- `LNK_COLL_BASE` (14_ferdo_links.md). -/
  | lnkCollBase
  /-- `LNK_CNT` (14_ferdo_links.md). -/
  | lnkCnt
  /-- `ERR_CAP` (15_silent_errors.md). -/
  | errCap
  /-- `ERR_CTRL` (15_silent_errors.md). -/
  | errCtrl
  /-- `ERR_STATUS` (15_silent_errors.md). -/
  | errStatus
  /-- `ERR_SRC` (15_silent_errors.md). -/
  | errSrc
  /-- `ERR_LOG_BASE_LO` (15_silent_errors.md). -/
  | errLogBaseLo
  /-- `ERR_LOG_BASE_HI` (15_silent_errors.md). -/
  | errLogBaseHi
  /-- `ERR_LOG_PTR` (15_silent_errors.md). -/
  | errLogPtr
  /-- `ERR_LAST_RESET` (15_silent_errors.md). -/
  | errLastReset
  /-- `ERR_CORE_IDX` (15_silent_errors.md). -/
  | errCoreIdx
  /-- `ERR_CORE_DATA` (15_silent_errors.md). -/
  | errCoreData
  /-- `ERR_CNT` (15_silent_errors.md). -/
  | errCnt
  /-- `ERR_CTX_CFG` (15_silent_errors.md). -/
  | errCtxCfg
  /-- `ERR_CTX_MIRROR` (15_silent_errors.md). -/
  | errCtxMirror
  /-- `ERR_CTX_ARB` (15_silent_errors.md). -/
  | errCtxArb
  /-- `ERR_CTX_PIN` (15_silent_errors.md). -/
  | errCtxPin
  /-- `ERR_CTX_STATUS` (15_silent_errors.md). -/
  | errCtxStatus
  /-- `OCH_CAP` (16_checkpoint_health.md). -/
  | ochCap
  /-- `OCH_CTRL` (16_checkpoint_health.md). -/
  | ochCtrl
  /-- `OCH_STATUS` (16_checkpoint_health.md). -/
  | ochStatus
  /-- `OCH_LIFE` (16_checkpoint_health.md). -/
  | ochLife
  /-- `OCH_REPLACE` (16_checkpoint_health.md). -/
  | ochReplace
  /-- `OCH_DERATE` (16_checkpoint_health.md). -/
  | ochDerate
  /-- `OCH_SENSOR_IDX` (16_checkpoint_health.md). -/
  | ochSensorIdx
  /-- `OCH_SENSOR_DATA` (16_checkpoint_health.md). -/
  | ochSensorData
  /-- `OCH_CNT` (16_checkpoint_health.md). -/
  | ochCnt
  /-- `SEP_CAP` (16_checkpoint_health.md). -/
  | sepCap
  /-- `SEP_CTRL` (16_checkpoint_health.md). -/
  | sepCtrl
  /-- `SEP_STATUS` (16_checkpoint_health.md). -/
  | sepStatus
  /-- `SEP_ERR` (16_checkpoint_health.md). -/
  | sepErr
  /-- `SEP_BW` (16_checkpoint_health.md). -/
  | sepBw
  /-- `SEP_CMD` (16_checkpoint_health.md). -/
  | sepCmd
  /-- `SEP_CNT` (16_checkpoint_health.md). -/
  | sepCnt
  /-- `SEP_DESC_LO` (16_checkpoint_health.md). -/
  | sepDescLo
  /-- `SEP_DESC_HI` (16_checkpoint_health.md). -/
  | sepDescHi
  /-- `SEP_CK_GROUP` (16_checkpoint_health.md). -/
  | sepCkGroup
  /-- `SEP_CK_DIGEST_LO` (16_checkpoint_health.md). -/
  | sepCkDigestLo
  /-- `SEP_CK_DIGEST_HI` (16_checkpoint_health.md). -/
  | sepCkDigestHi
  /-- `SEP_CK_STATUS` (16_checkpoint_health.md). -/
  | sepCkStatus
  /-- `SEP_LAST` (16_checkpoint_health.md). -/
  | sepLast
  /-- `HIF_CAP` (17_host_boot_management.md). -/
  | hifCap
  /-- `HIF_STATUS` (17_host_boot_management.md). -/
  | hifStatus
  /-- `HIF_CTRL` (17_host_boot_management.md). -/
  | hifCtrl
  /-- `HIF_ERR` (17_host_boot_management.md). -/
  | hifErr
  /-- `HIF_BAR2_BASE` (17_host_boot_management.md). -/
  | hifBar2Base
  /-- `HIF_HDM` (17_host_boot_management.md). -/
  | hifHdm
  /-- `HIF_DBG_NONCE` (17_host_boot_management.md). -/
  | hifDbgNonce
  /-- `HIF_DBG_CTRL` (17_host_boot_management.md). -/
  | hifDbgCtrl
  /-- `HIF_DBG_STATUS` (17_host_boot_management.md). -/
  | hifDbgStatus
  /-- `HIF_SQ_BASE_LO` (17_host_boot_management.md). -/
  | hifSqBaseLo
  /-- `HIF_SQ_BASE_HI` (17_host_boot_management.md). -/
  | hifSqBaseHi
  /-- `HIF_CQ_BASE_LO` (17_host_boot_management.md). -/
  | hifCqBaseLo
  /-- `HIF_CQ_BASE_HI` (17_host_boot_management.md). -/
  | hifCqBaseHi
  /-- `HIF_Q_CFG` (17_host_boot_management.md). -/
  | hifQCfg
  /-- `HIF_SQ_DB` (17_host_boot_management.md). -/
  | hifSqDb
  /-- `HIF_CQ_DB` (17_host_boot_management.md). -/
  | hifCqDb
  /-- `HIF_T3_LO` (17_host_boot_management.md). -/
  | hifT3Lo
  /-- `HIF_T3_HI` (17_host_boot_management.md). -/
  | hifT3Hi
  /-- `HIF_DBG_TOKEN` (17_host_boot_management.md). -/
  | hifDbgToken
  /-- `UMB_CAP` (18_reset_clocks_power.md). -/
  | umbCap
  /-- `UMB_CTRL` (18_reset_clocks_power.md). -/
  | umbCtrl
  /-- `UMB_STATUS` (18_reset_clocks_power.md). -/
  | umbStatus
  /-- `UMB_PART_PWR` (18_reset_clocks_power.md). -/
  | umbPartPwr
  /-- `UMB_CLK` (18_reset_clocks_power.md). -/
  | umbClk
  /-- `UMB_FLOOR` (18_reset_clocks_power.md). -/
  | umbFloor
  /-- `UMB_PWR_LIMIT` (18_reset_clocks_power.md). -/
  | umbPwrLimit
  /-- `UMB_THERM` (18_reset_clocks_power.md). -/
  | umbTherm
  /-- `UMB_RST_CAUSE` (18_reset_clocks_power.md). -/
  | umbRstCause
  /-- `UMB_CNT` (18_reset_clocks_power.md). -/
  | umbCnt
  /-- `GCT_ID` (20_register_map.md). -/
  | gctId
  /-- `GCT_VARIANT` (20_register_map.md). -/
  | gctVariant
  /-- `GCT_SERIAL_LO` (20_register_map.md). -/
  | gctSerialLo
  /-- `GCT_SERIAL_HI` (20_register_map.md). -/
  | gctSerialHi
  /-- `GCT_FW` (20_register_map.md). -/
  | gctFw
  /-- `GCT_DEV_ID` (20_register_map.md). -/
  | gctDevId
  /-- `GCT_CTRL` (20_register_map.md). -/
  | gctCtrl
  /-- `GCT_STATUS` (20_register_map.md). -/
  | gctStatus
  /-- `GCT_ERR` (20_register_map.md). -/
  | gctErr
  /-- `GCT_EVT_PEND` (20_register_map.md). -/
  | gctEvtPend
  /-- `GCT_EVT_MASK` (20_register_map.md). -/
  | gctEvtMask
  /-- `GCT_CTX_STATE` (20_register_map.md). -/
  | gctCtxState
  /-- `GCT_CTX_FAULT0` (20_register_map.md). -/
  | gctCtxFault0
  /-- `GCT_CTX_FAULT1` (20_register_map.md). -/
  | gctCtxFault1
  /-- `GCT_CTX_TIME_LO` (20_register_map.md). -/
  | gctCtxTimeLo
  /-- `GCT_CTX_TIME_HI` (20_register_map.md). -/
  | gctCtxTimeHi
  /-- `GCT_CTX_STEP` (20_register_map.md). -/
  | gctCtxStep
  /-- `GCT_PART_STATUS` (20_register_map.md). -/
  | gctPartStatus
  /-- `DBG_STATUS` (20_register_map.md). -/
  | dbgStatus
  deriving DecidableEq, Repr

/-- A register definition: block, offset, stride and count of its array, reset value, and the bits of each access code
of R7 (bits of none are RO). -/
structure RegInfo where
  reg : Reg
  blk : Blk
  off : Nat
  stride : Nat
  count : Nat
  reset : W32
  rw : W32
  rwl : W32
  rws : W32
  w1c : W32
  wo : W32
  deriving DecidableEq, Repr

/-- The definition of each register. -/
def Reg.info : Reg → RegInfo
  | .woaCap => ⟨.woaCap, .core, 0x0, 0x4, 1, 0x1082002, 0x0, 0x0, 0x0, 0x0, 0x0⟩
  | .woaFmt => ⟨.woaFmt, .core, 0x4, 0x4, 1, 0xD00F50, 0x0, 0x0, 0x0, 0x0, 0x0⟩
  | .woaStatus => ⟨.woaStatus, .core, 0x8, 0x4, 1, 0xC, 0x0, 0x0, 0x0, 0x0, 0x0⟩
  | .woaErr => ⟨.woaErr, .core, 0xC, 0x4, 1, 0x0, 0x0, 0x0, 0x0, 0x1F, 0x0⟩
  | .woaCnt => ⟨.woaCnt, .core, 0x10, 0x4, 6, 0x0, 0x0, 0x0, 0x0, 0x0, 0x0⟩
  | .woaAccIdx => ⟨.woaAccIdx, .core, 0x40, 0x4, 1, 0x0, 0x7FFF, 0x0, 0x0, 0x0, 0x0⟩
  | .woaAccData => ⟨.woaAccData, .core, 0x44, 0x4, 1, 0x0, 0x0, 0x0, 0x0, 0x0, 0x0⟩
  | .madCap => ⟨.madCap, .core, 0x100, 0x4, 1, 0x841004, 0x0, 0x0, 0x0, 0x0, 0x0⟩
  | .madFmt => ⟨.madFmt, .core, 0x104, 0x4, 1, 0x9000F, 0x0, 0x0, 0x0, 0x0, 0x0⟩
  | .madStatus => ⟨.madStatus, .core, 0x108, 0x4, 1, 0xF0, 0x0, 0x0, 0x0, 0x0, 0x0⟩
  | .madErr => ⟨.madErr, .core, 0x10C, 0x4, 1, 0x0, 0x0, 0x0, 0x0, 0x1FF, 0x0⟩
  | .madCnt => ⟨.madCnt, .core, 0x110, 0x4, 8, 0x0, 0x0, 0x0, 0x0, 0x0, 0x0⟩
  | .madAccIdx => ⟨.madAccIdx, .core, 0x140, 0x4, 1, 0x0, 0x7FFF, 0x0, 0x0, 0x0, 0x0⟩
  | .madAccData => ⟨.madAccData, .core, 0x144, 0x4, 1, 0x0, 0x0, 0x0, 0x0, 0x0, 0x0⟩
  | .vatCap => ⟨.vatCap, .core, 0x600, 0x4, 1, 0x400200, 0x0, 0x0, 0x0, 0x0, 0x0⟩
  | .vatStatus => ⟨.vatStatus, .core, 0x604, 0x4, 1, 0x0, 0x0, 0x0, 0x0, 0x0, 0x0⟩
  | .vatVwOut => ⟨.vatVwOut, .core, 0x608, 0x4, 1, 0x0, 0x0, 0x0, 0x0, 0x0, 0x0⟩
  | .vatErr => ⟨.vatErr, .core, 0x60C, 0x4, 1, 0x0, 0x0, 0x0, 0x0, 0xF, 0x0⟩
  | .vatCnt => ⟨.vatCnt, .core, 0x610, 0x4, 4, 0x0, 0x0, 0x0, 0x0, 0x0, 0x0⟩
  | .vatTagIdx => ⟨.vatTagIdx, .core, 0x640, 0x4, 1, 0x0, 0x1FF, 0x0, 0x0, 0x0, 0x0⟩
  | .vatTagLo => ⟨.vatTagLo, .core, 0x644, 0x4, 1, 0x0, 0x0, 0x0, 0x0, 0x0, 0x0⟩
  | .vatTagHi => ⟨.vatTagHi, .core, 0x648, 0x4, 1, 0x0, 0x0, 0x0, 0x0, 0x0, 0x0⟩
  | .morCap => ⟨.morCap, .core, 0x200, 0x4, 1, 0x2010F420, 0x0, 0x0, 0x0, 0x0, 0x0⟩
  | .morCtrl => ⟨.morCtrl, .core, 0x204, 0x4, 1, 0x0, 0x0, 0x1, 0x0, 0x0, 0x0⟩
  | .morRecBaseLo => ⟨.morRecBaseLo, .core, 0x208, 0x4, 1, 0x0, 0x0, 0xFFFFFFC0, 0x0, 0x0, 0x0⟩
  | .morRecBaseHi => ⟨.morRecBaseHi, .core, 0x20C, 0x4, 1, 0x0, 0x0, 0xFFFF, 0x0, 0x0, 0x0⟩
  | .morStatus => ⟨.morStatus, .core, 0x210, 0x4, 1, 0x2, 0x0, 0x0, 0x0, 0x0, 0x0⟩
  | .morErr => ⟨.morErr, .core, 0x214, 0x4, 1, 0x0, 0x0, 0x0, 0x0, 0xF, 0x0⟩
  | .morLastVerdict => ⟨.morLastVerdict, .core, 0x218, 0x4, 1, 0x0, 0x0, 0x0, 0x0, 0x0, 0x0⟩
  | .morCnt => ⟨.morCnt, .core, 0x220, 0x4, 8, 0x0, 0x0, 0x0, 0x0, 0x0, 0x0⟩
  | .krmCap => ⟨.krmCap, .krm, 0x0, 0x4, 1, 0xA80400A, 0x0, 0x0, 0x0, 0x0, 0x0⟩
  | .krmStatus => ⟨.krmStatus, .krm, 0x10, 0x4, 1, 0x0, 0x0, 0x0, 0x0, 0x0, 0x0⟩
  | .krmErr => ⟨.krmErr, .krm, 0x14, 0x4, 1, 0x0, 0x0, 0x0, 0x0, 0x3F, 0x0⟩
  | .krmVwSeedLo => ⟨.krmVwSeedLo, .krm, 0x20, 0x4, 1, 0x0, 0x0, 0xFFFFFFFF, 0x0, 0x0, 0x0⟩
  | .krmVwSeedHi => ⟨.krmVwSeedHi, .krm, 0x24, 0x4, 1, 0x0, 0x0, 0xFFFFFFFF, 0x0, 0x0, 0x0⟩
  | .krmTestSeedLo => ⟨.krmTestSeedLo, .krm, 0x28, 0x4, 1, 0x0, 0x0, 0xFFFFFFFF, 0x0, 0x0, 0x0⟩
  | .krmTestSeedHi => ⟨.krmTestSeedHi, .krm, 0x2C, 0x4, 1, 0x0, 0x0, 0xFFFFFFFF, 0x0, 0x0, 0x0⟩
  | .krmCnt => ⟨.krmCnt, .krm, 0x30, 0x4, 4, 0x0, 0x0, 0x0, 0x0, 0x0, 0x0⟩
  | .krmNtabIdx => ⟨.krmNtabIdx, .krm, 0x40, 0x4, 1, 0x0, 0x3FF, 0x0, 0x0, 0x0, 0x0⟩
  | .krmNtabA => ⟨.krmNtabA, .krm, 0x44, 0x4, 1, 0x0, 0x0, 0x0, 0x0, 0x0, 0x0⟩
  | .krmNtabB => ⟨.krmNtabB, .krm, 0x48, 0x4, 1, 0x0, 0x0, 0x0, 0x0, 0x0, 0x0⟩
  | .krmCtxSeedLo => ⟨.krmCtxSeedLo, .krm, 0x100, 0x10, 4, 0x0, 0xFFFFFFFF, 0x0, 0x0, 0x0, 0x0⟩
  | .krmCtxSeedHi => ⟨.krmCtxSeedHi, .krm, 0x104, 0x10, 4, 0x0, 0xFFFFFFFF, 0x0, 0x0, 0x0, 0x0⟩
  | .krmCtxChkLo => ⟨.krmCtxChkLo, .krm, 0x108, 0x10, 4, 0x0, 0xFFFFFFFF, 0x0, 0x0, 0x0, 0x0⟩
  | .krmCtxChkHi => ⟨.krmCtxChkHi, .krm, 0x10C, 0x10, 4, 0x0, 0xFFFFFFFF, 0x0, 0x0, 0x0, 0x0⟩
  | .indCap => ⟨.indCap, .ind, 0x0, 0x4, 1, 0x8404020, 0x0, 0x0, 0x0, 0x0, 0x0⟩
  | .indCtrl => ⟨.indCtrl, .ind, 0x4, 0x4, 1, 0x0, 0x0, 0x3, 0x0, 0x0, 0x0⟩
  | .indStatus => ⟨.indStatus, .ind, 0x8, 0x4, 1, 0x2, 0x0, 0x0, 0x0, 0x0, 0x0⟩
  | .indErr => ⟨.indErr, .ind, 0xC, 0x4, 1, 0x0, 0x0, 0x0, 0x0, 0xF, 0x0⟩
  | .indPta => ⟨.indPta, .ind, 0x10, 0x4, 1, 0x0, 0x0, 0xFFFFFFFF, 0x0, 0x0, 0x0⟩
  | .indPool => ⟨.indPool, .ind, 0x14, 0x4, 1, 0x0, 0x0, 0xFFFFFFF, 0x0, 0x0, 0x0⟩
  | .indT3 => ⟨.indT3, .ind, 0x18, 0x4, 1, 0x0, 0x0, 0xFFFFFFF, 0x0, 0x0, 0x0⟩
  | .indPoolCfg => ⟨.indPoolCfg, .ind, 0x1C, 0x4, 1, 0x0, 0x0, 0xFFFF03FF, 0x0, 0x0, 0x0⟩
  | .indDevFrames => ⟨.indDevFrames, .ind, 0x20, 0x4, 1, 0x0, 0x0, 0xFFFF, 0x0, 0x0, 0x0⟩
  | .indSpill => ⟨.indSpill, .ind, 0x24, 0x4, 1, 0x80040, 0x3FFFFF, 0x0, 0x0, 0x0, 0x0⟩
  | .indEditLo => ⟨.indEditLo, .ind, 0x28, 0x4, 1, 0x0, 0xFFFFFFC0, 0x0, 0x0, 0x0, 0x0⟩
  | .indEditHi => ⟨.indEditHi, .ind, 0x2C, 0x4, 1, 0x0, 0xFFFF, 0x0, 0x0, 0x0, 0x0⟩
  | .indCnt => ⟨.indCnt, .ind, 0x80, 0x4, 8, 0x0, 0x0, 0x0, 0x0, 0x0, 0x0⟩
  | .wldCap => ⟨.wldCap, .wld, 0x0, 0x4, 1, 0x100410, 0x0, 0x0, 0x0, 0x0, 0x0⟩
  | .wldCtrl => ⟨.wldCtrl, .wld, 0x4, 0x4, 1, 0x0, 0x0, 0x5, 0x0, 0x0, 0xA⟩
  | .wldStatus => ⟨.wldStatus, .wld, 0x8, 0x4, 1, 0x0, 0x0, 0x0, 0x0, 0x8, 0x0⟩
  | .wldLoadLo => ⟨.wldLoadLo, .wld, 0x10, 0x4, 1, 0x0, 0x0, 0xFFFFFFC0, 0x0, 0x0, 0x0⟩
  | .wldLoadHi => ⟨.wldLoadHi, .wld, 0x14, 0x4, 1, 0x0, 0x0, 0xFFFF, 0x0, 0x0, 0x0⟩
  | .wldProgIdx => ⟨.wldProgIdx, .wld, 0x18, 0x4, 1, 0x0, 0x0, 0xFFF, 0x0, 0x0, 0x0⟩
  | .wldProgData => ⟨.wldProgData, .wld, 0x1C, 0x4, 1, 0x0, 0x0, 0xFFFFFFFF, 0x0, 0x0, 0x0⟩
  | .wldCnt => ⟨.wldCnt, .wld, 0x20, 0x4, 3, 0x0, 0x0, 0x0, 0x0, 0x0, 0x0⟩
  | .timCap => ⟨.timCap, .tim, 0x0, 0x4, 1, 0x320C0802, 0x0, 0x0, 0x0, 0x0, 0x0⟩
  | .timCtrl => ⟨.timCtrl, .tim, 0x4, 0x4, 1, 0x0, 0x8, 0x7, 0x0, 0x0, 0x0⟩
  | .timStatus => ⟨.timStatus, .tim, 0x8, 0x4, 1, 0x0, 0x0, 0x0, 0x0, 0x0, 0x0⟩
  | .timNowLo => ⟨.timNowLo, .tim, 0x10, 0x4, 1, 0x0, 0x0, 0x0, 0x0, 0x0, 0x0⟩
  | .timNowHi => ⟨.timNowHi, .tim, 0x14, 0x4, 1, 0x0, 0x0, 0x0, 0x0, 0x0, 0x0⟩
  | .timSetLo => ⟨.timSetLo, .tim, 0x18, 0x4, 1, 0x0, 0x0, 0xFFFFFFFF, 0x0, 0x0, 0x0⟩
  | .timSetHi => ⟨.timSetHi, .tim, 0x1C, 0x4, 1, 0x0, 0x0, 0xFFFFFFFF, 0x0, 0x0, 0x0⟩
  | .timSyncCfg => ⟨.timSyncCfg, .tim, 0x20, 0x4, 1, 0x3F, 0x0, 0x3F, 0x0, 0x0, 0x0⟩
  | .timDownLo => ⟨.timDownLo, .tim, 0x24, 0x4, 1, 0x0, 0x0, 0xFFFFFFFF, 0x0, 0x0, 0x0⟩
  | .timDownHi => ⟨.timDownHi, .tim, 0x28, 0x4, 1, 0x0, 0x0, 0xFFFF, 0x0, 0x0, 0x0⟩
  | .timOffset => ⟨.timOffset, .tim, 0x2C, 0x4, 1, 0x0, 0x0, 0x0, 0x0, 0x0, 0x0⟩
  | .timRate => ⟨.timRate, .tim, 0x30, 0x4, 1, 0x0, 0x0, 0x0, 0x0, 0x0, 0x0⟩
  | .timPath => ⟨.timPath, .tim, 0x34, 0x4, 1, 0x0, 0x0, 0x0, 0x0, 0x0, 0x0⟩
  | .timPpsCapLo => ⟨.timPpsCapLo, .tim, 0x38, 0x4, 1, 0x0, 0x0, 0x0, 0x0, 0x0, 0x0⟩
  | .timPpsCapHi => ⟨.timPpsCapHi, .tim, 0x3C, 0x4, 1, 0x0, 0x0, 0x0, 0x0, 0x0, 0x0⟩
  | .timPpsOfs => ⟨.timPpsOfs, .tim, 0x40, 0x4, 1, 0x0, 0x0, 0x3FFFFFFF, 0x0, 0x0, 0x0⟩
  | .timWakeLead => ⟨.timWakeLead, .tim, 0x44, 0x4, 1, 0x5DC, 0x0, 0xFFFF, 0x0, 0x0, 0x0⟩
  | .timLateTol => ⟨.timLateTol, .tim, 0x48, 0x4, 1, 0x3E8, 0xFFFFFFFF, 0x0, 0x0, 0x0, 0x0⟩
  | .timErr => ⟨.timErr, .tim, 0x4C, 0x4, 1, 0x0, 0x0, 0x0, 0x0, 0x1F, 0x0⟩
  | .timEvqBaseLo => ⟨.timEvqBaseLo, .tim, 0x50, 0x4, 1, 0x0, 0x0, 0xFFFFFFC0, 0x0, 0x0, 0x0⟩
  | .timEvqBaseHi => ⟨.timEvqBaseHi, .tim, 0x54, 0x4, 1, 0x0, 0x0, 0xFFFFF, 0x0, 0x0, 0x0⟩
  | .timEvqPtr => ⟨.timEvqPtr, .tim, 0x58, 0x4, 1, 0x0, 0xFFF, 0x0, 0x0, 0x0, 0x0⟩
  | .timCnt => ⟨.timCnt, .tim, 0x80, 0x4, 6, 0x0, 0x0, 0x0, 0x0, 0x0, 0x0⟩
  | .timPromiseLo => ⟨.timPromiseLo, .tim, 0x100, 0x10, 4, 0x0, 0x0, 0x0, 0x0, 0x0, 0x0⟩
  | .timPromiseHi => ⟨.timPromiseHi, .tim, 0x104, 0x10, 4, 0x0, 0x0, 0x0, 0x0, 0x0, 0x0⟩
  | .timLaunchLo => ⟨.timLaunchLo, .tim, 0x108, 0x10, 4, 0x0, 0x0, 0x0, 0x0, 0x0, 0x0⟩
  | .timLaunchHi => ⟨.timLaunchHi, .tim, 0x10C, 0x10, 4, 0x0, 0x0, 0x0, 0x0, 0x0, 0x0⟩
  | .memCap => ⟨.memCap, .stack, 0x0, 0x4, 1, 0x10404040, 0x0, 0x0, 0x0, 0x0, 0x0⟩
  | .memStatus => ⟨.memStatus, .stack, 0x4, 0x4, 1, 0x0, 0x0, 0x0, 0x0, 0x0, 0x0⟩
  | .memCtrl => ⟨.memCtrl, .stack, 0x8, 0x4, 1, 0x41803, 0x0, 0xFFFF03, 0x0, 0x0, 0x0⟩
  | .memErr => ⟨.memErr, .stack, 0xC, 0x4, 1, 0x0, 0x0, 0x0, 0x0, 0xFF, 0x0⟩
  | .memUeAddrLo => ⟨.memUeAddrLo, .stack, 0x10, 0x4, 1, 0x0, 0x0, 0x0, 0x0, 0x0, 0x0⟩
  | .memUeAddrHi => ⟨.memUeAddrHi, .stack, 0x14, 0x4, 1, 0x0, 0x0, 0x0, 0x0, 0x0, 0x0⟩
  | .memRepair => ⟨.memRepair, .stack, 0x18, 0x4, 1, 0x0, 0x0, 0x0, 0x0, 0x0, 0x0⟩
  | .memRetiredLo => ⟨.memRetiredLo, .stack, 0x20, 0x4, 1, 0x0, 0x0, 0x0, 0x0, 0x0, 0x0⟩
  | .memRetiredHi => ⟨.memRetiredHi, .stack, 0x24, 0x4, 1, 0x0, 0x0, 0x0, 0x0, 0x0, 0x0⟩
  | .memCnt => ⟨.memCnt, .stack, 0x40, 0x4, 8, 0x0, 0x0, 0x0, 0x0, 0x0, 0x0⟩
  | .memPartCfg => ⟨.memPartCfg, .part, 0x2000, 0x4, 1, 0x1, 0x0, 0x1, 0x0, 0x0, 0x0⟩
  | .memVwrErr => ⟨.memVwrErr, .part, 0x2004, 0x4, 1, 0x0, 0x0, 0x0, 0x0, 0x1F, 0x0⟩
  | .memVwrBaseLo => ⟨.memVwrBaseLo, .part, 0x2100, 0x10, 16, 0x0, 0x0, 0x0, 0xFFFF0000, 0x0, 0x0⟩
  | .memVwrBaseHi => ⟨.memVwrBaseHi, .part, 0x2104, 0x10, 16, 0x0, 0x0, 0x0, 0x3FFFFF, 0x0, 0x0⟩
  | .memVwrOwner => ⟨.memVwrOwner, .part, 0x2108, 0x10, 16, 0x0, 0x0, 0x0, 0x1FFFFFF, 0x0, 0x0⟩
  | .memVwrCtrl => ⟨.memVwrCtrl, .part, 0x210C, 0x10, 16, 0x0, 0x1, 0x0, 0x2, 0x0, 0x0⟩
  | .lnkCap => ⟨.lnkCap, .link, 0x0, 0x4, 1, 0x44001004, 0x0, 0x0, 0x0, 0x0, 0x0⟩
  | .lnkCtrl => ⟨.lnkCtrl, .link, 0x4, 0x4, 1, 0x8, 0x0, 0xB, 0x0, 0x0, 0x4⟩
  | .lnkStatus => ⟨.lnkStatus, .link, 0x8, 0x4, 1, 0x0, 0x0, 0x0, 0x0, 0x0, 0x0⟩
  | .lnkErr => ⟨.lnkErr, .link, 0xC, 0x4, 1, 0x0, 0x0, 0x0, 0x0, 0xFF, 0x0⟩
  | .lnkCfg => ⟨.lnkCfg, .link, 0x10, 0x4, 1, 0x3E81410, 0x0, 0xFFFFFFFF, 0x0, 0x0, 0x0⟩
  | .lnkCrdAlloc => ⟨.lnkCrdAlloc, .link, 0x14, 0x4, 1, 0x1F97842, 0x0, 0xFFFFFFF, 0x0, 0x0, 0x0⟩
  | .lnkAsym => ⟨.lnkAsym, .link, 0x18, 0x4, 1, 0x0, 0x0, 0x0, 0x0, 0x0, 0x0⟩
  | .lnkRtBaseLo => ⟨.lnkRtBaseLo, .link, 0x20, 0x4, 1, 0x0, 0x0, 0xFFFF0000, 0x0, 0x0, 0x0⟩
  | .lnkRtBaseHi => ⟨.lnkRtBaseHi, .link, 0x24, 0x4, 1, 0x0, 0x0, 0xFFFF, 0x0, 0x0, 0x0⟩
  | .lnkCollBase => ⟨.lnkCollBase, .link, 0x28, 0x4, 1, 0x0, 0x0, 0xFFFFF00, 0x0, 0x0, 0x0⟩
  | .lnkCnt => ⟨.lnkCnt, .link, 0x40, 0x4, 8, 0x0, 0x0, 0x0, 0x0, 0x0, 0x0⟩
  | .errCap => ⟨.errCap, .err, 0x0, 0x4, 1, 0x202003, 0x0, 0x0, 0x0, 0x0, 0x0⟩
  | .errCtrl => ⟨.errCtrl, .err, 0x4, 0x4, 1, 0x3, 0x0, 0x3, 0x0, 0x0, 0x0⟩
  | .errStatus => ⟨.errStatus, .err, 0x8, 0x4, 1, 0x0, 0x0, 0x0, 0x0, 0x0, 0x0⟩
  | .errSrc => ⟨.errSrc, .err, 0xC, 0x4, 1, 0x0, 0x0, 0x0, 0x0, 0x7FFFF, 0x0⟩
  | .errLogBaseLo => ⟨.errLogBaseLo, .err, 0x10, 0x4, 1, 0x0, 0x0, 0x0, 0xFFFFFFC0, 0x0, 0x0⟩
  | .errLogBaseHi => ⟨.errLogBaseHi, .err, 0x14, 0x4, 1, 0x0, 0x0, 0x0, 0xFFFFF, 0x0, 0x0⟩
  | .errLogPtr => ⟨.errLogPtr, .err, 0x18, 0x4, 1, 0x0, 0x0, 0x0, 0x3FFF, 0x0, 0x0⟩
  | .errLastReset => ⟨.errLastReset, .err, 0x1C, 0x4, 1, 0x0, 0x0, 0x0, 0x7FF, 0x0, 0x0⟩
  | .errCoreIdx => ⟨.errCoreIdx, .err, 0x20, 0x4, 1, 0x0, 0x1FF, 0x0, 0x0, 0x0, 0x0⟩
  | .errCoreData => ⟨.errCoreData, .err, 0x24, 0x4, 1, 0x0, 0x0, 0x0, 0x0, 0x0, 0x0⟩
  | .errCnt => ⟨.errCnt, .err, 0x40, 0x4, 8, 0x0, 0x0, 0x0, 0x0, 0x0, 0x0⟩
  | .errCtxCfg => ⟨.errCtxCfg, .err, 0x100, 0x20, 4, 0x0, 0x0, 0xFFF0000, 0x0, 0x0, 0x0⟩
  | .errCtxMirror => ⟨.errCtxMirror, .err, 0x104, 0x20, 4, 0x0, 0x0, 0xFFFFFFFF, 0x0, 0x0, 0x0⟩
  | .errCtxArb => ⟨.errCtxArb, .err, 0x108, 0x20, 4, 0x0, 0x0, 0xFFFFF00, 0x0, 0x0, 0x0⟩
  | .errCtxPin => ⟨.errCtxPin, .err, 0x10C, 0x20, 4, 0x0, 0x0, 0xFFFFF00, 0x0, 0x0, 0x0⟩
  | .errCtxStatus => ⟨.errCtxStatus, .err, 0x110, 0x20, 4, 0x0, 0x0, 0x0, 0x0, 0x0, 0x0⟩
  | .ochCap => ⟨.ochCap, .och, 0x0, 0x4, 1, 0x107, 0x0, 0x0, 0x0, 0x0, 0x0⟩
  | .ochCtrl => ⟨.ochCtrl, .och, 0x4, 0x4, 1, 0x1E10A0, 0x0, 0xFFFFFFFF, 0x0, 0x0, 0x0⟩
  | .ochStatus => ⟨.ochStatus, .och, 0x8, 0x4, 1, 0x0, 0x0, 0x0, 0x0, 0x0, 0x0⟩
  | .ochLife => ⟨.ochLife, .och, 0xC, 0x4, 1, 0xFFFFFFFF, 0x0, 0x0, 0x0, 0x0, 0x0⟩
  | .ochReplace => ⟨.ochReplace, .och, 0x10, 0x4, 1, 0x0, 0x0, 0x0, 0x0, 0x0, 0x0⟩
  | .ochDerate => ⟨.ochDerate, .och, 0x14, 0x4, 1, 0xE000, 0x0, 0xFF01, 0x0, 0x0, 0x0⟩
  | .ochSensorIdx => ⟨.ochSensorIdx, .och, 0x20, 0x4, 1, 0x0, 0x1FFF, 0x0, 0x0, 0x0, 0x0⟩
  | .ochSensorData => ⟨.ochSensorData, .och, 0x24, 0x4, 1, 0x0, 0x0, 0x0, 0x0, 0x0, 0x0⟩
  | .ochCnt => ⟨.ochCnt, .och, 0x40, 0x4, 4, 0x0, 0x0, 0x0, 0x0, 0x0, 0x0⟩
  | .sepCap => ⟨.sepCap, .sep, 0x0, 0x4, 1, 0x4000440, 0x0, 0x0, 0x0, 0x0, 0x0⟩
  | .sepCtrl => ⟨.sepCtrl, .sep, 0x4, 0x4, 1, 0x503, 0x0, 0x1F03, 0x0, 0x0, 0x0⟩
  | .sepStatus => ⟨.sepStatus, .sep, 0x8, 0x4, 1, 0x0, 0x0, 0x0, 0x0, 0x0, 0x0⟩
  | .sepErr => ⟨.sepErr, .sep, 0xC, 0x4, 1, 0x0, 0x0, 0x0, 0x0, 0x1F, 0x0⟩
  | .sepBw => ⟨.sepBw, .sep, 0x10, 0x4, 1, 0x4064078, 0x0, 0xFFFFFFFF, 0x0, 0x0, 0x0⟩
  | .sepCmd => ⟨.sepCmd, .sep, 0x14, 0x4, 1, 0x0, 0x0, 0x0, 0x0, 0x0, 0xFFFF⟩
  | .sepCnt => ⟨.sepCnt, .sep, 0x40, 0x4, 8, 0x0, 0x0, 0x0, 0x0, 0x0, 0x0⟩
  | .sepDescLo => ⟨.sepDescLo, .sep, 0x100, 0x20, 4, 0x0, 0x0, 0xFFFFFFC0, 0x0, 0x0, 0x0⟩
  | .sepDescHi => ⟨.sepDescHi, .sep, 0x104, 0x20, 4, 0x0, 0x0, 0x1FFFF, 0x0, 0x0, 0x0⟩
  | .sepCkGroup => ⟨.sepCkGroup, .sep, 0x108, 0x20, 4, 0x0, 0x0, 0xFFFFF1F, 0x0, 0x0, 0x0⟩
  | .sepCkDigestLo => ⟨.sepCkDigestLo, .sep, 0x10C, 0x20, 4, 0x0, 0x0, 0x0, 0x0, 0x0, 0x0⟩
  | .sepCkDigestHi => ⟨.sepCkDigestHi, .sep, 0x110, 0x20, 4, 0x0, 0x0, 0x0, 0x0, 0x0, 0x0⟩
  | .sepCkStatus => ⟨.sepCkStatus, .sep, 0x114, 0x20, 4, 0x0, 0x0, 0x0, 0x0, 0x0, 0x0⟩
  | .sepLast => ⟨.sepLast, .sep, 0x118, 0x20, 4, 0x0, 0x0, 0x0, 0x3FFFF, 0x0, 0x0⟩
  | .hifCap => ⟨.hifCap, .hif, 0x0, 0x4, 1, 0xC401010, 0x0, 0x0, 0x0, 0x0, 0x0⟩
  | .hifStatus => ⟨.hifStatus, .hif, 0x4, 0x4, 1, 0x0, 0x0, 0x0, 0x0, 0x0, 0x0⟩
  | .hifCtrl => ⟨.hifCtrl, .hif, 0x8, 0x4, 1, 0x32, 0x0, 0xFF, 0x0, 0x0, 0x0⟩
  | .hifErr => ⟨.hifErr, .hif, 0xC, 0x4, 1, 0x0, 0x0, 0x0, 0x0, 0x1F, 0x0⟩
  | .hifBar2Base => ⟨.hifBar2Base, .hif, 0x10, 0x4, 1, 0x0, 0x0, 0x3FFFF, 0x0, 0x0, 0x0⟩
  | .hifHdm => ⟨.hifHdm, .hif, 0x14, 0x4, 1, 0x0, 0x0, 0x800FFFFF, 0x0, 0x0, 0x0⟩
  | .hifDbgNonce => ⟨.hifDbgNonce, .hif, 0x20, 0x4, 4, 0x0, 0x0, 0x0, 0x0, 0x0, 0x0⟩
  | .hifDbgCtrl => ⟨.hifDbgCtrl, .hif, 0x30, 0x4, 1, 0x0, 0x0, 0x0, 0x0, 0x0, 0x3⟩
  | .hifDbgStatus => ⟨.hifDbgStatus, .hif, 0x34, 0x4, 1, 0x0, 0x0, 0x0, 0x0, 0x0, 0x0⟩
  | .hifSqBaseLo => ⟨.hifSqBaseLo, .hif, 0x100, 0x20, 16, 0x0, 0xFFFFF000, 0x0, 0x0, 0x0, 0x0⟩
  | .hifSqBaseHi => ⟨.hifSqBaseHi, .hif, 0x104, 0x20, 16, 0x0, 0xFFFFFFFF, 0x0, 0x0, 0x0, 0x0⟩
  | .hifCqBaseLo => ⟨.hifCqBaseLo, .hif, 0x108, 0x20, 16, 0x0, 0xFFFFF000, 0x0, 0x0, 0x0, 0x0⟩
  | .hifCqBaseHi => ⟨.hifCqBaseHi, .hif, 0x10C, 0x20, 16, 0x0, 0xFFFFFFFF, 0x0, 0x0, 0x0, 0x0⟩
  | .hifQCfg => ⟨.hifQCfg, .hif, 0x110, 0x20, 16, 0x0, 0x3FF, 0x0, 0x0, 0x0, 0x0⟩
  | .hifSqDb => ⟨.hifSqDb, .hif, 0x114, 0x20, 16, 0x0, 0xFFF, 0x0, 0x0, 0x0, 0x0⟩
  | .hifCqDb => ⟨.hifCqDb, .hif, 0x118, 0x20, 16, 0x0, 0xFFF, 0x0, 0x0, 0x0, 0x0⟩
  | .hifT3Lo => ⟨.hifT3Lo, .hif, 0x400, 0x10, 16, 0x0, 0xFFFFF0FF, 0x0, 0x0, 0x0, 0x0⟩
  | .hifT3Hi => ⟨.hifT3Hi, .hif, 0x404, 0x10, 16, 0x0, 0xFFFFFFFF, 0x0, 0x0, 0x0, 0x0⟩
  | .hifDbgToken => ⟨.hifDbgToken, .hif, 0x800, 0x4, 64, 0x0, 0x0, 0x0, 0x0, 0x0, 0xFFFFFFFF⟩
  | .umbCap => ⟨.umbCap, .umb, 0x0, 0x4, 1, 0xBB88640, 0x0, 0x0, 0x0, 0x0, 0x0⟩
  | .umbCtrl => ⟨.umbCtrl, .umb, 0x4, 0x4, 1, 0x0, 0x0, 0x0, 0x0, 0x0, 0xF3⟩
  | .umbStatus => ⟨.umbStatus, .umb, 0x8, 0x4, 1, 0x55, 0x0, 0x0, 0x0, 0x800, 0x0⟩
  | .umbPartPwr => ⟨.umbPartPwr, .umb, 0xC, 0x4, 1, 0x55, 0xFF, 0x0, 0x0, 0x0, 0x0⟩
  | .umbClk => ⟨.umbClk, .umb, 0x10, 0x4, 1, 0x10101010, 0x0, 0x0, 0x0, 0x0, 0x0⟩
  | .umbFloor => ⟨.umbFloor, .umb, 0x14, 0x4, 1, 0x10101010, 0x0, 0x0, 0x0, 0x0, 0x0⟩
  | .umbPwrLimit => ⟨.umbPwrLimit, .umb, 0x18, 0x4, 1, 0x3C0BB8, 0x0, 0xFFFFFF, 0x0, 0x0, 0x0⟩
  | .umbTherm => ⟨.umbTherm, .umb, 0x1C, 0x4, 1, 0x6E645F, 0x0, 0xFF, 0x0, 0x0, 0x0⟩
  | .umbRstCause => ⟨.umbRstCause, .umb, 0x20, 0x4, 1, 0x1, 0x0, 0x0, 0xFF0F, 0x0, 0x0⟩
  | .umbCnt => ⟨.umbCnt, .umb, 0x40, 0x4, 6, 0x0, 0x0, 0x0, 0x0, 0x0, 0x0⟩
  | .gctId => ⟨.gctId, .gct, 0x0, 0x4, 1, 0xB0044C53, 0x0, 0x0, 0x0, 0x0, 0x0⟩
  | .gctVariant => ⟨.gctVariant, .gct, 0x4, 0x4, 1, 0x64040460, 0x0, 0x0, 0x0, 0x0, 0x0⟩
  | .gctSerialLo => ⟨.gctSerialLo, .gct, 0x8, 0x4, 1, 0x0, 0x0, 0x0, 0x0, 0x0, 0x0⟩
  | .gctSerialHi => ⟨.gctSerialHi, .gct, 0xC, 0x4, 1, 0x0, 0x0, 0x0, 0x0, 0x0, 0x0⟩
  | .gctFw => ⟨.gctFw, .gct, 0x10, 0x4, 1, 0x0, 0x0, 0x0, 0x0, 0x0, 0x0⟩
  | .gctDevId => ⟨.gctDevId, .gct, 0x14, 0x4, 1, 0x0, 0x0, 0xFFF, 0x0, 0x0, 0x0⟩
  | .gctCtrl => ⟨.gctCtrl, .gct, 0x20, 0x4, 1, 0xF01, 0x0, 0xF01, 0x0, 0x0, 0x0⟩
  | .gctStatus => ⟨.gctStatus, .gct, 0x24, 0x4, 1, 0x0, 0x0, 0x0, 0x0, 0x0, 0x0⟩
  | .gctErr => ⟨.gctErr, .gct, 0x28, 0x4, 1, 0x0, 0x0, 0x0, 0x0, 0x3, 0x0⟩
  | .gctEvtPend => ⟨.gctEvtPend, .gct, 0x30, 0x4, 1, 0x0, 0x0, 0x0, 0x0, 0x3FF, 0x0⟩
  | .gctEvtMask => ⟨.gctEvtMask, .gct, 0x34, 0x4, 1, 0x0, 0x3FF, 0x0, 0x0, 0x0, 0x0⟩
  | .gctCtxState => ⟨.gctCtxState, .gct, 0x100, 0x40, 4, 0x0, 0x0, 0x0, 0x0, 0x0, 0x0⟩
  | .gctCtxFault0 => ⟨.gctCtxFault0, .gct, 0x104, 0x40, 4, 0x0, 0x0, 0x0, 0x0, 0x0, 0x0⟩
  | .gctCtxFault1 => ⟨.gctCtxFault1, .gct, 0x108, 0x40, 4, 0x0, 0x0, 0x0, 0x0, 0x0, 0x0⟩
  | .gctCtxTimeLo => ⟨.gctCtxTimeLo, .gct, 0x10C, 0x40, 4, 0x0, 0x0, 0x0, 0x0, 0x0, 0x0⟩
  | .gctCtxTimeHi => ⟨.gctCtxTimeHi, .gct, 0x110, 0x40, 4, 0x0, 0x0, 0x0, 0x0, 0x0, 0x0⟩
  | .gctCtxStep => ⟨.gctCtxStep, .gct, 0x114, 0x40, 4, 0x0, 0x0, 0x0, 0x0, 0x0, 0x0⟩
  | .gctPartStatus => ⟨.gctPartStatus, .part, 0x0, 0x4, 1, 0x0, 0x0, 0x0, 0x0, 0x0, 0x0⟩
  | .dbgStatus => ⟨.dbgStatus, .dbg, 0x0, 0x4, 1, 0x0, 0x0, 0x0, 0x0, 0x0, 0x0⟩

/-- The registers of a block. -/
def Blk.regs : Blk → List Reg
  | .core =>
    [.woaCap, .woaFmt, .woaStatus, .woaErr, .woaCnt, .woaAccIdx, .woaAccData, .madCap] ++
    [.madFmt, .madStatus, .madErr, .madCnt, .madAccIdx, .madAccData, .vatCap, .vatStatus] ++
    [.vatVwOut, .vatErr, .vatCnt, .vatTagIdx, .vatTagLo, .vatTagHi, .morCap, .morCtrl] ++
    [.morRecBaseLo, .morRecBaseHi, .morStatus, .morErr, .morLastVerdict, .morCnt]
  | .krm =>
    [.krmCap, .krmStatus, .krmErr, .krmVwSeedLo, .krmVwSeedHi, .krmTestSeedLo, .krmTestSeedHi, .krmCnt] ++
    [.krmNtabIdx, .krmNtabA, .krmNtabB, .krmCtxSeedLo, .krmCtxSeedHi, .krmCtxChkLo, .krmCtxChkHi]
  | .ind =>
    [.indCap, .indCtrl, .indStatus, .indErr, .indPta, .indPool, .indT3, .indPoolCfg] ++
    [.indDevFrames, .indSpill, .indEditLo, .indEditHi, .indCnt]
  | .wld =>
    [.wldCap, .wldCtrl, .wldStatus, .wldLoadLo, .wldLoadHi, .wldProgIdx, .wldProgData, .wldCnt]
  | .tim =>
    [.timCap, .timCtrl, .timStatus, .timNowLo, .timNowHi, .timSetLo, .timSetHi, .timSyncCfg] ++
    [.timDownLo, .timDownHi, .timOffset, .timRate, .timPath, .timPpsCapLo, .timPpsCapHi, .timPpsOfs] ++
    [.timWakeLead, .timLateTol, .timErr, .timEvqBaseLo, .timEvqBaseHi, .timEvqPtr, .timCnt, .timPromiseLo] ++
    [.timPromiseHi, .timLaunchLo, .timLaunchHi]
  | .stack =>
    [.memCap, .memStatus, .memCtrl, .memErr, .memUeAddrLo, .memUeAddrHi, .memRepair, .memRetiredLo] ++
    [.memRetiredHi, .memCnt]
  | .part =>
    [.memPartCfg, .memVwrErr, .memVwrBaseLo, .memVwrBaseHi, .memVwrOwner, .memVwrCtrl, .gctPartStatus]
  | .link =>
    [.lnkCap, .lnkCtrl, .lnkStatus, .lnkErr, .lnkCfg, .lnkCrdAlloc, .lnkAsym, .lnkRtBaseLo] ++
    [.lnkRtBaseHi, .lnkCollBase, .lnkCnt]
  | .err =>
    [.errCap, .errCtrl, .errStatus, .errSrc, .errLogBaseLo, .errLogBaseHi, .errLogPtr, .errLastReset] ++
    [.errCoreIdx, .errCoreData, .errCnt, .errCtxCfg, .errCtxMirror, .errCtxArb, .errCtxPin, .errCtxStatus]
  | .och =>
    [.ochCap, .ochCtrl, .ochStatus, .ochLife, .ochReplace, .ochDerate, .ochSensorIdx, .ochSensorData] ++
    [.ochCnt]
  | .sep =>
    [.sepCap, .sepCtrl, .sepStatus, .sepErr, .sepBw, .sepCmd, .sepCnt, .sepDescLo] ++
    [.sepDescHi, .sepCkGroup, .sepCkDigestLo, .sepCkDigestHi, .sepCkStatus, .sepLast]
  | .hif =>
    [.hifCap, .hifStatus, .hifCtrl, .hifErr, .hifBar2Base, .hifHdm, .hifDbgNonce, .hifDbgCtrl] ++
    [.hifDbgStatus, .hifSqBaseLo, .hifSqBaseHi, .hifCqBaseLo, .hifCqBaseHi, .hifQCfg, .hifSqDb, .hifCqDb] ++
    [.hifT3Lo, .hifT3Hi, .hifDbgToken]
  | .umb =>
    [.umbCap, .umbCtrl, .umbStatus, .umbPartPwr, .umbClk, .umbFloor, .umbPwrLimit, .umbTherm] ++
    [.umbRstCause, .umbCnt]
  | .gct =>
    [.gctId, .gctVariant, .gctSerialLo, .gctSerialHi, .gctFw, .gctDevId, .gctCtrl, .gctStatus] ++
    [.gctErr, .gctEvtPend, .gctEvtMask, .gctCtxState, .gctCtxFault0, .gctCtxFault1, .gctCtxTimeLo, .gctCtxTimeHi] ++
    [.gctCtxStep]
  | .dbg =>
    [.dbgStatus]

/-- The BAR0 offset of partition window `p` (R482). -/
def partWindow (p : Nat) : Nat := 0x100000 + p * 0x100000

/-- The BAR0 offset of a core's register window; cores count 100 to a partition (R483). -/
def coreWindow (c : Nat) : Nat := partWindow (c / 100) + 0x10000 + c % 100 * 0x1000

/-- The BAR0 offset of an Indigo engine's window; engines count 12 to a partition (R483). -/
def indWindow (e : Nat) : Nat := partWindow (e / 12) + 0x80000 + e % 12 * 0x1000

/-- The BAR0 offset of a WLD set (R272, R483): sequencers 0 to 399 Mordant units, 400 to 447 links, 448 to 495 Indigo
engines, 496 to 499 Sepia agents, 500 to 503 Ochre agents. -/
def wldWindow (w : Nat) : Nat :=
  if w < 400 then coreWindow w + 0x800
  else if w < 448 then 0x500000 + (w - 400) * 0x1000 + 0x800
  else if w < 496 then indWindow (w - 448) + 0x800
  else if w < 500 then partWindow (w - 496) + 0x800
  else partWindow (w - 500) + 0x900

/-- The BAR0 offset of unit `u` of a block (R482, R483). -/
def Blk.base (b : Blk) (u : Nat) : Nat :=
  match b with
  | .gct => 0
  | .tim => 0x10000
  | .hif => 0x20000
  | .err => 0x40000
  | .och => 0x50000
  | .sep => 0x60000
  | .krm => 0x70000
  | .umb => 0x80000
  | .part => partWindow u
  | .core => coreWindow u
  | .ind => indWindow u
  | .wld => wldWindow u
  | .link => 0x500000 + u * 0x1000
  | .stack => 0x600000 + u * 0x2000
  | .dbg => 0x700000

/-- The BAR0 offset of element `n` of a register of unit `u`. -/
def Reg.addr (r : Reg) (u n : Nat) : Nat := r.info.blk.base u + r.info.off + n * r.info.stride

/-- The block, unit and offset within it of a BAR0 offset (R482, R483). -/
def Blk.ofOffset (o : Nat) : Option (Blk × Nat × Nat) :=
  if o < 0x10000 then some (.gct, 0, o)
  else if o < 0x20000 then some (.tim, 0, o - 0x10000)
  else if o < 0x40000 then some (.hif, 0, o - 0x20000)
  else if o < 0x50000 then some (.err, 0, o - 0x40000)
  else if o < 0x60000 then some (.och, 0, o - 0x50000)
  else if o < 0x70000 then some (.sep, 0, o - 0x60000)
  else if o < 0x80000 then some (.krm, 0, o - 0x70000)
  else if o < 0x100000 then some (.umb, 0, o - 0x80000)
  else if o < 0x500000 then
    let p := o / 0x100000 - 1
    let l := o % 0x100000
    if l < 0x10000 then
      if 0x800 ≤ l ∧ l < 0x900 then some (.wld, 496 + p, l - 0x800)
      else if 0x900 ≤ l ∧ l < 0xA00 then some (.wld, 500 + p, l - 0x900)
      else some (.part, p, l)
    else if l < 0x10000 + 100 * 0x1000 then
      let c := 100 * p + (l / 0x1000 - 16)
      if 0x800 ≤ l % 0x1000 then some (.wld, c, l % 0x1000 - 0x800) else some (.core, c, l % 0x1000)
    else if 0x80000 ≤ l ∧ l < 0x80000 + 12 * 0x1000 then
      let e := 12 * p + (l / 0x1000 - 0x80)
      if 0x800 ≤ l % 0x1000 then some (.wld, 448 + e, l % 0x1000 - 0x800) else some (.ind, e, l % 0x1000)
    else none
  else if o < 0x500000 + 48 * 0x1000 then
    let n := (o - 0x500000) / 0x1000
    if 0x800 ≤ o % 0x1000 ∧ o % 0x1000 < 0x900 then some (.wld, 400 + n, o % 0x1000 - 0x800) else some (.link, n, o % 0x1000)
  else if 0x600000 ≤ o ∧ o < 0x600000 + 20 * 0x2000 then some (.stack, (o - 0x600000) / 0x2000, o % 0x2000)
  else if 0x700000 ≤ o ∧ o < 0x800000 then some (.dbg, 0, o - 0x700000)
  else none

/-- Element `n` of a register when the local offset `l` names one. -/
def RegInfo.index (i : RegInfo) (l : Nat) : Option Nat :=
  if i.off ≤ l ∧ (l - i.off) % i.stride = 0 ∧ (l - i.off) / i.stride < i.count then some ((l - i.off) / i.stride) else none

/-- The first register of a list that a local offset names, with its element. -/
def Reg.find (l : Nat) : List Reg → Option (Reg × Nat)
  | [] => none
  | r :: t => match r.info.index l with
    | some n => some (r, n)
    | none => Reg.find l t

/-- The register, unit and element of a BAR0 offset; `none` where the offset is reserved. -/
def Reg.ofOffset (o : Nat) : Option (Reg × Nat × Nat) :=
  match Blk.ofOffset o with
  | none => none
  | some (b, u, l) => match Reg.find l b.regs with
    | none => none
    | some (r, n) => some (r, u, n)

/-- The lock registers of R482: GCT, TIM, HIF, ERR, OCH, SEP, KRM, UMB, the four partitions, LNK and MEM. -/
inductive Lock where
  | gct | tim | hif | err | och | sep | krm | umb | part (p : Fin 4) | lnk | mem
  deriving DecidableEq, Repr

/-- The number of a lock in the state. -/
def Lock.key : Lock → Nat
  | .gct => 0
  | .tim => 1
  | .hif => 2
  | .err => 3
  | .och => 4
  | .sep => 5
  | .krm => 6
  | .umb => 7
  | .part p => 8 + p.val
  | .lnk => 12
  | .mem => 13

/-- The lock register at a BAR0 offset (R482). -/
def Lock.ofOffset (o : Nat) : Option Lock :=
  if o = 0xFFC then some .gct else if o = 0x10FFC then some .tim else if o = 0x20FFC then some .hif
  else if o = 0x40FFC then some .err else if o = 0x50FFC then some .och else if o = 0x60FFC then some .sep
  else if o = 0x70FFC then some .krm else if o = 0x80FFC then some .umb else if o = 0x100FFC then some (.part 0)
  else if o = 0x200FFC then some (.part 1) else if o = 0x300FFC then some (.part 2) else if o = 0x400FFC then some (.part 3)
  else if o = 0x500FFC then some .lnk else if o = 0x600FFC then some .mem else none

/-- The lock that covers the RWL fields of a block's unit (R482, R483). -/
def Blk.lock (b : Blk) (u : Nat) : Option Nat :=
  match b with
  | .gct => some 0
  | .tim => some 1
  | .hif => some 2
  | .err => some 3
  | .och => some 4
  | .sep => some 5
  | .krm => some 6
  | .umb => some 7
  | .part => some (8 + u)
  | .core => some (8 + u / 100)
  | .ind => some (8 + u / 12)
  | .wld => some (if u < 400 then 8 + u / 100 else if u < 448 then 12 else if u < 496 then 8 + (u - 448) / 12
      else if u < 500 then 8 + (u - 496) else 8 + (u - 500))
  | .link => some 12
  | .stack => some 13
  | .dbg => none

end Sys2Proof.Machine
end

