-- ==== Sys2Proof/Machine/State.lean ====
section
/-! DEFINITION. The state of the block: plain data, every piece of state the manual names, each field at its reset value.
Where the manual gives no reset value the value is named in the log entries of INVENTORY.md. -/

namespace Sys2Proof.Machine

/-! ## Memory -/

/-- An addressed store: its bytes, 0 where nothing has written (log entry 8: DESIGN CHOICE), and the poison bit of each 64-byte unit
(R330, R381). -/
structure Mem where
  bytes : AMap Byte := []
  poison : AMap Bool := []
  /-- symbols in error of the codeword of a unit: symbol number and what is added to it (R335, R336; device memory only) -/
  errs : AMap (List (Nat × Byte)) := []
  deriving DecidableEq, Repr

/-- A write as it is performed: pieces of consecutive bytes with the poison of each (R337, R382). `dev`: the device
physical space, else the core-local space. -/
structure Piece where
  addr : Nat
  data : List Byte
  po : Bool := false
  deriving DecidableEq, Repr

/-! ## The core -/

/-- A lane of a vector register: its word and its poison (R381). -/
abbrev Lane := W32 × Bool

/-- The lanes of a register that nothing has written: zero (log entry 6: DESIGN CHOICE). -/
def lanes0 : List Lane := List.replicate 64 (0, false)

/-- A register write of a slot (R244, R246), with its poison. -/
inductive RegW where
  | s (r : Nat) (v : W64) (po : Bool)
  | p (r : Nat) (v : W64) (po : Bool)
  | v (r : Nat) (l : List Lane)
  | t (r : Nat) (d : BitVec 256) (po : Bool)
  | level (v : W64)
  deriving DecidableEq, Repr

/-- A register snapshot (R254). -/
structure Snap where
  s : AMap (W64 × Bool) := []
  p : AMap (W64 × Bool) := []
  v : AMap (List Lane) := []
  t : AMap (BitVec 256 × Bool) := []
  level : W64 := 0
  deriving DecidableEq, Repr

/-- A Vat tag (R97). Its UNDO bit is whether the current epoch holds a record of the tile. -/
structure VatTag where
  addr : Nat := 0
  chain : Nat := 0
  valid : Bool := false
  dirty : Bool := false
  rnd : Nat := 0
  deriving DecidableEq, Repr

/-- A Vat undo record (R102): the tile's bytes with the poison of its units, and its tag. -/
structure VatUndo where
  tile : Nat
  data : List (Byte)
  po : List Bool
  tag : VatTag
  deriving DecidableEq, Repr

/-- The source of a Vat-write within its partition (R105, R107). -/
inductive VwSrc where
  | core (lcore : Nat)
  | collector
  deriving DecidableEq, Repr

/-- A Vat-write (R105). -/
structure VatW where
  addr : Nat
  vals : List W32
  po : Bool := false
  sr : Bool := false
  step : W32 := 0
  slot : Nat := 0
  deriving DecidableEq, Repr

/-- A partial on its way to the reduction collector (R117). -/
structure Partial where
  desc : Nat
  unit : Nat
  data : List W32
  po : Bool := false
  slot : Nat := 0
  deriving DecidableEq, Repr

/-- An instruction held until its epoch commits, with the operands it read at issue (R257, R299). -/
inductive Held where
  | write (dev : Bool) (ps : List Piece)
  | vatWrite (w : List VatW)
  /-- an MVW of a Vat tile -/
  | mvw (tile : Nat)
  | collector (x : Partial)
  | edit (eng : Nat) (addr : Nat)
  /-- runs copied out of tier 3: source, destination, bytes -/
  | copyT3 (runs : List (Nat × Nat × Nat))
  | lsend (ch dst : Nat) (data : List Byte) (po : List Bool)
  | lrecv (ch src : Nat) (dev : Bool) (runs : List (Nat × Nat))
  | lcoll (ch ev tag : Nat) (addr elems : Nat)
  deriving DecidableEq, Repr

/-- A held instruction with the word, slot and opcode that a status of it reports (R301). -/
structure HeldIns where
  h : Held
  word : BitVec 12
  slot : Nat
  op : Nat
  /-- tag of its epoch, from the commit on -/
  tag : Nat := 0
  deriving DecidableEq, Repr

/-- The counts of a tensor (R136). -/
structure Delta where
  sat : Nat := 0
  nan : Nat := 0
  ovf : Nat := 0
  ufl : Nat := 0
  elems : Nat := 0
  checked : Nat := 0
  failed : Nat := 0
  errMax : W32 := 0
  amax : W32 := 0
  deriving DecidableEq, Repr

/-- The outcome of a verdict (R148). -/
inductive Verdict where
  | pass | accept | rerun (l : Nat) | exhausted
  deriving DecidableEq, Repr

/-- The record of a status (R301, R490). -/
structure StatusRec where
  status : Nat
  part : Nat := 0
  pcore : Nat := 0
  lcore : Nat := 0
  word : BitVec 12 := 0
  slot : Nat := 0
  op : Nat := 0
  epoch : Nat := 0
  inEpoch : Bool := false
  atIssue : Bool := false
  time : W64 := 0
  valid : Bool := false
  /-- the higher code of two that coincided, 0 for none (R253, GCT_CTX_FAULT1) -/
  other : Nat := 0
  deriving DecidableEq, Repr

/-- An open epoch of a core (R254 to R258). -/
structure Epoch where
  tag : Nat
  run : Run
  restart : BitVec 12
  snap : Snap := {}
  /-- device time of its CCOMMIT -/
  ccommit : Option W64 := none
  verdict : Option Verdict := none
  held : List HeldIns := []
  undo : List VatUndo := []
  finSent : Bool := false
  deriving DecidableEq, Repr

/-- An open bank set of an array (R74, R95). -/
structure BankSet where
  arr : Nat
  shape : Nat
  fp16 : Bool
  bank : Nat
  /-- tag of the epoch that opened it -/
  epoch : Option Nat := none
  /-- K positions accumulated since START (R112) -/
  chain : Nat := 0
  /-- logical row and column of the tile's first element (R140) -/
  row0 : Nat := 0
  col0 : Nat := 0
  /-- the logical tile index under which WCK entered its digest (R395) -/
  shadow : Option Nat := none
  deriving DecidableEq, Repr

/-- A weight binding (R76). -/
structure Binding where
  primed : Bool := false
  td : BitVec 256 := 0
  k0 : Nat := 0
  klen : Nat := 0
  /-- what the column latches hold since the WLD: for each of the 32 array columns its first two weight lakes, bytes and poison (R55, R72) -/
  latch : List (List (List Byte × Bool)) := []
  deriving DecidableEq, Repr

/-- An entry of the counter file: a tensor record and its deltas in one epoch, `none` outside any (R136, R137). -/
structure CfEntry where
  trec : Nat
  tag : Option Nat
  run : Run
  d : Delta := {}
  /-- the verdict of the run that names it has been taken (R137) -/
  judged : Bool := false
  deriving DecidableEq, Repr

/-- A filled sample buffer (R141). -/
structure SampleBuf where
  buf : Nat
  tag : Option Nat
  elems : List (W32 × Bool)
  deriving DecidableEq, Repr

/-- An entry of the digest log (R395). -/
structure DigestEntry where
  run : Run
  tile : Nat
  digest : W64
  po : Bool := false
  core : Nat := 0
  deriving DecidableEq, Repr

/-- The deltas of one participant of a layer run, on their way to the verdict core or held by it (R146). -/
structure FinMsg where
  run : Run
  ctxcore : Nat
  w : Delta := {}
  x : Delta := {}
  y : Delta := {}
  lrec : Nat := 0
  deriving DecidableEq, Repr

/-- A transfer in flight (R296, R298). -/
structure Xfer where
  kind : Nat
  tok : Option Nat := none
  /-- pieces that a DPF writes when it completes -/
  ps : List Piece := []
  dev : Bool := false
  /-- outstanding tier-3 requests of the transfer -/
  t3 : List Nat := []
  /-- tag of the epoch that issued it -/
  tag : Option Nat := none
  deriving DecidableEq, Repr

/-- A walk that a core has issued (R215 to R218): its tag, serving engine and the ready flags with the valid rows of its
buffer slots. -/
structure CoreWalk where
  wtag : Nat
  eng : Nat
  tag : Option Nat
  /-- word address of the instruction that issued it -/
  word : BitVec 12 := 0
  ready : AMap (Bool × Nat) := []
  deriving DecidableEq, Repr

/-- What a sequencer waits for. -/
inductive Wait where
  | none
  /-- LAT: the device time at which the next wide instruction issues (R312) -/
  | lat (t : W64)
  /-- CCOMMIT.STEP: the step commit (R260) -/
  | step
  /-- both (R260, R312) -/
  | stepLat (t : W64)
  /-- a stall: the instruction is presented again (R244) -/
  | stall
  /-- a write waits for the capture of a piece of a checkpoint: the addresses of its pieces (R415) -/
  | write (l : List Nat)
  /-- LWAIT with the device time at which its timeout expires, 0 for none, its channel or handle and its event (R298) -/
  | lwait (t : W64) (ch ev : Nat)
  /-- LFENCE with the device time at which its timeout expires, 0 for none (R298) -/
  | lfence (t : W64)
  /-- the issue limit of R255 -/
  | limit
  deriving DecidableEq, Repr

/-- A core. -/
structure Core where
  imem : AMap (BitVec 1024) := []
  pc : BitVec 12 := 0
  s : AMap (W64 × Bool) := []
  p : AMap (W64 × Bool) := []
  v : AMap (List Lane) := []
  t : AMap (BitVec 256 × Bool) := []
  level : W64 := 0
  /-- slots of the wide instruction that have been presented while others follow (R244, log entry 41: DESIGN CHOICE) -/
  word : List Instr := []
  wait : Wait := .none
  halted : Bool := false
  epochs : List Epoch := []
  cur : Option Nat := none
  nextTag : Nat := 0
  woaAcc : AMap (W32 × Nat) := []
  woaSets : List BankSet := []
  bindings : AMap Binding := []
  madAcc : AMap (W32 × Nat) := []
  madSets : List BankSet := []
  loc : Mem := {}
  vat : AMap VatTag := []
  vwq : List VatW := []
  vwAck : Nat := 0
  parts : List Partial := []
  cf : List CfEntry := []
  samples : List SampleBuf := []
  digests : List DigestEntry := []
  /-- where the shadow-selected tiles of open epochs have been written: run, tile, runs of the operand store (R400) -/
  selTiles : List (Run × Nat × List (Nat × Nat)) := []
  fins : List FinMsg := []
  stats : AMap ((W32 × W32 × W32) × Bool) := []
  xfers : List Xfer := []
  lsendOut : Nat := 0
  /-- instructions released by commits and not yet performed, in program order (R299) -/
  rel : List HeldIns := []
  walks : List CoreWalk := []
  /-- arrays with an instruction in flight, 0 and 1 the Woad arrays, 2 to 5 the Madder arrays; 8 and 9 a WLD on a Woad array (R80, R122;
  log entry 130: DESIGN CHOICE) -/
  flight : List Nat := []
  /-- parity errors that the next product of an array meets: of a Woad array, whether in a weight column, and its row or column; of a feeder
  of a Madder array (R78, R81, R96, R380) -/
  badLatch : List (Nat × Bool × Nat) := []
  badFeed : List Nat := []
  /-- words of instruction memory with an uncorrectable error (R380) -/
  badWords : List Nat := []
  /-- tests: passes, SUSPECT times, owed passes, time of the last passed test (R389 to R392) -/
  suspect : Nat := 0
  owed : Nat := 0
  pass : Nat := 0
  lastTest : W64 := 0
  /-- an Ochre test of the core is requested (R329) -/
  testReq : Bool := false
  /-- units that are not in SLEEP: 0 the vector engine, 1 and 2 the Woad arrays, 3 to 6 the Madder arrays, 7 the Mordant unit (R454) -/
  awake : AMap Bool := []
  deriving DecidableEq, Repr

/-- A core state (R388). -/
inductive CoreState where
  | inService | spare | testing | suspect | failed | fused
  deriving DecidableEq, Repr

/-! ## Contexts, certificates, programs -/

/-- A context state (R251). -/
inductive CtxState where
  | free | bound | running | draining | halted
  deriving DecidableEq, Repr

/-- A resource record (R317). -/
structure CertRec where
  cls : Nat
  part : Nat
  index : Nat
  amount : Nat
  start : Nat
  stop : Nat
  deriving DecidableEq, Repr

/-- A launch-table entry (R319). -/
structure LaunchEnt where
  unit : Nat
  part : Nat
  index : Nat
  start : Nat
  stop : Nat
  deriving DecidableEq, Repr

/-- A fallback-table entry (R319). -/
structure FallEnt where
  layer : Nat
  runs : Nat
  d1 : Nat
  d2 : Nat
  rep : Nat
  deriving DecidableEq, Repr

/-- A timing certificate (R316). -/
structure Cert where
  refmode : Bool := false
  fixedLane : Bool := false
  pod : Bool := false
  keep : Nat := 1
  ctxcores : Nat := 0
  vl : Nat := 64
  parts : Nat := 1
  d : Nat := 0
  digest : List Byte := []
  recs : List CertRec := []
  launches : List LaunchEnt := []
  falls : List FallEnt := []
  deriving DecidableEq, Repr

/-- A program admitted or running (R320 to R328). `ext` lists the extensions reported, with their times. -/
structure Prog where
  cert : Cert
  tL : Nat
  p : Nat
  p0 : Nat
  chained : Bool := false
  certAddr : Nat := 0
  overrun : Bool := false
  /-- the last THROTTLE: its instant, the promise without it, its ratio in sixteenths (R326) -/
  thr : Option (Nat × Nat × Nat) := none
  ext : List (Nat × Nat) := []
  deriving DecidableEq, Repr

/-- A submission under check (R320). -/
structure Submission where
  q : Nat
  cid : BitVec 16
  addr : Nat
  tL : Nat
  /-- its completion entry is posted: a replay's submission posts none (R405) -/
  post : Bool := true
  deriving DecidableEq, Repr

/-- The per-core part of a save image (R264). -/
structure CoreImg where
  s : AMap (W64 × Bool) := []
  p : AMap (W64 × Bool) := []
  v : AMap (List Lane) := []
  t : AMap (BitVec 256 × Bool) := []
  level : W64 := 0
  pc : BitVec 12 := 0
  imem : AMap (BitVec 1024) := []
  loc : Mem := {}
  vat : AMap VatTag := []
  cf : List CfEntry := []
  nextTag : Nat := 0
  halted : Bool := false
  weld : AMap W32 := []
  deriving DecidableEq, Repr

/-- A save image (R264). -/
structure Image where
  version : Nat
  instr : Bool
  vl : Nat := 64
  ctxcores : Nat
  nparts : Nat
  stepno : W32
  refmode : Bool
  debug : Bool
  /-- SHA-256 of the program, and whether its certificate has the fixed-lane flag -/
  program : List Byte
  fixedLane : Bool
  /-- the lengths of the parts that follow the header -/
  lens : List Nat := []
  cores : List CoreImg
  /-- the persistent units of each partition store: unit, bytes, poison -/
  stores : List (List (Nat × List Byte × Bool))
  linkWelds : List (AMap W32)
  indWelds : List (AMap W32)
  deriving DecidableEq, Repr

/-- A save request (R263). -/
structure SaveReq where
  instr : Bool
  stop : Bool
  buf : Nat
  q : Nat
  cid : BitVec 16
  deriving DecidableEq, Repr

/-- A restore in progress (R419, R420): its command, the source device of a peer restore, and for a checkpoint the source with the regions'
pieces still to come (address, bytes, digest). -/
structure Restore where
  q : Nat
  cid : BitVec 16
  peer : Option Nat := none
  src : Nat := 0
  todo : List (Nat × Nat × List Byte) := []
  /-- pieces read so far -/
  count : Nat := 0
  stepno : W32 := 0
  bad : Bool := false
  deriving DecidableEq, Repr

/-- A channel of a context slot (R369, R370): the posted buffer with its core, source and runs of bytes, the length accepted, the
bytes written, the next MSEQ in each direction, and the PUT_REQs that wait for an LRECV (source device, length, MSEQ). -/
structure Chan where
  posted : Bool := false
  full : Bool := false
  core : Nat := 0
  src : Nat := 0
  dev : Bool := false
  runs : List (Nat × Nat) := []
  len : Nat := 0
  got : Nat := 0
  mseq : W32 := 0
  sendSeq : W32 := 0
  reqs : List (Nat × Nat × W32) := []
  deriving DecidableEq, Repr

/-- A tile being sent on a channel: destination, local bytes with unit poison (R369). -/
structure Sending where
  core : Nat
  slot : Nat
  ch : Nat
  dst : Nat
  data : List Byte
  po : List Bool
  /-- PUT_GO has come and the data are sent -/
  gone : Bool := false
  deriving DecidableEq, Repr

/-- A collective of a handle (R371, R372, R379). -/
structure CollState where
  live : Bool := false
  done : Bool := false
  abandoned : Bool := false
  /-- partition of the core that started it -/
  part : Nat := 0
  ev : Nat := 0
  tag : Nat := 0
  addr : Nat := 0
  elems : Nat := 0
  /-- engines whose invocation has not ended, and the links that its rings name -/
  engines : List Nat := []
  links : List Nat := []
  /-- waits for the commit comparison of the previous step (R412), for the twin's digests (R398) -/
  gated : Bool := false
  twinWait : Bool := false
  deriving DecidableEq, Repr

/-- A verdict taken, as arbitration remembers it (R400, R401). -/
structure Arb where
  state : Nat := 0
  run : Run := { layer := 0, mb := 0 }
  x : Nat := 0
  y : Nat := 0
  z : Nat := 0
  tiles : List Nat := []
  first : List (Nat × W64 × W64) := []
  deriving DecidableEq, Repr

/-- A context slot. -/
structure Ctx where
  st : CtxState := .free
  status : Nat := 0
  parts : BitVec 4 := 0
  refmode : Bool := false
  debug : Bool := false
  redundancy : Byte := 0
  stepno : W32 := 0
  fault : StatusRec := { status := 0 }
  image : Option (List Byte × Nat) := none
  checking : Option Submission := none
  admitted : Option Prog := none
  running : Option Prog := none
  save : Option SaveReq := none
  restore : Option Restore := none
  tally : Nat := 0
  fins : List FinMsg := []
  digs : List DigestEntry := []
  /-- layer records and tensor records named since BIND (log entry 34: DEDUCED); a T-slot instruction of the step has issued (R138) -/
  layers : List Nat := []
  trecs : List Nat := []
  tActive : Bool := false
  redyed : List Nat := []
  /-- a layer run of the step has begun, after which no re-dye verdict is taken (R150) -/
  forward : Bool := false
  arb : Arb := {}
  chans : AMap Chan := []
  sending : List Sending := []
  colls : AMap CollState := []
  /-- commit comparison: own digest, digests received, start time, result (R411) -/
  ownDigest : Option (W32 × W64) := none
  digests : List (Nat × W32 × W64) := []
  cmpStart : W64 := 0
  agreed : Bool := true
  cmpDone : Bool := true
  /-- members that have reported, once the digests differ and the shard lists are exchanged (R411) -/
  cmpVote : Option (List Nat) := none
  /-- the step commit is complete and a save takes place before issue resumes (R262, R263, R413) -/
  boundary : Bool := false
  shardLists : List (Nat × List W64) := []
  /-- checkpoint descriptor and region table read at BIND (R408) -/
  regions : List (Nat × Nat × Bool) := []
  ckptOk : Bool := false
  /-- running value and count of each shard of the checksum set (R409, R410) -/
  shards : AMap (W64 × Nat) := []
  replayed : Bool := false
  /-- certificate of the program that ran when the context ended, which a replay submits again (R405) -/
  replayCert : Option Nat := none
  arbs : Nat := 0
  twin : List W64 := []
  saveTimer : W64 := 0
  savePending : Bool := false
  /-- the peer that a requested save goes to (R420) -/
  savePeer : Option Nat := none
  /-- a restore has started and none has ended OK since (R419) -/
  restoreBad : Bool := false
  /-- save requests taken after the one in progress (R436) -/
  saveq : List SaveReq := []
  deriving DecidableEq, Repr

/-! ## Partitions -/

/-- A job of the reduction collector (R117 to R121): `have` keeps the partials of each unit by member, `next` the units
written. -/
structure Job where
  desc : Nat
  members : List Nat
  units : Nat
  dest : Nat
  kind : Nat
  job : Nat
  slot : Nat
  sums : AMap (List W32 × Bool × Nat) := []
  staged : List (Nat × Nat × List W32 × Bool) := []
  written : List Nat := []
  deriving DecidableEq, Repr

/-- The power state of a partition (R456). -/
inductive PwrState where
  | off | idle | ret
  deriving DecidableEq, Repr

/-- A partition. -/
structure Part where
  resetting : Bool := false
  offline : Bool := false
  resets : List W64 := []
  pwr : PwrState := .idle
  waking : Bool := false
  /-- the target of VCORE in mV, 0 when commanded off; whether its regulator does not answer or reports a fault (R470) -/
  mv : Nat := 750
  regBad : Bool := false
  /-- logical core index i is carried by physical core `logical[i]` (R5, log entry 5: DESIGN CHOICE) -/
  logical : List Nat := List.range 96
  coreState : AMap CoreState := [(96, .spare), (97, .spare), (98, .spare), (99, .spare)]
  /-- cores withdrawn for a test, which take a logical index again when it ends (R329) -/
  withdrawn : List Nat := []
  jobs : List Job := []
  colVw : List VatW := []
  /-- thermal and Ochre derate limits on the frequency step (R461 to R463) -/
  kTherm : Nat := 16
  kOchre : Nat := 16
  deriving DecidableEq, Repr

/-- A variant of the part (R1, R2). -/
inductive Variant where
  | l384 | l352
  deriving DecidableEq, Repr

/-- The eight fused-off cores of a partition of the LXV4-352-15-L (R2, R22; which they are is fused, log entry 5). -/
def fusedOff (p : Nat) : List Nat :=
  ((List.range 8).foldl (fun (a : List Nat × List Nat) k =>
    let i := Config.fusedPick p k % a.1.length
    (a.1.eraseIdx i, a.2 ++ [a.1.getD i 0])) (List.range 100, [])).2

/-- Partition `p` after power-on: its cores but the fused-off ones carry logical indices in physical order, the last four as spares: 96 enabled and
none fused off on the LXV4-384-16-L, 88 and 8 on the LXV4-352-15-L (R2, R3, R5, R22; log entry 5: DESIGN CHOICE). -/
def Part.fresh : Variant → Nat → Part
  | .l384, _ => {}
  | .l352, p =>
    let fused := fusedOff p
    let live := (List.range 100).filter (fun i => !fused.contains i)
    { logical := live.take 88
      coreState := (List.range 100).filterMap (fun i =>
        if fused.contains i then some (i, .fused) else if (live.drop 88).contains i then some (i, .spare) else none) }

/-! ## Memory stacks -/

/-- A memory stack and its base die. -/
structure Stack where
  vwSeed : W64 := 0
  /-- rows whose repair copy runs (R339) -/
  repairs : List Nat := []
  /-- spare rows used, by bank -/
  sparesUsed : AMap Nat := []
  /-- corrected errors of each row in the running scrub period, and when the period began (R338, R339) -/
  rowErr : AMap Nat := []
  period : Nat := 0
  /-- device times of the corrections of the last hour (R421) -/
  hour : List Nat := []
  /-- device time at which the running frame began; by requester the bytes and the Vat-writes charged in it and the reservations of its start
  (R345 to R347) -/
  frame : Nat := 0
  charged : AMap Nat := []
  vatCharged : AMap Nat := []
  reserved : AMap Nat := []
  vatReserved : AMap Nat := []
  /-- 1 + the 2 KiB run of the last access to a bank, by bank and requester (R346) -/
  lastRun : AMap Nat := []
  selfRefresh : Bool := false
  lastAccess : W64 := 0
  /-- Vat-writes applied, of which MEM_CNT shows units of 2¹⁶ -/
  vatWrites : Nat := 0
  deriving DecidableEq, Repr

/-! ## Indigo engines -/

/-- A pinned page of a walk list (R216): the address of its PTE, the frame, tier and generation recorded. -/
structure WalkPage where
  pte : Nat
  frame : Nat
  tier3 : Bool
  gen : Nat
  deriving DecidableEq, Repr

/-- A walk in a walk slot (R215 to R220). -/
structure Walk where
  /-- core that issued it and its context slot -/
  core : Nat
  slot : Nat
  req : List Byte
  pinned : Bool := false
  /-- the engine that homes the sequence, its SGEN at the pin phase, and the page layout -/
  home : Nat := 0
  sgen : Nat := 0
  list : List WalkPage := []
  /-- pages delivered so far, in ascending order; the pages released; buffer slots whose release has been sent (R217, R218) -/
  delivered : Nat := 0
  rel : List Nat := []
  relq : List Nat := []
  t3Pages : Nat := 0
  /-- prefetch distance in pages (R228, R229) -/
  dist : Nat := 0
  /-- its pin phase has waited on a PIN of 63; its excess of tier-3 pages has been reported (R230) -/
  waited : Bool := false
  deferred : Bool := false
  deriving DecidableEq, Repr

/-- A walk request that waits for a walk slot (R215). -/
structure WalkReq where
  core : Nat
  slot : Nat
  req : List Byte
  deriving DecidableEq, Repr

/-- An edit batch that waits (R221); a runtime batch has no core. -/
structure EditReq where
  addr : Nat
  core : Option (Nat × Nat) := none
  /-- word address of the instruction that submitted it -/
  word : BitVec 12 := 0
  /-- free frames that its APPENDs have taken while the batch waits for spill (R223, log entry 131: DEDUCED) -/
  taken : List Nat := []
  deriving DecidableEq, Repr

/-- A retire record (R224); `po`: an uncorrectable error has poisoned it (R242). -/
structure Retire where
  frame : Nat
  tier3 : Bool
  count : Nat
  po : Bool := false
  deriving DecidableEq, Repr

/-- An entry of the staging map (R229). -/
structure StageEnt where
  pte : Nat
  src : Nat
  dst : Nat
  gen : Nat
  ready : Bool := false
  deriving DecidableEq, Repr

/-- An Indigo engine. -/
structure Ind where
  walks : List Walk := []
  waiting : List WalkReq := []
  edits : List EditReq := []
  retire : List Retire := []
  staging : List StageEnt := []
  devFree : List Nat := []
  t3Free : List Nat := []
  /-- spill in progress: PTE, device frame, tier-3 frame, generation (R226) -/
  spill : Option (Nat × Nat × Nat × Nat) := none
  /-- sequence descriptors that walks and batches have named since ENABLE was set (log entry 91: DEDUCED) -/
  seqs : List Nat := []
  /-- second of device time in which the last ageing sweep ran -/
  swept : Nat := 0
  /-- reset since ENABLE was last set (R242) -/
  wasReset : Bool := false
  /-- not in SLEEP (R454) -/
  awake : Bool := false
  deriving DecidableEq, Repr

/-! ## Links -/

/-- A flit as it stands in a replay buffer (R355, R359). -/
structure Flit where
  typ : Nat
  tc : Nat
  po : Bool := false
  payload : List Byte := []
  deriving DecidableEq, Repr

/-- Who a request to a stack or a flit on a link is charged to (R345, R361). -/
inductive Requester where
  | slot (x : Nat)
  | sepia
  | ochre
  | unreserved
  deriving DecidableEq, Repr

/-- A message that waits for its link (R361). -/
structure OutMsg where
  tc : Nat
  flits : List Flit
  slot : Option Nat := none
  rq : Requester := .unreserved
  /-- a forwarded message: its input link, and when its output last advanced (R362, R364) -/
  fwd : Option (Nat × W64) := none
  deriving DecidableEq, Repr

/-- The collective stage command of an engine (R372). -/
structure StageCmd where
  op : Nat
  dim : Nat
  stage : Nat
  chunk : Nat
  deriving DecidableEq, Repr

/-- An invocation of the collective program on a link engine (R372). -/
structure Inv where
  slot : Nat
  ch : Nat
  ring : Nat
  ev : Nat
  r120 : W32 := 0
  r124 : W32 := 0
  queue : List StageCmd := []
  completed : Nat := 0
  ended : Bool := false
  /-- the handle is abandoned (R379) -/
  abandoned : Bool := false
  deriving DecidableEq, Repr

/-- A link, its port and its engine. -/
structure Link where
  nextSeq : Nat := 0
  replay : List (Nat × Flit) := []
  lastAck : Nat := 1023
  resends : Nat := 0
  credits : AMap Nat := []
  ackTime : W64 := 0
  expSeq : Nat := 0
  nakSent : Bool := false
  toReturn : AMap Nat := []
  queue : List OutMsg := []
  /-- sequenced flits sent, received good and forwarded, of which LNK_CNT shows units of 2¹⁶ -/
  flits : AMap Nat := []
  fullFails : Nat := 0
  fast : Bool := false
  inv : Option Inv := none
  invq : List Inv := []
  chunks : List CollMsg := []
  /-- bytes of the codeword in progress that have left (R353) -/
  phase : Nat := 0
  /-- FEC symbols corrected, of which LNK_CNT shows units of 2¹⁰ -/
  symbols : Nat := 0
  /-- when the uncorrectable codewords of the last 1 ms arrived (R366) -/
  lostWords : List Nat := []
  /-- the frame in progress, its management slots, the bytes charged to each requester in it, and the requester served last in rotation (R361) -/
  frame : Nat := 0
  mgmtSlots : Nat := 0
  used : AMap Nat := []
  turn : Nat := 0
  /-- its engine is not in SLEEP (R454) -/
  awake : Bool := false
  deriving DecidableEq, Repr

/-! ## Weld sequencers -/

/-- A Weld sequencer (R266 to R272): program and data words, registers, PC, and the instructions of the running invocation. Whether one
runs, the last trap and the events counted stand in its WLD registers. -/
structure Weld where
  prog : AMap W32 := []
  data : AMap W32 := []
  w : AMap W32 := []
  pc : BitVec 12 := 0
  count : Nat := 0
  deriving DecidableEq, Repr

/-! ## Device time -/

/-- The TIM block's state beside its registers (R302 to R311). -/
structure Tim where
  now : W64 := 0
  frac : Nat := 0
  state : Nat := 0
  rate : Int := 0
  good : Nat := 0
  lastSync : W64 := 0
  holdStart : W64 := 0
  ppsSeen : Bool := false
  lastPps : W64 := 0
  /-- a loss of the edge has been reported since the last edge (R311) -/
  ppsLost : Bool := false
  delayT1 : Option Nat := none
  lastDelay : W64 := 0
  syncSeq : BitVec 16 := 0
  lastSent : Option W64 := none
  held : List (List Byte) := []
  deriving DecidableEq, Repr

/-! ## Sepia and Ochre -/

/-- A Sepia save in progress (R413 to R417). -/
structure Save where
  slot : Nat
  target : Nat
  /-- destination: a peer device, else a tier-3 address -/
  peer : Option Nat := none
  dest : Nat := 0
  /-- the staging area of a STAGED descriptor -/
  staged : Option Nat := none
  /-- pieces not yet captured, as region, offset and bytes, each with its number, and the digests of those captured, by number -/
  todo : List ((Nat × Nat × Nat) × Nat) := []
  done : List (Nat × List Byte) := []
  /-- pieces for which a write waits (R415) -/
  wanted : List Nat := []
  stepno : W32 := 0
  seq : Nat := 0
  /-- members that agreed on the saved step, once they have (order 4 of R414) -/
  agreed : Option Nat := none
  deriving DecidableEq, Repr

/-- The Sepia engine: the save in progress and the number of saves started. -/
structure Sepia where
  save : Option Save := none
  seq : Nat := 0
  deriving DecidableEq, Repr

/-- A test pass whose digest waits to be cross-checked (R389). -/
structure TestDone where
  core : Nat
  pass : W32
  digest : W64
  deriving DecidableEq, Repr

/-- The Ochre agents and aggregator (R389, R421 to R426). -/
structure Ochre where
  /-- digests that wait for another core's of the same pass number (R389) -/
  tests : List TestDone := []
  sensors : AMap Nat := []
  means : List (Nat × Nat) := []
  daySum : AMap Nat := []
  dayCount : AMap Nat := []
  /-- 1 + the device time of the last derate of each partition, 0 for none (R424) -/
  lastDerate : AMap Nat := []
  armed : Bool := true
  risk : Nat := 0
  /-- what the links have reported: FEC symbols corrected and codewords uncorrectable (R354) -/
  fec : AMap (Nat × Nat) := []
  deriving DecidableEq, Repr

/-! ## Host interface, management, power -/

/-- The device's side of a queue pair (R433, R494, R495). -/
structure Queue where
  sqHead : Nat := 0
  cqTail : Nat := 0
  phase : Bool := true
  deriving DecidableEq, Repr

/-- A tier-3 read outstanding (R429): host address, length, and where its bytes go, as (device space, core, address,
offset in the reply, bytes). -/
structure T3Req where
  tag : Nat
  host : Nat
  len : Nat
  core : Nat
  dst : List (Bool × Nat × Nat × Nat)
  /-- device time at which it was sent -/
  time : Nat := 0
  deriving DecidableEq, Repr

/-- What the Umber controller answers on a management binding (R442 to R445). The DMTF encodings of the answers are not carried (log entry
95). -/
inductive Reply where
  /-- Set Endpoint ID: the identifier in force -/
  | endpoint (eid : Byte)
  /-- a sensor and what it reads (R443) -/
  | sensor (id value : Nat)
  /-- the PDRs that a request asks for -/
  | pdr (body : List Byte)
  /-- PLDM firmware update (R444) -/
  | updateAccepted
  | alreadyInUpdateMode
  | notInUpdateMode
  | verified (ok : Bool)
  | activated (ok : Bool)
  /-- SPDM: the request answered and the answer's body (R445) -/
  | spdm (request : Nat) (body : List Byte)
  /-- measurements: indices, fused minimum SVN and debug grants of measurement 4, the rest of the answer (R445) -/
  | measurements (index : List Nat) (minSvn grants : Nat) (body : List Byte)
  | spdmError
  deriving DecidableEq, Repr

/-- The PMBus commands that the device uses (R469): OPERATION, VOUT_MODE, VOUT_COMMAND with a target in mV, READ_VOUT, READ_IOUT, STATUS_WORD. The
codes and the number formats are those of PMBus. -/
inductive PmOp where
  | operation (on : Bool)
  | voutMode
  | voutCommand (mv : Nat)
  | readVout
  | readIout
  | statusWord
  deriving DecidableEq, Repr

/-- What the device sends outside. -/
inductive Out where
  | completion (q : Nat) (bytes : List Byte)
  | msix (vector : Nat) (addr : Nat) (data : W32)
  | hostWrite (addr : Nat) (bytes : List Byte) (ep : Bool)
  | hostRead (bytes : List Byte) (ep : Bool)
  | unsupported (addr : Nat)
  | t3Read (tag host len : Nat)
  /-- a flit slot leaves a port: its 72 bytes, each with the marker bit that stands before it where it begins a block (R353) -/
  | slot (link : Nat) (wire : List (Option Bool × Byte))
  | pin (name : Nat) (level : Bool)
  /-- a command on VR_SCL and VR_SDA to a 7-bit address (R469) -/
  | pmbus (addr : Nat) (op : PmOp)
  | mgmt (reply : Reply)
  | snoopMiss (addr : Nat)
  /-- a PlatformEventMessage: sensor and what it reads (R443) -/
  | platformEvent (sensor value : Nat)
  | regRead (v : W32)
  deriving DecidableEq, Repr

/-- A completion entry that waits for room in its queue (R437, R494). -/
structure Cpl where
  q : Nat
  cid : BitVec 16
  result : Nat
  status : Nat
  reason : Nat
  v0 : Nat
  v1 : Nat
  deriving DecidableEq, Repr

/-- The host interface. -/
structure Hif where
  held : List Cpl := []
  queues : AMap Queue := []
  /-- per vector: address, data, mask; pending bits -/
  msix : AMap (Nat × W32 × Bool) := []
  pend : List Nat := []
  t3 : List T3Req := []
  t3Next : Nat := 0
  nonceValid : Bool := false
  token : AMap Byte := []
  d3hot : Bool := false
  linkUp : Bool := false
  configReady : Bool := false
  deriving DecidableEq, Repr

/-- The Umber controller's management state (R438 to R447) and the pins. -/
structure Mgmt where
  eid : Byte := 0
  update : Option Nat := none
  updateOk : Bool := false
  spdm : Nat := 0
  alg : Nat := 0
  flash : AMap Byte := []
  /-- the boot record: ACTIVE bank, and that the last power cycle ended in a thermal trip (R438, R462) -/
  active : Nat := 0
  trip : Bool := false
  /-- row repairs in the repair log of the flash, and those made hard: stack and row (R339) -/
  flashLog : List (Nat × Nat) := []
  hard : List (Nat × Nat) := []
  booted : Nat := 0
  recovery : Bool := false
  kat : List Nat := []
  /-- PREPARE_OFF has been written (R460) -/
  preparing : Bool := false
  /-- power-on reset, and no boot since -/
  powerOn : Bool := true
  /-- the partitions' VCORE regulators have been released since power-on reset (R459, R470) -/
  vcoreOn : Bool := false
  /-- the fused minimum SVN that boots have raised (R440) -/
  svnFuse : Nat := 0
  /-- rows repaired since the log was last written to flash: stack and row (R339) -/
  repairLog : List (Nat × Nat) := []
  /-- pin levels: PWR_GOOD, DEV_RST_N, PERST_N, TIME_PPS_IN, THERM_TRIP_N, REPLACE_REQ_N -/
  pins : AMap Bool := []
  deriving DecidableEq, Repr

/-- Power and thermal control of the device (R461 to R464). -/
structure Pwr where
  k : Nat := 16
  below : Nat := 0
  withheld : Bool := false
  tripped : Bool := false
  temps : AMap Nat := []
  cool : AMap Nat := []
  /-- samples of 10 µs above THROTTLE_C since the last step (R462) -/
  hot : AMap Nat := []
  /-- droop events of the last hour: device time and sensor (R421, R468) -/
  droop : List (Nat × Nat) := []
  /-- powers of the last 10 intervals and the energy since power-on, in mW and in mW × 100 µs (R443) -/
  recent : List Nat := []
  energy : Nat := 0
  /-- unit wakes from SLEEP, of which UMB_CNT shows units of 2¹⁶ -/
  wakes : Nat := 0
  deriving DecidableEq, Repr

/-- The state of the block. -/
structure State where
  /-- commands that wait, first in first out -/
  pending : List Instr := []
  /-- the MODEL's own counter: the argument of the free values (log entry 3: DESIGN CHOICE) -/
  free : Nat := 0
  out : List Out := []
  variant : Variant := .l384
  serial : W64 := Config.fusedSerial
  tim : Tim := {}
  ctxs : AMap Ctx := []
  cores : AMap Core := []
  parts : AMap Part := []
  mem : Mem := {}
  host : Mem := {}
  hbms : AMap Stack := []
  inds : AMap Ind := []
  links : AMap Link := []
  welds : AMap Weld := []
  sep : Sepia := {}
  och : Ochre := {}
  hif : Hif := {}
  mgmt : Mgmt := {}
  pwr : Pwr := {}
  /-- BAR0 registers at other than their reset values, by key (register, index) -/
  regs : AMap W32 := []
  /-- HI halves latched by reads of their LO registers, by the offset of the HI register (R304) -/
  latched : AMap W32 := []
  /-- Kermes evaluations by class of generator, of which KRM_CNT shows units of 2¹⁶ (R165) -/
  evals : AMap Nat := []
  /-- locks that are open, by number; every lock is locked at reset (R486) -/
  unlocked : AMap Bool := []
  /-- calibrations requested and not yet served (R329) -/
  calib : List Calibration := []
  /-- resources withdrawn for a calibration: class, partition, INDEX, and until when (R325, R329) -/
  away : List (Nat × Nat × Nat × Nat) := []
  /-- the save images that have been written, newest first, by which bytes in a buffer are known as an image (the model's own field: the manual
  gives an image no layout; R264, log entry 80: DESIGN CHOICE) -/
  images : List Image := []
  /-- buffers of saves that have begun and whose header is not written (R263) -/
  headless : List Nat := []
  deriving DecidableEq, Repr

/-- Why the block stops. -/
inductive Fault where
  /-- Raised by a slot command of a core that is fused off (R2, R3). Safe: such a core is never scheduled, so no slot of it
  issues. -/
  | noSuchUnit
  deriving DecidableEq, Repr

/-- Why a command has no meaning. -/
inductive Refusal where
  /-- Raised by an arm of `exec` whose command has no meaning yet, by its mnemonic. Safe: nothing is claimed of it. -/
  | notModelled (mnemonic : String)
  deriving DecidableEq, Repr

/-- A block of a variant right after reset (R2, R448, R449, R492). What differs are registers that show the variant and the cores of each
partition (`Part.fresh`). -/
def State.resetOn (v : Variant) : State := { variant := v }

/-- The block right after reset: the LXV4-384-16-L (log entry 129: DESIGN CHOICE). -/
def State.reset : State := .resetOn .l384

end Sys2Proof.Machine
end

