-- ==== Sys2Proof/Machine/SymbolCode.lean ====
section
/-! DEFINITION. The symbol code of the base die: a Reed–Solomon code of 72 symbols over GF(2⁸), 65 of them data and metadata (R334, R335). -/

namespace Sys2Proof.Machine

/-- A symbol times α (R335: x⁸ + x⁴ + x³ + x² + 1). -/
def gfDouble (a : Byte) : Byte := (a <<< 1) ^^^ (if a.getLsbD 7 then 0x1D#8 else 0#8)

/-- The product of two symbols. -/
def gfMul (a b : Byte) : Byte :=
  ((List.range 8).foldl (fun (r : Byte × Byte) i => (if b.getLsbD i then r.1 ^^^ r.2 else r.1, gfDouble r.2)) (0#8, a)).1

/-- A power of a symbol. -/
def gfPow (a : Byte) : Nat → Byte
  | 0 => 1
  | n + 1 => gfMul a (gfPow a n)

/-- αⁿ. -/
def gfAlpha (n : Nat) : Byte := gfPow 2 (n % 255)

/-- The inverse of a symbol, 0 for 0. -/
def gfInv (a : Byte) : Byte := gfPow a 254

/-- The generator polynomial, lowest coefficient first and its leading 1 left out: the product of x + αⁱ for i from 0 to 6 (R335). -/
def rsGen : List Byte :=
  ((List.range 7).foldl (fun (g : List Byte) i =>
    ((0 :: g).zip (g.map (fun c => gfMul c (gfAlpha i)) ++ [0])).map (fun e => e.1 ^^^ e.2)) [1]).take 7

/-- The check symbols of data and metadata symbols, the symbol of the highest power first: the remainder of the division by the generator. Symbol i
stands at power 71 − i (log entry 116: PRESUMED). -/
def rsCheck (l : List Byte) : List Byte :=
  (l.foldl (fun (r : List Byte) d =>
    let q := d ^^^ r.getD 6 0
    ((0 :: r.take 6).zip rsGen).map (fun e => e.1 ^^^ gfMul q e.2)) (List.replicate 7 0)).reverse

/-- The codeword of a unit: data bytes in address order, the metadata byte with POISON in bit 0, check symbols (R335). -/
def rsWord (data : List Byte) (po : Bool) : List Byte :=
  let l := data ++ [if po then 1 else 0]
  l ++ rsCheck l

/-- The seven syndromes of a word of 72 symbols: its values at αᵏ. -/
def rsSyndromes (w : List Byte) : List Byte :=
  (List.range 7).map (fun k => let x := gfAlpha k; w.foldl (fun s b => gfMul s x ^^^ b) 0)

/-- What the decoder finds: a codeword, a word that it corrects in one or two symbols (their numbers with what is added to them), or an
uncorrectable word (R335). -/
inductive Decoded where
  | clean
  | fixed (c : List (Nat × Byte))
  | bad
  deriving DecidableEq, Repr

/-- One symbol in error that explains the syndromes. -/
def rsOne (s : List Byte) : Option (Nat × Byte) :=
  let v := s.getD 0 0
  ((List.range 72).find? (fun i => v != 0 && (List.range 7).all (fun k => s.getD k 0 == gfMul v (gfAlpha (k * (71 - i)))))).map (fun i => (i, v))

/-- Two symbols in error that explain the syndromes. Errors at powers with locators X and Y make every syndrome (X + Y) times the one before it plus
XY times the one before that; `e` and `f` are X + Y and XY times `d`. -/
def rsTwo (s : List Byte) : Option (List (Nat × Byte)) :=
  let v := fun k => s.getD k 0
  let d := gfMul (v 0) (v 2) ^^^ gfMul (v 1) (v 1)
  let e := gfMul (v 0) (v 3) ^^^ gfMul (v 1) (v 2)
  let f := gfMul (v 1) (v 3) ^^^ gfMul (v 2) (v 2)
  if d == 0 || !(List.range 5).all (fun k => gfMul d (v (k + 2)) == gfMul e (v (k + 1)) ^^^ gfMul f (v k)) then none
  else (List.range 72).findSome? (fun i => (List.range i).findSome? (fun j =>
    let x := gfAlpha (71 - i)
    let y := gfAlpha (71 - j)
    let b := gfMul (v 1 ^^^ gfMul (v 0) x) (gfInv (x ^^^ y))
    if gfMul d (x ^^^ y) == e && gfMul d (gfMul x y) == f then some [(j, b), (i, v 0 ^^^ b)] else none))

/-- The decoder (R335). -/
def rsDecode (w : List Byte) : Decoded :=
  let s := rsSyndromes w
  if s.all (fun v => v == 0) then .clean
  else match rsOne s with
    | some e => .fixed [e]
    | none => match rsTwo s with
      | some l => .fixed l
      | none => .bad

end Sys2Proof.Machine
end

