-- ==== Sys2Proof/Machine/Ops.lean ====
section
/-! DEFINITION. The named operations over the state: units, registers of BAR0, memories, addresses, events. -/

namespace Sys2Proof.Machine

/-! ## Units -/

end Sys2Proof.Machine

namespace Sys2Proof

/-- The number of a core in the state: 100 to a partition. -/
def CoreId.key (k : CoreId) : Nat := 100 * k.part.val + k.phys.val

/-- The number of a Weld sequencer in the state (`wldWindow`). -/
def WeldId.key : WeldId → Nat
  | .mordant k => k.key
  | .link n => 400 + n.val
  | .indigo e => 448 + e.val
  | .sepia p => 496 + p.val
  | .ochre p => 500 + p.val

end Sys2Proof

namespace Sys2Proof.Machine

/-- The core with a number. -/
def State.core (s : State) (n : Nat) : Core := AMap.get {} n s.cores
/-- The state with that core replaced. -/
def State.setCore (s : State) (n : Nat) (c : Core) : State := { s with cores := AMap.put {} n c s.cores }
/-- The context of a slot. -/
def State.ctx (s : State) (x : Nat) : Ctx := AMap.get {} x s.ctxs
/-- The state with that context replaced. -/
def State.setCtx (s : State) (x : Nat) (c : Ctx) : State := { s with ctxs := AMap.put {} x c s.ctxs }
/-- A partition. -/
def State.part (s : State) (p : Nat) : Part := AMap.get (Part.fresh s.variant p) p s.parts
/-- The state with that partition replaced. -/
def State.setPart (s : State) (p : Nat) (c : Part) : State := { s with parts := AMap.put (Part.fresh s.variant p) p c s.parts }
/-- A memory stack. -/
def State.stack (s : State) (n : Nat) : Stack := AMap.get {} n s.hbms
/-- The state with that stack replaced. -/
def State.setStack (s : State) (n : Nat) (c : Stack) : State := { s with hbms := AMap.put {} n c s.hbms }
/-- An Indigo engine. -/
def State.ind (s : State) (n : Nat) : Ind := AMap.get {} n s.inds
/-- The state with that engine replaced. -/
def State.setInd (s : State) (n : Nat) (c : Ind) : State := { s with inds := AMap.put {} n c s.inds }
/-- A link. -/
def State.link (s : State) (n : Nat) : Link := AMap.get {} n s.links
/-- The state with that link replaced. -/
def State.setLink (s : State) (n : Nat) (c : Link) : State := { s with links := AMap.put {} n c s.links }
/-- A Weld sequencer. -/
def State.weld (s : State) (n : Nat) : Weld := AMap.get {} n s.welds
/-- The state with that sequencer replaced. -/
def State.setWeld (s : State) (n : Nat) (c : Weld) : State := { s with welds := AMap.put {} n c s.welds }
/-- The state with device memory and partition stores replaced. -/
def State.setMem (s : State) (m : Mem) : State := { s with mem := m }
/-- The state with host memory, as the device last saw it, replaced. -/
def State.setHost (s : State) (m : Mem) : State := { s with host := m }
/-- The state with device time replaced. -/
def State.setTim (s : State) (t : Tim) : State := { s with tim := t }
/-- The state with the Sepia engine replaced. -/
def State.setSep (s : State) (t : Sepia) : State := { s with sep := t }
/-- The state with the Ochre aggregator replaced. -/
def State.setOch (s : State) (t : Ochre) : State := { s with och := t }
/-- The state with the host interface replaced. -/
def State.setHif (s : State) (t : Hif) : State := { s with hif := t }
/-- The state with the management state replaced. -/
def State.setMgmt (s : State) (t : Mgmt) : State := { s with mgmt := t }
/-- The state with power control replaced. -/
def State.setPwr (s : State) (t : Pwr) : State := { s with pwr := t }
/-- The state after something is sent outside. -/
def State.emit (s : State) (o : Out) : State := { s with out := s.out ++ [o] }
/-- The state after one free value is drawn. -/
def State.draw (s : State) : State := { s with free := s.free + 1 }
/-- The state after `k` free values are drawn. -/
def State.drawN (s : State) (k : Nat) : State := { s with free := s.free + k }

/-! ## Registers of BAR0 -/

/-- A fused value of the reset column (R481, KRM_TEST_SEED): the serial's halves. -/
def fusedReset (r : Reg) : Option W32 :=
  match r with
  | .gctSerialLo | .krmTestSeedLo => some (Config.fusedSerial.extractLsb' 0 32)
  | .gctSerialHi | .krmTestSeedHi => some (Config.fusedSerial.extractLsb' 32 32)
  | _ => none

/-- The reset value of a register, by variant where the manual gives two. -/
def resetOf (v : Variant) (r : Reg) : W32 :=
  match fusedReset r with
  | some w => w
  | none => match v, r with
    | .l352, .gctVariant => 0x5DC40458#32
    | .l352, .umbCap => 0x0BB885DC#32
    | _, _ => r.info.reset

/-- The word of element `n` of a register of unit `u`. -/
def State.reg (s : State) (r : Reg) (u n : Nat) : W32 := AMap.get (resetOf s.variant r) (r.addr u n) s.regs

/-- That word replaced. -/
def State.setReg (s : State) (r : Reg) (u n : Nat) (v : W32) : State :=
  { s with regs := AMap.put (resetOf s.variant r) (r.addr u n) v s.regs }

/-- Bits `hi : lo` of a register. -/
def State.fld (s : State) (r : Reg) (u n hi lo : Nat) : Nat := bitsOf (s.reg r u n) hi lo

/-- A word with bits `hi : lo` replaced. -/
def putBits (w : W32) (hi lo v : Nat) : W32 :=
  let m := (2 ^ (hi + 1 - lo) - 1) * 2 ^ lo
  (w &&& ~~~(BitVec.ofNat 32 m)) ||| BitVec.ofNat 32 (v % 2 ^ (hi + 1 - lo) * 2 ^ lo)

/-- Bits `hi : lo` of a register replaced. -/
def State.setFld (s : State) (r : Reg) (u n hi lo v : Nat) : State := s.setReg r u n (putBits (s.reg r u n) hi lo v)

/-- Bits of a register set. -/
def State.orReg (s : State) (r : Reg) (u n : Nat) (m : W32) : State := s.setReg r u n (s.reg r u n ||| m)

/-- An event counter advanced by `k`, modulo 2³². -/
def State.bump (s : State) (r : Reg) (u n k : Nat) : State := s.setReg r u n (s.reg r u n + BitVec.ofNat 32 k)

/-- Two registers as one number of 64 bits, LO and HI. -/
def State.reg64 (s : State) (lo hi : Reg) (u n : Nat) : Nat := (s.reg hi u n).toNat * 2 ^ 32 + (s.reg lo u n).toNat

/-- The 48-bit address that a LO and HI pair hold. -/
def State.regAddr (s : State) (lo hi : Reg) (u n : Nat) : Nat := s.fld hi u n 15 0 * 2 ^ 32 + (s.reg lo u n).toNat

/-! ## Memory -/

/-- The canonical form of a memory: addresses strictly rising, no entry at what an unlisted one reads as (log entry 8: DESIGN CHOICE). -/
def Mem.wf (m : Mem) : Bool := AMap.wf 0 m.bytes && AMap.wf false m.poison && AMap.wf [] m.errs
/-- The byte at an address. -/
def Mem.byte (m : Mem) (a : Nat) : Byte := AMap.get 0 a m.bytes
/-- The poison of the unit that holds an address (R330, R381). -/
def Mem.poAt (m : Mem) (a : Nat) : Bool := AMap.get false (a / 64) m.poison
/-- `n` bytes from an address. -/
def Mem.read (m : Mem) (a n : Nat) : List Byte := (List.range n).map (fun i => m.byte (a + i))
/-- The little-endian number of `n` bytes from an address. -/
def Mem.num (m : Mem) (a n : Nat) : Nat := ofLeBytes (m.read a n)
/-- Whether a unit that `n` bytes from an address touch is poisoned. -/
def Mem.readPo (m : Mem) (a n : Nat) : Bool :=
  (List.range ((a + n - 1) / 64 + 1 - a / 64)).any (fun i => AMap.get false (a / 64 + i) m.poison)
/-- One byte written. -/
def Mem.setByte (m : Mem) (a : Nat) (b : Byte) : Mem := { m with bytes := AMap.put 0 a b m.bytes }
/-- The poison of a unit set. -/
def Mem.setPo (m : Mem) (u : Nat) (b : Bool) : Mem := { m with poison := AMap.put false u b m.poison }
/-- Bytes written from an address, poison untouched. -/
def Mem.setBytes : Mem → Nat → List Byte → Mem
  | m, _, [] => m
  | m, a, b :: t => Mem.setBytes (m.setByte a b) (a + 1) t

/-- What a write leaves of its units: for each unit, whether a piece of it is poisoned and how many of its bytes are written. -/
def unitCover : AMap (Bool × Nat) → Nat → Nat → Bool → AMap (Bool × Nat)
  | u, _, 0, _ => u
  | u, a, n + 1, po =>
    let c := AMap.get (false, 0) (a / 64) u
    unitCover (AMap.put (false, 0) (a / 64) (c.1 || po, c.2 + 1) u) (a + 1) n po

/-- The units of a list of pieces. -/
def coverOf (ps : List Piece) : AMap (Bool × Nat) :=
  ps.foldl (fun u p => unitCover u p.addr p.data.length p.po) []

/-- The poison of units after a write (R337, R382): poisoned by a poisoned piece, clean when written in full, else as it
was. -/
def Mem.markUnits (m : Mem) : AMap (Bool × Nat) → Mem
  | [] => m
  | (u, c) :: t => Mem.markUnits (if c.1 then m.setPo u true else if c.2 = 64 then m.setPo u false else m) t

/-! ### Symbols in error -/

/-- What the base die finds on a read of a unit (R335, R336). -/
def Mem.finding (m : Mem) (u : Nat) : Decoded :=
  match AMap.get [] u m.errs with
  | [] => .clean
  | e => rsDecode ((rsWord (m.read (64 * u) 64) (m.poAt (64 * u))).zipIdx.map (fun d =>
      (e.filter (fun x => x.1 == d.2)).foldl (fun b x => b ^^^ x.2) d.1))

/-- A unit stored as it was read: the codeword is whole again, poisoned where it was uncorrectable (R336, R337). -/
def Mem.settle (m : Mem) (u : Nat) : Mem :=
  if AMap.get [] u m.errs = [] then m
  else { m with errs := AMap.put [] u [] m.errs, poison := if m.finding u = .bad then AMap.put false u true m.poison else m.poison }

/-- Whether a unit that `n` bytes from an address touch reads uncorrectable. -/
def Mem.readBad (m : Mem) (a n : Nat) : Bool :=
  !m.errs.isEmpty && (List.range ((a + n - 1) / 64 + 1 - a / 64)).any (fun i => m.finding (a / 64 + i) == .bad)

/-- Values added to symbols of a unit: data symbols, the poison bit in symbol 64; check symbols hold nothing. -/
def Mem.addSyms (m : Mem) (u : Nat) (l : List (Nat × Byte)) : Mem :=
  l.foldl (fun (m : Mem) x =>
    if x.1 < 64 then m.setByte (64 * u + x.1) (m.byte (64 * u + x.1) ^^^ x.2)
    else if x.1 = 64 then m.setPo u (m.poAt (64 * u) ^^ x.2.getLsbD 0) else m) m

/-- The symbols in error of a unit replaced. -/
def Mem.setErrs (m : Mem) (u : Nat) (e : List (Nat × Byte)) : Mem := { m with errs := AMap.put [] u e m.errs }

/-- A symbol of a stored codeword that goes wrong. A word that every read now takes for another codeword is held as that codeword (R335). -/
def Mem.upset (m : Mem) (u sym : Nat) (v : Byte) : Mem :=
  let old := AMap.get [] u m.errs
  let b := (old.filter (fun x => x.1 == sym)).foldl (fun b x => b ^^^ x.2) v
  let e := old.filter (fun x => x.1 != sym) ++ (if b = 0 then [] else [(sym, b)])
  let m1 := m.setErrs u e
  match m1.finding u with
  | .bad => m1
  | .clean => (m.setErrs u []).addSyms u e
  | .fixed c => if c.all (fun x => e.contains x) && e.length == c.length then m1
      else ((m.setErrs u c).addSyms u e).addSyms u c

/-- A write of pieces performed: a unit that they touch is settled first, as a read-modify-write settles it (R337). -/
def Mem.write (m : Mem) (ps : List Piece) : Mem :=
  Mem.markUnits (ps.foldl (fun m p => m.setBytes p.addr p.data) ((coverOf ps).foldl (fun m e => m.settle e.1) m)) (coverOf ps)

/-- A run of bytes zeroed with poison clear: entries of the range are dropped (R385). -/
def Mem.clearRange (m : Mem) (lo hi : Nat) : Mem :=
  { bytes := m.bytes.filter (fun e => e.1 < lo || hi ≤ e.1)
    poison := m.poison.filter (fun e => e.1 < lo / 64 || hi / 64 ≤ e.1)
    errs := m.errs.filter (fun e => e.1 < lo / 64 || hi / 64 ≤ e.1) }

/-- Pieces split at 64-byte unit boundaries, with fuel. -/
def splitUnits : Nat → List Piece → List Piece
  | 0, ps => ps
  | f + 1, ps => match ps with
    | [] => []
    | p :: t =>
      let room := 64 - p.addr % 64
      if p.data.length ≤ room then p :: splitUnits f t
      else { p with data := p.data.take room } :: splitUnits f ({ p with addr := p.addr + room, data := p.data.drop room } :: t)

/-- Fuel enough for splitting pieces. -/
def splitFuel (ps : List Piece) : Nat := ps.foldl (fun n p => n + p.data.length / 64 + 2) 0

/-- Whether a test holds for the first address of some unit that `n` bytes from an address touch. -/
def anyUnit (a n : Nat) (f : Nat → Bool) : Bool :=
  (List.range ((a + n - 1) / 64 + 1 - a / 64)).any (fun i => f (64 * (a / 64 + i)))

/-- A 64-byte unit as one piece. -/
def unitPiece (a : Nat) (data : List Byte) (po : Bool) : List Piece := [{ addr := a, data := data, po := po }]

/-- 16 FP32 words as bytes. -/
def wordsBytes (l : List W32) : List Byte := l.flatMap (fun w => leBytes 4 w.toNat)

/-- The 32-bit words of bytes. -/
def bytesWords (l : List Byte) : List W32 := (chunks 4 l.length l).map (fun b => BitVec.ofNat 32 (ofLeBytes b))

/-! ## Addresses -/

/-- Where a device physical address lies (R331). -/
inductive Loc where
  | mem (p off : Nat)
  | store (p off : Nat)
  | tier3 (w off : Nat)
  | unmapped
  deriving DecidableEq, Repr

/-- The decoding of R331. -/
def locOf (a : Nat) : Loc :=
  if a < 0x14000000000 then .mem (a / 0x5000000000) (a % 0x5000000000)
  else if 0x400000000000 ≤ a ∧ a < 0x400040000000 then
    let p := (a - 0x400000000000) / 0x10000000
    let o := (a - 0x400000000000) % 0x10000000
    if o < 0xC000000 then .store p o else .unmapped
  else if 0x800000000000 ≤ a ∧ a < 0x1000000000000 then .tier3 ((a - 0x800000000000) / 2 ^ 43) (a % 2 ^ 43)
  else .unmapped

/-- The device physical address of a partition-store offset (R331). -/
def storeAddr (p off : Nat) : Nat := 0x400000000000 + p * 0x10000000 + off

/-- The host address of a tier-3 address, where its window is open (R432). -/
def State.t3Host (s : State) (w off : Nat) : Option Nat :=
  let lo := s.reg .hifT3Lo 0 w
  let size := bitsOf lo 7 2
  if natBit lo.toNat 0 ∧ 12 ≤ size ∧ size ≤ 43 ∧ off < 2 ^ size then
    some ((s.reg .hifT3Hi 0 w).toNat * 2 ^ 32 + bitsOf lo 31 12 * 2 ^ 12 + off)
  else none

/-- Whether an address lies in the HDM range (R431). -/
def State.inHdm (s : State) (a : Nat) : Bool :=
  natBit (s.reg .hifHdm 0 0).toNat 31 &&
    decide (s.fld .hifHdm 0 0 19 0 * 2 ^ 28 ≤ a ∧ a < s.fld .hifHdm 0 0 19 0 * 2 ^ 28 + Config.hdmBytes)

/-- The partitions of a set. -/
def partsOf (b : BitVec 4) : List Nat := (List.range 4).filter (fun p => natBit b.toNat p)

/-- The lowest partition of a set. -/
def lowPart (b : BitVec 4) : Nat := (partsOf b).headD 0

/-- Whether one address is reachable for a context: the memory and stores of its partitions, or an open tier-3 window;
the HDM range is not (R331, R431). -/
def State.ctxReach (s : State) (x a : Nat) : Bool :=
  !s.inHdm a && match locOf a with
  | .mem p _ | .store p _ => natBit (s.ctx x).parts.toNat p
  | .tier3 w o => (s.t3Host w o).isSome
  | .unmapped => false

/-- Whether a run of bytes is reachable for a context. The areas are runs of whole 64-byte units, so its ends and its
unit boundaries decide. -/
def State.ctxRange (s : State) (x a n : Nat) : Bool :=
  n == 0 || (s.ctxReach x a && s.ctxReach x (a + n - 1) &&
    (List.range (n / 64)).all (fun i => s.ctxReach x (a + 64 * i)))

/-- Whether a run lies in the device memory of a context's partitions. -/
def State.ctxMem (s : State) (x a n : Nat) : Bool :=
  match locOf a, locOf (a + n - 1) with
  | .mem p _, .mem q _ => natBit (s.ctx x).parts.toNat p && natBit (s.ctx x).parts.toNat q
  | _, _ => false

/-- Whether a run lies in the device memory or one partition store of a context's partitions. -/
def State.ctxMemStore (s : State) (x a n : Nat) : Bool :=
  s.ctxMem x a n || match locOf a, locOf (a + n - 1) with
  | .store p _, .store q _ => p == q && natBit (s.ctx x).parts.toNat p
  | _, _ => false

/-- Whether an address lies in tier 3. -/
def isT3 (a : Nat) : Bool := match locOf a with
  | .tier3 _ _ => true
  | _ => false

/-- The stack that holds an offset of a partition's memory (R332). -/
def State.stackOf (s : State) (p off : Nat) : Nat :=
  if natBit (s.reg .memPartCfg p 0).toNat 0 then 5 * p + off / 4096 % 5 else 5 * p + off / 2 ^ 36

/-- The offset within its stack (R332). -/
def State.stackOff (s : State) (p off : Nat) : Nat :=
  if natBit (s.reg .memPartCfg p 0).toNat 0 then off / 4096 / 5 * 4096 + off % 4096 else off % 2 ^ 36

/-- Whether the pseudo-channel of a device-memory address is retired (R332, R340). -/
def State.retired (s : State) (a : Nat) : Bool :=
  match locOf a with
  | .mem p off =>
    let st := s.stackOf p off
    let pc := s.stackOff p off / 2048 % 64
    if pc < 32 then natBit (s.reg .memRetiredLo st 0).toNat pc else natBit (s.reg .memRetiredHi st 0).toNat (pc - 32)
  | _ => false

/-! ## Vat-write regions -/

/-- A Vat-write region entry as its registers hold it (R107, R341). -/
structure Region where
  base : Nat
  log2 : Nat
  ownerPart : Nat
  ownerSrc : Nat
  tag : Nat
  armed : Bool
  invalid : Bool
  draining : Bool
  deriving DecidableEq, Repr

/-- Entry `i` of the table of partition `p`. -/
def State.region (s : State) (p i : Nat) : Region :=
  let c := (s.reg .memVwrCtrl p i).toNat
  { base := s.fld .memVwrBaseHi p i 15 0 * 2 ^ 32 + s.fld .memVwrBaseLo p i 31 16 * 2 ^ 16
    log2 := s.fld .memVwrBaseHi p i 21 16
    ownerPart := s.fld .memVwrOwner p i 17 16
    ownerSrc := s.fld .memVwrOwner p i 24 18
    tag := s.fld .memVwrOwner p i 15 0
    armed := natBit c 0, invalid := natBit c 1, draining := natBit c 2 }

/-- Whether a region covers an address. -/
def Region.covers (r : Region) (a : Nat) : Bool := decide (r.base ≤ a ∧ a < r.base + 2 ^ r.log2)

/-- The armed or draining entry that covers an address, with its partition and index. -/
def State.regionAt (s : State) (a : Nat) : Option (Nat × Nat) :=
  match locOf a with
  | .mem p _ => ((List.range 16).find? (fun i =>
      let r := s.region p i
      (r.armed || r.draining) && r.covers a)).map (fun i => (p, i))
  | _ => none

/-- Whether a read of an address is delivered poisoned by an INVALID region (R110, R343). -/
def State.invalidAt (s : State) (a : Nat) : Bool :=
  match locOf a with
  | .mem p _ => (List.range 16).any (fun i =>
      let r := s.region p i
      r.invalid && r.covers a)
  | _ => false

/-- Whether any region of the device is armed (KRM_STATUS.VW_ARMED). -/
def State.anyArmed (s : State) : Bool :=
  (List.range 64).any (fun i => (s.region (i / 16) (i % 16)).armed)

/-! ## Reads of the device space -/

/-- `n` bytes of the device physical space; tier 3 through its window, as the device last saw host memory. -/
def State.devRead (s : State) (a n : Nat) : List Byte :=
  match locOf a with
  | .tier3 w o => match s.t3Host w o with
    | some h => s.host.read h n
    | none => List.replicate n 0
  | _ => s.mem.read a n

/-- Whether a read of `n` bytes of the device space delivers a poisoned unit (R336, R340, R343). -/
def State.devPo (s : State) (a n : Nat) : Bool :=
  match locOf a with
  | .tier3 w o => match s.t3Host w o with
    | some h => s.host.readPo h n
    | none => true
  | _ => s.mem.readPo a n || s.mem.readBad a n || anyUnit a n (fun b => s.invalidAt b || s.retired b)

/-- The little-endian number of `n` bytes of the device space. -/
def State.devNum (s : State) (a n : Nat) : Nat := ofLeBytes (s.devRead a n)

/-! ## Cores and contexts -/

/-- The core state of a core (R388). -/
def State.coreState (s : State) (n : Nat) : CoreState := AMap.get .inService (n % 100) (s.part (n / 100)).coreState

/-- The core state replaced. -/
def State.setCoreState (s : State) (n : Nat) (c : CoreState) : State :=
  let p := s.part (n / 100)
  s.setPart (n / 100) { p with coreState := AMap.put .inService (n % 100) c p.coreState }

/-- The logical core index of a core, where it carries one (R5). -/
def State.lcore (s : State) (n : Nat) : Option Nat :=
  let l := (s.part (n / 100)).logical
  let i := l.idxOf (n % 100)
  if i < l.length then some i else none

/-- The context slot that a partition is bound to. -/
def State.partSlot (s : State) (p : Nat) : Option Nat :=
  (List.range 4).find? (fun x => (s.ctx x).st != .free && natBit (s.ctx x).parts.toNat p)

/-- The context slot that a core serves: its partition is bound and it carries a logical index (R248). -/
def State.coreSlot (s : State) (n : Nat) : Option Nat :=
  if (s.lcore n).isSome then s.partSlot (n / 100) else none

/-- The enabled logical cores of a context, in partition order and then in logical core index (R146, R247). -/
def State.ctxCores (s : State) (x : Nat) : List Nat :=
  (partsOf (s.ctx x).parts).flatMap (fun p => ((s.part p).logical).map (fun c => 100 * p + c))

/-- The index of a core among them (CTXCORE). -/
def State.ctxCore (s : State) (x n : Nat) : Nat := (s.ctxCores x).idxOf n

/-- Every core of a list changed by a function. -/
def State.mapCores (s : State) (l : List Nat) (f : Core → Core) : State :=
  l.foldl (fun s n => s.setCore n (f (s.core n))) s

/-- The context seed of a slot (R161). -/
def State.ctxSeed (s : State) (x : Nat) : W64 := BitVec.ofNat 64 (s.reg64 .krmCtxSeedLo .krmCtxSeedHi 0 x)
/-- The check seed of a slot (R161). -/
def State.chkSeed (s : State) (x : Nat) : W64 := BitVec.ofNat 64 (s.reg64 .krmCtxChkLo .krmCtxChkHi 0 x)

/-- Whether any context has a program admitted or running (R305, R307, R432). -/
def State.anyProgram (s : State) : Bool :=
  (List.range 4).any (fun x => (s.ctx x).admitted.isSome || (s.ctx x).running.isSome)

/-- The address of record `i` of the record area that a core reaches (R138). -/
def State.recAddr (s : State) (n i : Nat) : Nat := s.regAddr .morRecBaseLo .morRecBaseHi n 0 + 64 * i

/-! ## Events -/

/-- An MSI-X message of a vector, sent where the table unmasks it and held pending where it masks it (R427, R489). -/
def State.msix (s : State) (v : Nat) : State :=
  let e := AMap.get (0, 0, true) v s.hif.msix
  if e.2.2 then
    (if s.hif.pend.contains v then s else s.setHif { s.hif with pend := s.hif.pend ++ [v] })
  else s.emit (.msix v e.1 e.2.1)

/-- PEND bit `n` set by a cause, with the message of vector 16 + n when it goes from 0 to 1 unmasked (R488, R489). -/
def State.event (s : State) (n : Nat) : State :=
  if natBit (s.reg .gctEvtPend 0 0).toNat n then s
  else
    let s1 := s.orReg .gctEvtPend 0 0 (BitVec.ofNat 32 (2 ^ n))
    if natBit (s.reg .gctEvtMask 0 0).toNat n || !natBit (s.reg .gctCtrl 0 0).toNat 0 then s1 else s1.msix (16 + n)

/-- What keeps an ordinary write out of a unit: an armed or draining Vat-write region of a partition's table, or a retired pseudo-channel of a
stack (R107, R340, R342). -/
inductive Bar where
  | region (p : Nat)
  | retired (st : Nat)
  deriving DecidableEq, Repr

/-- What keeps an ordinary write of the device out of the unit that holds an address. -/
def State.bar (s : State) (a : Nat) : Option Bar :=
  match s.regionAt a with
  | some (p, _) => some (.region p)
  | none => match locOf a with
    | .mem p off => if s.retired a then some (.retired (s.stackOf p off)) else none
    | _ => none

/-- An ordinary write of the device to device memory or a store: units that the memory path bars are left as they are, and `note` records it. -/
def State.barredWrite (s : State) (note : State → Nat → Bar → State) (a : Nat) (b : List Byte) : State :=
  let ps := splitUnits (b.length / 64 + 2) [{ addr := a, data := b }]
  if ps.all (fun p => (s.bar p.addr).isNone) then s.setMem (s.mem.write [{ addr := a, data := b }])
  else ps.foldl (fun s p => match s.bar p.addr with
    | some r => note s p.addr r
    | none => s.setMem (s.mem.write [p])) s

/-- The error bit that a barred write sets: ORD_WRITE or PC_RETIRED. -/
def State.barBit (s : State) (_a : Nat) : Bar → State
  | .region p => s.orReg .memVwrErr p 0 8
  | .retired st => s.orReg .memErr st 0 128

/-- A write of the device to a device physical or host-window address: event queue, log, records. -/
def State.writeBy (note : State → Nat → Bar → State) (s : State) (a : Nat) (b : List Byte) : State :=
  match locOf a with
  | .tier3 w o => match s.t3Host w o with
    | some h => (s.setHost (s.host.write [{ addr := h, data := b }])).emit (.hostWrite h b false)
    | none => s
  | .unmapped => s
  | _ => s.barredWrite note a b

/-- A write of the ERR log, which logs nothing of itself (log entry 117: DESIGN CHOICE). -/
def State.logWrite (s : State) (a : Nat) (b : List Byte) : State := State.writeBy State.barBit s a b

/-- One record of the ERR log (R406). -/
structure ErrRec where
  scope : Nat
  source : Nat
  part : Nat := 0
  devLevel : Bool := false
  slot : Option Nat := none
  inst : Nat := 0
  status : Nat := 0
  addr : Nat := 0
  detail : Nat := 0
  deriving DecidableEq, Repr

/-- The 32 bytes of a log record at a device time (R406). -/
def ErrRec.bytes (r : ErrRec) (now : W64) : List Byte :=
  leBytes 8 now.toNat ++ leBytes 1 r.scope ++ leBytes 1 r.source ++ leBytes 1 (r.part + 4 * bit r.devLevel) ++
  leBytes 1 (match r.slot with
    | some x => x + 4
    | none => 0) ++
  leBytes 2 r.inst ++ leBytes 1 r.status ++ leBytes 1 0 ++ leBytes 8 r.addr ++ leBytes 8 r.detail

/-- A record appended to the ERR ring: SRC set, dropped and counted when the ring is full, MSI-X vector 20 for scopes 1
to 9 (R406, R488, R494). -/
def State.errLog (s0 : State) (r : ErrRec) : State :=
  let s := s0.orReg .errSrc 0 0 (BitVec.ofNat 32 (2 ^ r.source))
  if !natBit (s.reg .errCtrl 0 0).toNat 0 then s
  else
    let size := 64 * 2 ^ s.fld .errLogBaseHi 0 0 19 16
    let head := s.fld .errLogPtr 0 0 13 0
    let tail := s.fld .errLogPtr 0 0 29 16
    if (tail + 1) % size = head % size then (s.bump .errCnt 0 7 1).orReg .errStatus 0 0 1
    else
      let base := s.fld .errLogBaseHi 0 0 15 0 * 2 ^ 32 + s.fld .errLogBaseLo 0 0 31 6 * 64
      let s1 := s.logWrite (base + 32 * tail) (r.bytes s.tim.now)
      let s2 := s1.setFld .errLogPtr 0 0 29 16 ((tail + 1) % size)
      let s3 := s2.setReg .errStatus 0 0 (s2.reg .errStatus 0 0 &&& ~~~1#32)
      if 1 ≤ r.scope then s3.event 4 else s3

/-- A bit of MEM_ERR set; bits 1, 2, 3, 5 and 7 are also reported to the ERR block (SOURCE 0x07), in the record's scope. -/
def State.memErr (s : State) (st b scope addr : Nat) : State :=
  let s1 := s.orReg .memErr st 0 (BitVec.ofNat 32 (2 ^ b))
  if b = 1 ∨ b = 2 ∨ b = 3 ∨ b = 5 ∨ b = 7 then s1.errLog { scope := scope, source := 0x07, part := st / 5, inst := st, addr := addr } else s1

/-- A bit of MEM_VWR_ERR set; bits 0 to 3 are also reported to the ERR block (SOURCE 0x07). -/
def State.vwrErr (s : State) (p b addr : Nat) : State :=
  let s1 := s.orReg .memVwrErr p 0 (BitVec.ofNat 32 (2 ^ b))
  if b ≤ 3 then s1.errLog { scope := 0, source := 0x07, part := p, addr := addr } else s1

/-- A barred write recorded, and reported to the ERR block (R340, R342). -/
def State.barLog (s : State) (a : Nat) : Bar → State
  | .region p => s.vwrErr p 3 a
  | .retired st => s.memErr st 7 0 a

/-- A write of the device to a device physical or host-window address: event queue, records, page-table entries. -/
def State.rawWrite (s : State) (a : Nat) (b : List Byte) : State := State.writeBy State.barLog s a b

/-- A unit of device memory changed by the device itself, where the memory path lets an ordinary write through. -/
def State.rawUnit (s : State) (a : Nat) (f : Mem → Mem) : State :=
  match s.bar a with
  | some r => s.barLog a r
  | none => s.setMem (f s.mem)

/-- A record of the TIM event queue (R327). -/
structure TimRec where
  slot : Nat := 0
  cause : Nat
  extended : Bool := false
  detail : Nat := 0
  oldP : Nat := 0
  newP : Nat := 0
  deriving DecidableEq, Repr

/-- The 32 bytes of a TIM event record. -/
def TimRec.bytes (r : TimRec) (now : W64) : List Byte :=
  leBytes 8 now.toNat ++ leBytes 1 r.slot ++ leBytes 1 r.cause ++ leBytes 1 (bit r.extended) ++ leBytes 1 0 ++
  leBytes 4 r.detail ++ leBytes 8 r.oldP ++ leBytes 8 r.newP

/-- The number of records the TIM event queue holds, its size code apart (TIM_EVQ_BASE_HI). -/
def State.evqSize (s : State) : Nat := 16 * 2 ^ s.fld .timEvqBaseHi 0 0 19 16

/-- Records written to the TIM event queue while it has room; the rest stays held (R327, R494). -/
def State.evqPut : Nat → State → List (List Byte) → State
  | 0, s, l => s.setTim { s.tim with held := l }
  | _, s, [] => s.setTim { s.tim with held := [] }
  | f + 1, s, b :: t =>
    let head := s.fld .timEvqPtr 0 0 11 0
    let tail := s.fld .timEvqPtr 0 0 27 16
    if (tail + 1) % s.evqSize = head % s.evqSize then s.setTim { s.tim with held := b :: t }
    else
      let base := s.fld .timEvqBaseHi 0 0 15 0 * 2 ^ 32 + s.fld .timEvqBaseLo 0 0 31 6 * 64
      let s1 := s.rawWrite (base + 32 * tail) b
      let s2 := s1.setFld .timEvqPtr 0 0 27 16 ((tail + 1) % s.evqSize)
      State.evqPut f (s2.event 8) t

/-- A TIM event record appended: up to 16 further records are held while the queue is full, and EVQ_FULL is set; beyond
that records are dropped (R327). -/
def State.timEvent (s : State) (r : TimRec) : State :=
  let l := s.tim.held ++ [r.bytes s.tim.now]
  let s1 := State.evqPut (l.length + 1) s l
  if s1.tim.held = [] then s1
  else
    let s2 := s1.orReg .timErr 0 0 16
    s2.setTim { s2.tim with held := s2.tim.held.take 16 }

/-! ## Error registers of blocks -/

/-- A bit of VAT_ERR set; bits 1 to 3 are also reported to the ERR block (SOURCE 0x03). -/
def State.vatErr (s : State) (n b scope addr : Nat) : State :=
  let s1 := s.orReg .vatErr n 0 (BitVec.ofNat 32 (2 ^ b))
  if 1 ≤ b ∧ b ≤ 3 then s1.errLog { scope := scope, source := 0x03, part := n / 100, inst := n % 100, addr := addr } else s1

/-- A bit of IND_ERR set; bits 0, 2 and 3 are also reported to the ERR block (SOURCE 0x06). -/
def State.indErr (s : State) (e b : Nat) : State :=
  let s1 := s.orReg .indErr e 0 (BitVec.ofNat 32 (2 ^ b))
  if b ≠ 1 then s1.errLog { scope := 0, source := 0x06, part := e / 12, inst := e } else s1

/-! ## Which blocks of BAR0 answer -/

/-- Bring-up stage (HIF_STATUS.STAGE). -/
def State.stage (s : State) : Nat := s.fld .hifStatus 0 0 2 1

/-- Whether the window of a partition answers: not in reset, RET or OFF, from STAGE 3 on (R485, R493). -/
def State.partOpen (s : State) (p : Nat) : Bool := !(s.part p).resetting && (s.part p).pwr == .idle && decide (3 ≤ s.stage)

/-- Whether unit `u` of a block answers accesses of BAR0 (R3, R440, R458, R485, R491, R493). -/
def State.blkOpen (s : State) (b : Blk) (u : Nat) : Bool :=
  !s.hif.d3hot && (if s.mgmt.recovery then b == .hif || b == .umb
    else match b with
      | .gct | .tim | .hif | .err | .och | .sep | .krm | .umb => decide (1 ≤ s.stage)
      | .link => decide (2 ≤ s.stage) && !(s.part (u / 12)).resetting
      | .stack => decide (2 ≤ s.stage)
      | .part => s.partOpen u
      | .core => s.partOpen (u / 100) && s.coreState u != .fused
      | .ind => s.partOpen (u / 12)
      | .wld =>
        if u < 400 then s.partOpen (u / 100) && s.coreState u != .fused
        else if u < 448 then decide (2 ≤ s.stage) && !(s.part ((u - 400) / 12)).resetting
        else if u < 496 then s.partOpen ((u - 448) / 12)
        else s.partOpen ((u - 496) % 4)
      | .dbg => natBit (s.reg .hifDbgStatus 0 0).toNat 1)

/-- Whether the RWL fields of a block's unit take a write (R7, R486). -/
def State.lockOpen (s : State) (b : Blk) (u : Nat) : Bool :=
  match b.lock u with
  | some l => AMap.get false l s.unlocked
  | none => true

/-! ## Core registers -/

/-- Scalar register `r` with its poison; s0 reads zero (R246). -/
def Core.sreg (c : Core) (r : Nat) : W64 × Bool := if r = 0 then (0, false) else AMap.get (0, false) r c.s
/-- Predicate register `r` with its poison; p0 reads all ones (R246). -/
def Core.preg (c : Core) (r : Nat) : W64 × Bool := if r = 0 then (BitVec.allOnes 64, false) else AMap.get (0, false) r c.p
/-- The lanes of vector register `r`. -/
def Core.vreg (c : Core) (r : Nat) : List Lane := AMap.get lanes0 r c.v
/-- Lane `l` of vector register `r`. -/
def Core.lane (c : Core) (r l : Nat) : Lane := (c.vreg r).getD l (0, false)
/-- Descriptor register `r` with its poison. -/
def Core.treg (c : Core) (r : Nat) : BitVec 256 × Bool := AMap.get (0, false) r c.t

/-- One register write performed; s0 and p0 ignore writes (R246). -/
def Core.putReg (c : Core) : RegW → Core
  | .s r v po => if r = 0 then c else { c with s := AMap.put (0, false) r (v, po) c.s }
  | .p r v po => if r = 0 then c else { c with p := AMap.put (0, false) r (v, po) c.p }
  | .v r l => { c with v := AMap.put lanes0 r l c.v }
  | .t r d po => { c with t := AMap.put (0, false) r (d, po) c.t }
  | .level v => { c with level := v }

/-- Register writes performed in order. -/
def Core.putRegs (c : Core) (l : List RegW) : Core := l.foldl Core.putReg c

/-- The register that a write names, as a file and a number. -/
def RegW.key : RegW → Nat × Nat
  | .s r _ _ => (0, r)
  | .p r _ _ => (1, r)
  | .v r _ => (2, r)
  | .t r _ _ => (3, r)
  | .level _ => (4, 0)

/-- Whether two writes of a list name one register (R244). -/
def clash : List RegW → Bool
  | [] => false
  | w :: t => t.any (fun x => x.key == w.key) || clash t

end Sys2Proof.Machine
end

