-- ==== Sys2Proof/Machine/Ferdo.lean ====
section
/-! DEFINITION. The Ferdo wire: flit headers, flit slots with their CRC, the blocks of the flit stream, and the credits that a port returns
(R353 to R356, R360). -/

namespace Sys2Proof

/-! ## Received headers and messages -/

/-- TYPE of a received header (R355). -/
def FlitHead.typ (h : FlitHead) : Nat := bitsOf h.bits 3 0
/-- Traffic class. -/
def FlitHead.tc (h : FlitHead) : Nat := bitsOf h.bits 5 4
/-- SEQ of a sequenced flit. -/
def FlitHead.seq (h : FlitHead) : Nat := bitsOf h.bits 16 7
/-- ACK: the last sequenced flit that the sender has received good. -/
def FlitHead.ack (h : FlitHead) : Nat := bitsOf h.bits 26 17
/-- Traffic class of the returned credits. -/
def FlitHead.crdTc (h : FlitHead) : Nat := bitsOf h.bits 28 27
/-- Credits returned, in units of 8 entries. -/
def FlitHead.crdN (h : FlitHead) : Nat := bitsOf h.bits 31 29

/-- Flits of a chunk message in a receive buffer. -/
def CollMsg.flits (g : CollMsg) : Nat := 1 + ceilDiv g.elems.length 32

/-- DATA flits of a message taken flit by flit. -/
def RawMsg.ndata (g : RawMsg) : Nat := ceilDiv g.data.length 64

end Sys2Proof

namespace Sys2Proof.Machine

/-! ## Ports -/

/-- LNK_STATUS.STATE. -/
def State.linkState (s : State) (n : Nat) : Nat := s.fld .lnkStatus n 0 2 0
/-- Whether a link is UP or UP_HALF. -/
def State.linkUp (s : State) (n : Nat) : Bool := decide (n < 48) && (s.linkState n == 2 || s.linkState n == 3)

/-! ## Headers -/

/-- Bits packed into a word, each at its place. -/
def packBits (l : List (Nat × Nat)) : W32 := BitVec.ofNat 32 ((l.map (fun e => e.1 * 2 ^ e.2)).foldl (· + ·) 0)

/-- The header of a flit as it leaves (R355): TYPE, TC, POISON, SEQ, ACK, CRD_TC, CRD_N. An unsequenced flit has SEQ 0 (log entry 134: DESIGN
CHOICE). -/
def headBits (seq : Option Nat) (f : Flit) (ack : Nat) (crd : Nat × Nat) : W32 :=
  packBits [(f.typ % 16, 0), (f.tc % 4, 4), (bit f.po, 6), (seq.getD 0 % 1024, 7), (ack % 1024, 17), (crd.1 % 4, 27), (crd.2 % 8, 29)]

/-! ## Flit slots -/

/-- The 72 bytes of a flit slot: the header, the payload, and the CRC-32 over both, little-endian (R353, R354). -/
def slotBytes (seq : Option Nat) (f : Flit) (ack : Nat) (crd : Nat × Nat) : List Byte :=
  let b := leBytes 4 (headBits seq f ack crd).toNat ++ f.payload
  b ++ leBytes 4 (crc32 b).toNat

/-- Bytes of the flit stream from a place in a codeword on, as its 257-bit blocks carry them: a marker bit stands before each 32 bytes, 1 in the
first of the 20 blocks of a codeword (R353). -/
def onWire (phase : Nat) (b : List Byte) : List (Option Bool × Byte) :=
  b.zipIdx.map (fun e => (if (phase + e.2) % 32 = 0 then some ((phase + e.2) % 640 == 0) else none, e.1))

/-- Whether a slot leaves that starts a codeword. -/
def State.emitSlot (s : State) (n : Nat) (seq : Option Nat) (f : Flit) (ack : Nat) (crd : Nat × Nat) : State :=
  let l := s.link n
  (s.setLink n { l with phase := (l.phase + 72) % 640 }).emit (.slot n (onWire l.phase (slotBytes seq f ack crd)))

/-- 64 zero bytes, the payload of IDLE and NAK (R356). -/
def noPayload : List Byte := List.replicate 64 0

/-! ## Returned credits -/

/-- The ACK of a header that the port sends: the last sequenced flit received good (R355). -/
def Link.ackOut (l : Link) : Nat := (l.expSeq + 1023) % 1024

/-- The credits that a header returns: a class with 8 or more entries to return (R360). -/
def Link.crdOut (l : Link) : Nat × Nat :=
  match [0, 1, 2, 3].find? (fun t => decide (8 ≤ AMap.get 0 t l.toReturn)) with
  | some t => (t, min 7 (AMap.get 0 t l.toReturn / 8))
  | none => (0, 0)

/-- The link after a header has returned those credits. -/
def Link.crdTaken (l : Link) : Link :=
  let c := l.crdOut
  { l with toReturn := AMap.put 0 c.1 (AMap.get 0 c.1 l.toReturn - 8 * c.2) l.toReturn }

/-- An unsequenced flit leaves a port. -/
def State.sendPlain (s : State) (n : Nat) (f : Flit) : State :=
  let l := s.link n
  (s.setLink n l.crdTaken).emitSlot n none f l.ackOut l.crdOut

/-- IDLE: ACK and credits with no other flit ready (R356). -/
def State.sendIdle (s : State) (n : Nat) : State := s.sendPlain n { typ := 0, tc := 0, payload := noPayload }

/-- Entries of a receive buffer that have become free to return (R360). -/
def State.freeEntries (s : State) (n tc k : Nat) : State :=
  let l := s.link n
  s.setLink n { l with toReturn := AMap.put 0 tc (AMap.get 0 tc l.toReturn + k) l.toReturn }

/-- Entries freed on a port that has nothing to send: IDLE returns them once they make a credit (R356, R360). -/
def State.returnEntries (s : State) (n tc k : Nat) : State :=
  let s1 := s.freeEntries n tc k
  if s1.linkUp n && decide (0 < (s1.link n).crdOut.2) then s1.sendIdle n else s1

/-- Entries that a forwarded message still holds in the receive buffer of its input link, returned (R360, R364). -/
def State.returnOf (s : State) (m : OutMsg) : State :=
  match m.fwd with
  | none => s
  | some p => if p.1 < 48 then s.returnEntries p.1 m.tc m.flits.length else s

/-- Entries of a class in use in the receive buffer of a link: by messages that go on over other links, and by chunks that wait for their stage. -/
def State.inUse (s : State) (n tc : Nat) : Nat :=
  let fwd := fun (m : OutMsg) => if m.tc = tc ∧ (m.fwd.map (fun p => p.1)) = some n then m.flits.length else 0
  let sum := fun (l : List Nat) => l.foldl (· + ·) 0
  sum ((List.range 48).map (fun i => sum ((s.link i).queue.map fwd))) + (if tc = 1 then sum ((s.link n).chunks.map (fun g => g.flits)) else 0)

end Sys2Proof.Machine
end

