-- ==== Sys2Proof/Machine/Status.lean ====
section
/-! DEFINITION. What a status does: the abort of epochs, the end of a context and its drain, and the completion entries
of commands (R252, R253, R258, R301, R437). -/

namespace Sys2Proof.Machine

/-! ## Status codes (R300 and the chapters that name them) -/

/-- POISON_CONSUMED. -/
def stPoison : Nat := 0x01
/-- SDC_MISMATCH. -/
def stSdc : Nat := 0x02
/-- DEADLINE_OVERRUN. -/
def stOverrun : Nat := 0x03
/-- ADMISSION_REJECT. -/
def stReject : Nat := 0x04
/-- RESTORE_INCOMPATIBLE. -/
def stIncompat : Nat := 0x05
/-- FALLBACK_EXHAUSTED. -/
def stExhausted : Nat := 0x06
/-- PAGE_FAULT. -/
def stPage : Nat := 0x07
/-- LINK_TIMEOUT. -/
def stLink : Nat := 0x08
/-- PARTITION_RESET. -/
def stReset : Nat := 0x09
/-- CHECKPOINT_INVALID. -/
def stCkpt : Nat := 0x0A
/-- DIGEST_MISMATCH. -/
def stDigest : Nat := 0x0B
/-- TRIPLE_DISAGREE. -/
def stTriple : Nat := 0x0C
/-- ILLEGAL_INSTRUCTION. -/
def stIllegal : Nat := 0x0D
/-- ALIGNMENT. -/
def stAlign : Nat := 0x0E

/-! ## Completion entries -/

/-- The device's side of a queue pair. -/
def State.queue (s : State) (q : Nat) : Queue := AMap.get {} q s.hif.queues
/-- The queue pair replaced. -/
def State.setQueue (s : State) (q : Nat) (v : Queue) : State := s.setHif { s.hif with queues := AMap.put {} q v s.hif.queues }

/-- Entries of the completion queue of a pair. -/
def State.cqSize (s : State) (q : Nat) : Nat := 2 ^ s.fld .hifQCfg 0 q 7 4
/-- Entries of the submission queue of a pair. -/
def State.sqSize (s : State) (q : Nat) : Nat := 2 ^ s.fld .hifQCfg 0 q 3 0

/-- Whether the completion queue is full (R494). -/
def State.cqFull (s : State) (q : Nat) : Bool :=
  ((s.queue q).cqTail + 1) % s.cqSize q == s.fld .hifCqDb 0 q 11 0 % s.cqSize q

/-- The 32 bytes of a completion entry (R437). -/
def Cpl.bytes (c : Cpl) (phase : Bool) (head : Nat) : List Byte :=
  leBytes 2 c.cid.toNat ++ leBytes 1 (bit phase) ++ leBytes 1 c.result ++ leBytes 1 c.status ++ leBytes 1 c.reason ++
  leBytes 2 head ++ leBytes 8 0 ++ leBytes 8 c.v0 ++ leBytes 8 c.v1

/-- A completion entry posted: written to host memory with the phase of this pass, vector q raised with IEN set (R433,
R437, R495); held while the queue is full (R494); discarded where the pair's EN is clear (R436). -/
def State.complete (s : State) (c : Cpl) : State :=
  if 16 ≤ c.q ∨ !natBit (s.reg .hifQCfg 0 c.q).toNat 9 then s
  else if s.cqFull c.q then s.setHif { s.hif with held := s.hif.held ++ [c] }
  else
    let q := s.queue c.q
    let addr := s.fld .hifCqBaseHi 0 c.q 31 0 * 2 ^ 32 + s.fld .hifCqBaseLo 0 c.q 31 12 * 2 ^ 12 + 32 * q.cqTail
    let b := c.bytes q.phase q.sqHead
    let s1 := (s.setHost (s.host.write [{ addr := addr, data := b }])).emit (.completion c.q b)
    let t := (q.cqTail + 1) % s.cqSize c.q
    let s2 := s1.setQueue c.q { q with cqTail := t, phase := if t = 0 then !q.phase else q.phase }
    if natBit (s2.reg .hifQCfg 0 c.q).toNat 8 then s2.msix c.q else s2

/-! ## Page-table entries and pins -/

/-- A page-table entry as a number (R213). -/
def State.pte (s : State) (a : Nat) : Nat := s.devNum a 8

/-- Bits `hi : lo` of a page-table entry written. -/
def pteSet (p hi lo v : Nat) : Nat :=
  p - natBits p hi lo * 2 ^ lo + v % 2 ^ (hi + 1 - lo) * 2 ^ lo

/-- FRAME as an address. -/
def pteFrame (p : Nat) : Nat := natBits p 39 0 * 256
/-- TIER. -/
def pteT3 (p : Nat) : Bool := natBit p 40
/-- PRESENT. -/
def ptePresent (p : Nat) : Bool := natBit p 41
/-- GEN. -/
def pteGen (p : Nat) : Nat := natBits p 49 42
/-- PIN. -/
def ptePin (p : Nat) : Nat := natBits p 55 50

/-- LAST_USE of the present device time (R213). -/
def State.useNow (s : State) : Nat := s.tim.now.toNat / 2 ^ 24 % 256

/-- A page-table entry stored. -/
def State.putPte (s : State) (a p : Nat) : State := s.rawWrite a (leBytes 8 p)

/-- Bytes of a frame of an engine's pools. -/
def State.frameBytes (s : State) (e : Nat) : Nat := 256 * s.fld .indPoolCfg e 0 9 0

/-- Frames of an array of frames by address. -/
def frameList (base size n : Nat) : List Nat := (List.range n).map (fun k => base + k * size)

/-- Frames of an engine's pools, tier 0 or tier 3 (R226). -/
def State.poolFrames (s : State) (e : Nat) (t3 : Bool) : List Nat :=
  if t3 then frameList (s.fld .indT3 e 0 27 0 * 2 ^ 20) (s.frameBytes e) (s.fld .indPoolCfg e 0 31 16)
  else frameList (s.fld .indPool e 0 27 0 * 2 ^ 20) (s.frameBytes e) (s.fld .indDevFrames e 0 15 0)

/-- A frame returned to a pool of its engine. -/
def Ind.freeFrame (e : Ind) (t3 : Bool) (f : Nat) : Ind :=
  if t3 then { e with t3Free := e.t3Free ++ [f] } else { e with devFree := e.devFree ++ [f] }

/-- A frame given up: it returns to its pool, where it is a frame of that pool (R224, R226). -/
def State.giveFrame (s : State) (h : Nat) (e : Ind) (t3 : Bool) (f : Nat) : Ind :=
  if (s.poolFrames h t3).contains f then e.freeFrame t3 f else e

/-- A staged page whose PIN is 0 promoted: FRAME the staged frame, TIER 0, GEN + 1, the tier-3 frame back in its pool
(R229). -/
def State.promote (s : State) (h : Nat) (a : Nat) : State :=
  match (s.ind h).staging.find? (fun g => g.pte == a && g.ready && g.gen == pteGen (s.pte a)) with
  | none => s
  | some g =>
    let p := s.pte a
    if ptePin p ≠ 0 then s
    else
      let p1 := pteSet (pteSet (pteSet p 39 0 (g.dst / 256)) 40 40 0) 49 42 (pteGen p + 1)
      let e := s.giveFrame h (s.ind h) true g.src
      (s.setInd h { e with staging := e.staging.filter (fun x => x != g) }).putPte a p1

/-- The retire record that an unpin of a page lowers (R218, R224). -/
def State.retireOf (s : State) (h : Nat) (w : WalkPage) : Option Retire :=
  if pteGen (s.pte w.pte) = w.gen then none else (s.ind h).retire.find? (fun r => r.frame == w.frame && r.tier3 == w.tier3)

/-- One page unpinned, with LAST_USE written (R218, R224): the PTE's PIN falls when its GEN is the recorded one, else the count of the retire
record of the recorded frame; a frame whose last pin goes returns to its pool, and with it a staged copy of the old mapping. -/
def State.unpin (s : State) (h : Nat) (w : WalkPage) : State :=
  let p := s.pte w.pte
  if pteGen p = w.gen then
    let p1 := pteSet (pteSet p 55 50 (ptePin p - 1)) 63 56 s.useNow
    (s.putPte w.pte p1).promote h w.pte
  else
    let s := s.putPte w.pte (pteSet p 63 56 s.useNow)
    let e := s.ind h
    match s.retireOf h w with
    | none => s
    | some r =>
      if r.count ≤ 1 then
        let stale := e.staging.filter (fun g => g.pte == w.pte && g.gen == w.gen)
        let e1 : Ind := { e with retire := e.retire.filter (fun x => x != r), staging := e.staging.filter (fun g => !stale.contains g) }
        s.setInd h (s.giveFrame h (stale.foldl (fun (e : Ind) g => e.freeFrame false g.dst) e1) r.tier3 r.frame)
      else s.setInd h { e with retire := e.retire.map (fun x => if x = r then { r with count := r.count - 1 } else x) }

/-- A walk ended before its last release: every page still pinned is unpinned (R220, R252). -/
def State.endWalk (s : State) (eng : Nat) (w : Walk) : State :=
  let s1 := (w.list.zipIdx.filter (fun p => !w.rel.contains p.2)).foldl (fun s p => s.unpin w.home p.1) s
  let e := s1.ind eng
  s1.setInd eng { e with walks := e.walks.filter (fun x => x != w) }

/-- The walks and waiting requests of a core whose tags satisfy a test, ended. -/
def State.endWalks (s : State) (n : Nat) (tags : Nat → Bool) : State :=
  let eng := n / 100 * 12
  (List.range 12).foldl (fun s i =>
    let e := s.ind (eng + i)
    let mine : Nat → List Byte → Bool := fun c r => c == n && tags (ofLeBytes ((r.drop 24).take 1))
    let s1 := s.setInd (eng + i) { e with waiting := e.waiting.filter (fun q => !mine q.core q.req) }
    (e.walks.filter (fun w => mine w.core w.req)).foldl (fun s w => s.endWalk (eng + i) w) s1) s

/-! ## Epochs aborted -/

/-- Vat undo records written back, youngest record last in the list (R102, R258). -/
def Core.undoVat (c : Core) : List VatUndo → Core
  | [] => c
  | u :: t =>
    let ps := (List.range 64).map (fun i => ({ addr := 0x400000 + 4096 * u.tile + 64 * i
                                               data := (u.data.drop (64 * i)).take 64, po := u.po.getD i false } : Piece))
    Core.undoVat { c with loc := c.loc.write ps, vat := AMap.put {} u.tile u.tag c.vat } t

/-- The registers of a snapshot restored (R258). -/
def Core.restoreSnap (c : Core) (p : Snap) : Core :=
  { c with s := p.s, p := p.p, v := p.v, t := p.t, level := p.level }

/-- The epochs of a core from the first one of some runs onward: those before it, and the aborted ones, oldest first. -/
def splitEpochs (runs : List Run) : List Epoch → List Epoch × List Epoch
  | [] => ([], [])
  | e :: t => if runs.contains e.run then ([], e :: t) else let r := splitEpochs runs t; (e :: r.1, r.2)

/-- The runs that the abort of some runs aborts: on each core, every run from the first of them onward, and so on until no further run is
younger than one of them on any core; `f` bounds the rounds (R148, R258, log entry 30: DEDUCED). -/
def goneRuns (cores : List (List Epoch)) : Nat → List Run → List Run
  | 0, l => l
  | f + 1, l =>
    let m := cores.flatMap (fun es => ((splitEpochs l es).2).map (fun e => e.run))
    if m.all (fun r => l.contains r) then l else goneRuns cores f (l ++ m.filter (fun r => !l.contains r))

/-- The epochs `gone` of a core dropped (R258): instructions in flight and held writes discarded, bank sets that they opened
closed, Vat undo restored, deltas, sample buffers and digests discarded. -/
def Core.dropEpochs (c : Core) (keep gone : List Epoch) : Core :=
  let tags := gone.map (fun e => e.tag)
  let c1 := c.undoVat (gone.reverse.flatMap (fun e => e.undo))
  let hit : Option Nat → Bool := fun t => match t with
    | some g => tags.contains g
    | none => false
  { c1 with
    epochs := keep
    cur := if hit c1.cur then none else c1.cur
    word := []
    wait := .none
    xfers := c1.xfers.filter (fun t => !hit t.tag)
    woaSets := c1.woaSets.filter (fun b => !hit b.epoch)
    madSets := c1.madSets.filter (fun b => !hit b.epoch)
    cf := c1.cf.filter (fun e => !hit e.tag)
    samples := c1.samples.filter (fun b => !hit b.tag)
    digests := c1.digests.filter (fun d => !(gone.map (fun e => e.run)).contains d.run)
    selTiles := c1.selTiles.filter (fun d => !(gone.map (fun e => e.run)).contains d.1)
    fins := c1.fins.filter (fun d => !(gone.map (fun e => e.run)).contains d.run)
    walks := c1.walks.filter (fun w => !hit w.tag) }

/-- The abort of some runs and every younger epoch on one core: issue resumes at the restart address with the snapshot of the
oldest aborted epoch (R258). -/
def State.abortOn (s : State) (n : Nat) (runs : List Run) : State :=
  let c := s.core n
  match (splitEpochs runs c.epochs).2 with
  | [] => s
  | e :: t =>
    let tags := (e :: t).map (fun e => e.tag)
    let hit : Option Nat → Bool := fun t => match t with
      | some g => tags.contains g
      | none => false
    let wts := (c.walks.filter (fun w => hit w.tag)).map (fun w => w.wtag)
    let s1 := s.endWalks n (fun t => wts.contains t)
    let c1 := ((s1.core n).dropEpochs (splitEpochs runs c.epochs).1 (e :: t)).restoreSnap e.snap
    s1.setCore n { c1 with pc := e.restart, halted := false }

/-- The abort of a run on every core of its context; the verdict core discards the deltas and digests of the aborted runs
(R258). -/
def State.abortRun (s : State) (x : Nat) (run : Run) : State :=
  let open_ := (s.ctxCores x).map (fun n => (s.core n).epochs)
  let gone := goneRuns open_ ((open_.map List.length).foldl (· + ·) 0) [run]
  let s1 := (s.ctxCores x).foldl (fun s n => s.abortOn n gone) s
  let c := s1.ctx x
  s1.setCtx x { c with fins := c.fins.filter (fun f => !gone.contains f.run)
                       digs := c.digs.filter (fun d => !gone.contains d.run) }

/-! ## The end of a context -/

/-- A Sepia save abandoned under R418 with a bit of SEP_ERR: its target keeps a zeroed manifest. -/
def State.abandonSave (s : State) (b : Nat) : State :=
  match s.sep.save with
  | none => s
  | some v =>
    let s1 := (s.setSep { s.sep with save := none }).orReg .sepErr 0 0 (BitVec.ofNat 32 (2 ^ b))
    let s2 := (s1.bump .sepCnt 0 1 1).setFld .sepStatus 0 0 4 0 0
    (s2.errLog { scope := if b = 1 then 1 else 0, source := 0x12, slot := some v.slot }).event 6

/-- The units of a job that are not written, written poisoned, and the job closed (R121); their bytes are left as they
are (log entry 31: DEDUCED). A unit that the memory path refuses is not written (R107, R340, R342). -/
def State.poisonJob (s : State) (p : Nat) (j : Job) : State :=
  let us := (List.range j.units).filter (fun u => !j.written.contains u)
  let s1 := us.foldl (fun s u => s.rawUnit (64 * (j.dest / 64 + u)) (fun m => m.setPo (j.dest / 64 + u) true)) s
  let q := s1.part p
  s1.setPart p { q with jobs := q.jobs.filter (fun k => k.desc != j.desc) }

/-- Every open collector job of a context closed poisoned (R121, R252). -/
def State.poisonJobs (s : State) (x : Nat) : State :=
  (partsOf (s.ctx x).parts).foldl (fun s p =>
    ((s.part p).jobs.filter (fun j => j.slot == x)).foldl (fun s j => s.poisonJob p j) s) s

/-- A program admitted and not launched withdrawn with a reason: its promise reads zero, and a WITHDRAWN event is recorded
(R325, R327). -/
def State.withdraw (s : State) (x reason detail : Nat) : State :=
  match (s.ctx x).admitted with
  | none => s
  | some g =>
    let s1 := s.setCtx x { s.ctx x with admitted := none }
    let s2 := s1.bump .timCnt 0 4 1
    s2.timEvent { slot := x, cause := 0x0E, detail := reason + detail, oldP := g.p, newP := g.p }

/-- The links' engines abandon the handles of a context and discard the flits that they hold for them, whose entries go back (R360, R379). -/
def State.abandonColls (s : State) (x : Nat) : State :=
  let s1 := (List.range 48).foldl (fun s n =>
    let l := s.link n
    let mine := l.inv.map (fun i => if i.slot = x then { i with abandoned := true, queue := [] } else i)
    let l1 : Link := { l with inv := mine, invq := l.invq.filter (fun i => i.slot != x), chunks := l.chunks.filter (fun g => g.slot.val != x) }
    let lost : Nat := ((l.chunks.filter (fun g => g.slot.val == x)).map (fun g => g.flits)).foldl (· + ·) 0
    if l1 = l then s else if lost = 0 then s.setLink n l1 else (s.setLink n l1).returnEntries n 1 lost) s
  let c := s1.ctx x
  s1.setCtx x { c with colls := c.colls.map (fun e => (e.1, { e.2 with live := false, gated := false, twinWait := false, abandoned := e.2.live || e.2.abandoned })) }

/-- The Vat-writes among instructions that commits have released. -/
def releasedVat (l : List HeldIns) : List VatW :=
  l.flatMap (fun h => match h.h with
    | .vatWrite w => w
    | _ => [])

/-- What the drain does on one core: every epoch aborts as R258 has it, bank sets close, walks are cancelled, the Vat is discarded;
Vat-writes already issued, or released by a commit, stay on their way (R110, R252). -/
def State.drainCore (s : State) (n : Nat) : State :=
  let s1 := (s.abortOn n ((s.core n).epochs.map (fun e => e.run))).endWalks n (fun _ => true)
  let c := s1.core n
  s1.setCore n { c with cur := none, woaSets := [], madSets := [], vat := [], parts := [], cf := [], samples := [],
                        digests := [], selTiles := [], fins := [], walks := [], xfers := [], lsendOut := 0, rel := [], halted := false
                        word := [], wait := .none, vwq := c.vwq ++ releasedVat c.rel }

/-- A context ends with a status other than OK and drains (R252, R253, R301, R490). A status that arises while it is
already draining or halted is logged and does not replace the reported one. `src` is the SOURCE code of the log. -/
def State.endContext (s : State) (x : Nat) (r : StatusRec) (src : Nat) : State :=
  let c := s.ctx x
  let log := fun (s : State) => s.errLog { scope := 2, source := src, part := r.part, slot := some x, inst := r.pcore, status := r.status }
  match c.st with
  | .free => s
  | .draining => log s
  | .halted => log s
  | _ =>
    let s1 := s.setCtx x { c with st := .draining, status := r.status, fault := { r with time := s.tim.now } }
    let s2 := (s1.ctxCores x).foldl (fun s n => s.drainCore n) s1
    let s3 := s2.poisonJobs x
    let s4 := s3.withdraw x 0x08 0
    let s5 := s4.abandonColls x
    let c5 := s5.ctx x
    let s6 := match c5.save with
      | some q => (q :: c5.saveq).foldl (fun (s : State) (q : SaveReq) => s.complete { q := q.q, cid := q.cid, result := 3, status := r.status, reason := 0, v0 := 0, v1 := 0 }) s5
      | none => s5
    let s7 := if c5.arb.state ≠ 0 then
        (s6.ctxCores x).foldl (fun s n =>
          if s.ctxCore x n = c5.arb.x ∨ s.ctxCore x n = c5.arb.y then s.setCore n { s.core n with testReq := true } else s) s6
      else s6
    let s8 := s7.setCtx x { s7.ctx x with running := none, replayCert := c5.running.map (fun g => g.certAddr), save := none, saveq := [], chans := [], sending := [], fins := [], digs := [],
                                          arb := {}, boundary := false }
    log (if r.status = stPoison then s8.bump .errCnt 0 1 1 else s8)

/-- A status that a device mechanism raises (R490: VALID 0). -/
def State.endBy (s : State) (x status src : Nat) : State := s.endContext x { status := status } src

/-! ## Statuses of instructions -/

/-- The record of a status that the instruction at a word of core `n` raises, in the epoch of a tag (R301). -/
def State.statusAt (s : State) (n : Nat) (word : BitVec 12) (tag : Option Nat) (code slot op : Nat) (atIssue : Bool)
    (other : Nat := 0) : StatusRec :=
  { status := code, part := n / 100, pcore := n % 100, lcore := (s.lcore n).getD 0, word := word, slot := slot, op := op,
    epoch := tag.getD 0, inEpoch := tag.isSome, atIssue := atIssue, valid := true, other := other }

/-- The instruction at a word raises a status. Outside any epoch the context ends. In an open epoch the epoch and every younger one
abort on every core of the context, and the status is not reported, since that epoch does not commit (R258, R301, log entry 30: DEDUCED). -/
def State.raiseAt (s : State) (n x : Nat) (word : BitVec 12) (tag : Option Nat) (code slot op : Nat) (atIssue : Bool) (src : Nat)
    (other : Nat := 0) : State :=
  let c := s.core n
  let r := s.statusAt n word tag code slot op atIssue other
  match c.epochs.find? (fun e => some e.tag == tag) with
  | none => s.endContext x r src
  | some e => s.abortRun x e.run

/-- The record of a status of the instruction that core `n` issues (R301). -/
def State.statusRec (s : State) (n code slot op : Nat) (atIssue : Bool) : StatusRec :=
  s.statusAt n (s.core n).pc (s.core n).cur code slot op atIssue

/-- The instruction that core `n` issues raises a status. -/
def State.raise (s : State) (n x code slot op : Nat) (atIssue : Bool) : State :=
  s.raiseAt n x (s.core n).pc (s.core n).cur code slot op atIssue 0x0B

end Sys2Proof.Machine
end

