-- ==== Sys2Proof/Machine/Regulator.lean ====
section
/-! DEFINITION. The regulator bus, the VCORE targets, and the power states of a partition (R456, R457, R465, R469, R470). -/

namespace Sys2Proof.Machine

/-! ## The regulator bus -/

/-- A PMBus command to the regulator of VCORE of a partition, at 7-bit address 0x40 + p (R469). -/
def State.pmbus (s : State) (p : Nat) (op : PmOp) : State := s.emit (.pmbus (0x40 + p) op)

/-- The targets on the way from one to another, in steps of 5 mV, with fuel (R470). -/
def rampTo : Nat → Nat → Nat → List Nat
  | 0, _, _ => []
  | f + 1, v, t =>
    if v = t then [] else
      let n := if v < t then min t (v + 5) else max t (v - 5)
      n :: rampTo f n t

/-- The target of VCORE of a partition set: the format is read, the steps are commanded, and the output and its status are read (R469, R470; the reads
are log entry 137: DESIGN CHOICE). -/
def State.setVcore (s : State) (p mv : Nat) : State :=
  let q := s.part p
  let ops := PmOp.voutMode :: (rampTo (q.mv + mv) q.mv mv).map PmOp.voutCommand ++ [.readVout, .readIout, .statusWord]
  (ops.foldl (fun s o => s.pmbus p o) s).setPart p { q with mv := mv }

/-! ## Power states -/

/-- What a core keeps of a reset or an OFF that loses the rest: its test data and the Vat-writes in flight (R110, R388, R449, R457). -/
def Core.testOnly (c : Core) : Core := { vwq := c.vwq, vwAck := c.vwAck, suspect := c.suspect, owed := c.owed, pass := c.pass, lastTest := c.lastTest }

/-- The partition store of a partition zeroed, with poison clear (R385). -/
def State.clearStore (s : State) (p : Nat) : State := s.setMem (s.mem.clearRange (storeAddr p 0) (storeAddr p 0 + 0xC000000))

/-- The stacks of a partition in or out of self-refresh. -/
def State.refresh (s : State) (p : Nat) (on : Bool) : State :=
  (List.range 5).foldl (fun s i => s.setStack (5 * p + i)
    (if on then { s.stack (5 * p + i) with selfRefresh := true } else { s.stack (5 * p + i) with selfRefresh := false, lastAccess := s.tim.now })) s

/-- A partition in OFF: OPERATION off is commanded, its stacks go to self-refresh, and the stores and what else stands in its cores but test data are
lost (R456, R457, R470). -/
def State.enterOff (s : State) (p : Nat) : State :=
  let s1 := (s.pmbus p (.operation false)).setPart p { s.part p with pwr := .off, waking := false, mv := 0 }
  (List.range 100).foldl (fun s i => s.setCore (100 * p + i) (s.core (100 * p + i)).testOnly) ((s1.refresh p true).clearStore p)

/-- A regulator that does not answer or reports a fault leaves its partition in OFF, logged with SOURCE 0x11 and a SCOPE that no rule gives (R470, log
entry 137: DESIGN CHOICE). -/
def State.vcoreFails (s : State) (p : Nat) : State :=
  let scope := (Config.freeValue 8 s.free).toNat
  (s.draw.enterOff p).errLog { scope := scope, source := 0x11, part := p, inst := p }

/-- A partition enters RET or OFF (R456, R470): in RET its target is 0.55 V. -/
def State.enterLow (s : State) (p : Nat) (off : Bool) : State :=
  if off then s.enterOff p
  else if (s.part p).regBad then s.vcoreFails p
  else
    let s1 := s.setVcore p 550
    (s1.setPart p { s1.part p with pwr := .ret, waking := false }).refresh p true

/-- VCORE of a partition at the target of its fused table (R470); out of OFF the regulator is turned on at 0.75 V (log entry 137). -/
def State.vcoreUp (s : State) (p : Nat) : State :=
  let s1 := if (s.part p).pwr = .off then (s.pmbus p (.operation true)).setPart p { s.part p with mv := 750 } else s
  s1.setVcore p (Config.fusedVoltage p)

/-- A partition leaves RET or OFF for IDLE: its target rises, its stacks leave self-refresh, and the wake is counted (R456, R457, R470). -/
def State.wakePart (s : State) (p : Nat) : State :=
  if (s.part p).pwr = .idle then s
  else if (s.part p).regBad then s.vcoreFails p
  else
    let s1 := s.vcoreUp p
    ((s1.setPart p { s1.part p with pwr := .idle, waking := false }).bump .umbCnt 0 5 1).refresh p false

/-- The targets of every partition set at bring-up, before its power gates open (R459, R470). -/
def State.bringUpVcore (s : State) : State :=
  (List.range 4).foldl (fun s p => if (s.part p).regBad then s.vcoreFails p else s.vcoreUp p) s

end Sys2Proof.Machine
end

