-- ==== Sys2Proof/Machine/Units.lean ====
section
/-! DEFINITION. Units with a fast clock of their own: SLEEP, wakes and the windows of the launch table (R315, R319, R454). -/

namespace Sys2Proof.Machine

/-- The physical partition of a certificate's PART (R317): the PART-th of the context's. -/
def State.physPart (s : State) (x part : Nat) : Option Nat := (partsOf (s.ctx x).parts)[part]?

/-- A unit with a fast clock: unit `u` of a core, an Indigo engine, a link engine. -/
inductive UnitRef where
  | core (n u : Nat)
  | ind (e : Nat)
  | link (n : Nat)
  deriving DecidableEq, Repr

/-- The unit that an operand names. -/
def unitRef : UnitId → UnitRef
  | .core k => .core k.key 0
  | .woad k a => .core k.key (1 + a.val)
  | .madder k a => .core k.key (3 + a.val)
  | .mordant k => .core k.key 7
  | .indigo e => .ind e.val
  | .link n => .link n.val

/-- The partition of a unit. -/
def UnitRef.part : UnitRef → Nat
  | .core n _ => n / 100
  | .ind e => e / 12
  | .link n => n / 12

/-- Whether a unit is in SLEEP. -/
def State.sleeping (s : State) : UnitRef → Bool
  | .core n u => !AMap.get false u (s.core n).awake
  | .ind e => !(s.ind e).awake
  | .link n => !(s.link n).awake

/-- A unit put to sleep or awake. -/
def State.setSleep (s : State) (u : UnitRef) (b : Bool) : State :=
  match u with
  | .core n i => s.setCore n { s.core n with awake := AMap.put false i (!b) (s.core n).awake }
  | .ind e => s.setInd e { s.ind e with awake := !b }
  | .link n => s.setLink n { s.link n with awake := !b }

/-- A unit wake from SLEEP counted, of which UMB_CNT shows units of 2¹⁶. -/
def State.wakeCount (s : State) : State := s.setPwr { s.pwr with wakes := s.pwr.wakes + 1 }

/-- A sleeping unit woken, and the wake counted (UMB_CNT). -/
def State.wakeUnit (s : State) (u : UnitRef) : State := if s.sleeping u then (s.setSleep u false).wakeCount else s

/-- The unit of a launch-table entry: PART names the context's partition, and INDEX the logical core with its array, the engine or the link
within it (R319; log entry 83: DEDUCED). -/
def State.entUnit (s : State) (x : Nat) (e : LaunchEnt) : Option UnitRef :=
  match s.physPart x e.part with
  | none => none
  | some p =>
    let core := ((s.part p).logical[e.index / 8]?).map (fun i => 100 * p + i)
    let a := e.index % 8
    match e.unit with
    | 0 => core.map (fun n => .core n 0)
    | 1 => if a < 2 then core.map (fun n => .core n (1 + a)) else none
    | 2 => if a < 4 then core.map (fun n => .core n (3 + a)) else none
    | 3 => core.map (fun n => .core n 7)
    | 4 => if e.index < 12 then some (.ind (12 * p + e.index)) else none
    | 5 => if e.index < 12 then some (.link (12 * p + e.index)) else none
    | _ => none

/-- The activity windows of a program of a slot, with their units, in device time (R315, R319). -/
def State.windows (s : State) (x : Nat) (g : Prog) : List (UnitRef × Nat × Nat) :=
  g.cert.launches.filterMap (fun e => (s.entUnit x e).map (fun u => (u, g.tL + e.start, g.tL + e.stop)))

/-- The windows of one unit, of every program admitted or running. -/
def State.unitWindows (s : State) (u : UnitRef) : List (Nat × Nat) :=
  let all := (List.range 4).flatMap (fun x =>
    (match (s.ctx x).running with
      | some g => s.windows x g
      | none => []) ++
    (match (s.ctx x).admitted with
      | some g => s.windows x g
      | none => []))
  (all.filter (fun w => w.1 == u)).map (fun w => w.2)

/-- An instruction reaches a unit: a sleeping one wakes on demand, and outside its windows the wake is counted as unscheduled (R315,
R454). -/
def State.demandUnit (s : State) (u : UnitRef) : State :=
  let now := s.tim.now.toNat
  if !s.sleeping u then s
  else
    let s1 := s.wakeUnit u
    if (s.unitWindows u).any (fun w => decide (w.1 ≤ now ∧ now < w.2)) then s1 else s1.bump .timCnt 0 2 1

end Sys2Proof.Machine
end

