-- ==== Sys2Proof/Machine/Issue.lean ====
section
/-! DEFINITION. How a wide instruction issues: the checks of R275, the predicates of R276, the speculation classes of R299, the order of its
slots (R245), its register writes and program counter (R244, R281), and the statuses of its slots (R253, R301). Every Cumal command goes
through here. -/

namespace Sys2Proof.Machine

/-- What a slot does once it runs. -/
inductive SlotRes where
  /-- its effect on the state, its register writes and its branch target -/
  | done (s : State) (ws : List RegW) (tgt : Option (BitVec 12))
  /-- a status, found at issue or at execution (R301) -/
  | status (code : Nat) (atIssue : Bool)
  /-- a status, after what it did to the state (R107, R165, R300) -/
  | faultIn (s : State) (code : Nat) (atIssue : Bool := false)
  /-- it waits: the whole wide instruction waits, and its last slot is presented again (R244, log entry 7: DEDUCED) -/
  | wait (w : Wait)

/-- The speculation classes of R299. -/
inductive Cls where
  | a | q | h | n
  deriving DecidableEq, Repr

/-- A slot of a wide instruction. `vec`: a V slot, whose predicate acts lane by lane; `legal`: its fields pass the checks of R275; `body`: what it
does on a state, for core and context slot. -/
structure Slot where
  i : Issue
  slot : Nat
  op : Nat
  cls : Cls
  vec : Bool
  legal : Bool
  body : State → Nat → Nat → SlotRes

/-- A slot described. -/
def slotCmd (i : Issue) (slot op : Nat) (k : Cls) (vec legal : Bool) (body : State → Nat → Nat → SlotRes) : Slot :=
  { i := i, slot := slot, op := op, cls := k, vec := vec, legal := legal, body := body }

/-! ## Whether a core issues -/

/-- Whether a sequencer issues nothing: it waits for a LAT, the step commit or the issue limit of R255. -/
def Core.blocked (c : Core) : Bool :=
  match c.wait with
  | .lat _ | .step | .stepLat _ | .limit => true
  | _ => false

/-- Whether a tracked transfer from tier 3 is in flight: a later instruction may read its destination, so issue waits for
it (R296, log entry 32: DEDUCED). -/
def Core.t3Busy (c : Core) : Bool := c.xfers.any (fun t => t.kind == 0 && !t.t3.isEmpty)

/-- The context slot in which a core issues: its context is RUNNING, it has not halted and waits for nothing. -/
def State.issuer (s : State) (n : Nat) : Option Nat :=
  match s.coreSlot n with
  | none => none
  | some x =>
    if (s.ctx x).st = .running ∧ !(s.core n).halted ∧ !(s.core n).blocked ∧ !(s.core n).t3Busy then some x
    else none

/-! ## One slot -/

/-- Bit 0 of the predicate of a slot, inverted under PNEG, with the register's poison (R276). -/
def Core.slotPred (c : Core) (i : Issue) : Bool × Bool :=
  let p := c.preg i.pred.val
  (p.1.getLsbD 0 != i.pneg, p.2)

/-- Whether lane `l` is active under the predicate of a V slot (R276). -/
def Core.active (c : Core) (i : Issue) (l : Nat) : Bool := (c.preg i.pred.val).1.getLsbD l != i.pneg

/-- The gate of a speculation class (R299): `none` where the slot goes on. -/
def Core.gate (c : Core) (k : Cls) : Option SlotRes :=
  match k with
  | .a | .q => none
  | .h => if c.cur.isNone && (!c.epochs.isEmpty || !c.rel.isEmpty) then some (.wait .stall) else none
  | .n => if c.cur.isSome then some (.status stIllegal true)
          else if !c.epochs.isEmpty || !c.rel.isEmpty then some (.wait .stall) else none

/-- What a slot does on a state: the checks of R275, its predicate, the gate of its class, then its own effect. -/
def Slot.eval (q : Slot) (s : State) (x : Nat) : SlotRes :=
  let n := q.i.k.key
  let c := s.core n
  if !q.legal then .status stIllegal true
  else if (c.slotPred q.i).2 then .status stPoison false
  else if !q.vec && !(c.slotPred q.i).1 then .done s [] none
  else match c.gate q.cls with
    | some r => r
    | none => q.body s n x

/-- The register writes of a result. -/
def SlotRes.writes : SlotRes → List RegW
  | .done _ ws _ => ws
  | _ => []

/-- What a result waits for. -/
def SlotRes.waits : SlotRes → Option Wait
  | .wait w => some w
  | _ => none

/-- A status that a slot raises, with the tag of the epoch to which the slot belongs. -/
structure Found where
  slot : Nat
  op : Nat
  code : Nat
  atIssue : Bool
  tag : Option Nat
  deriving DecidableEq, Repr

/-- The status of a result. -/
def SlotRes.found (q : Slot) (tag : Option Nat) : SlotRes → Option Found
  | .status code a => some { slot := q.slot, op := q.op, code := code, atIssue := a, tag := tag }
  | .faultIn _ code a => some { slot := q.slot, op := q.op, code := code, atIssue := a, tag := tag }
  | _ => none

/-- The status of a result that is found at issue. -/
def SlotRes.refused (q : Slot) (tag : Option Nat) (r : SlotRes) : Option Found :=
  match r.found q tag with
  | some f => if f.atIssue then some f else none
  | none => none

/-! ## The slots of one wide instruction -/

/-- The order in which the slots of a wide instruction take effect: those of class N, then C, V0, V1, W, M, T, D, L, a CCOMMIT last, so that the slots
beside a CSPEC belong to the epoch that it opens and those beside a CCOMMIT to the epoch that it ends (R245, R254, log entry 41: DEDUCED). -/
def Slot.rank (q : Slot) : Nat :=
  if q.cls = .n then q.slot else if q.slot = 0 ∧ q.op = 0x3D then 16 else 8 + q.slot

/-- A slot put in its place. -/
def putSlot (q : Slot) : List Slot → List Slot
  | [] => [q]
  | r :: t => if q.rank < r.rank then q :: r :: t else r :: putSlot q t

/-- The slots in the order of their effects. -/
def slotOrder (l : List Slot) : List Slot := l.foldl (fun l q => putSlot q l) []

/-- The first slot that writes a register which an earlier one writes (R244). -/
def clashAt : List (Slot × List RegW) → List RegW → Option Slot
  | [], _ => none
  | (q, ws) :: t, seen => if clash (seen ++ ws) then some q else clashAt t (seen ++ ws)

/-- A status put before those of a higher code (R253). -/
def putFound (f : Found) : List Found → List Found
  | [] => [f]
  | g :: t => if f.code < g.code then f :: g :: t else g :: putFound f t

/-- Statuses in ascending order of their codes. -/
def foundOrder (l : List Found) : List Found := l.foldl (fun l f => putFound f l) []

/-- The statuses of one wide instruction, at word `w` of core `n`: in an open epoch, the epoch aborts; outside any, the lowest code ends the context, with the
next in its record, and the others are logged (R253, R258, R301, GCT_CTX_FAULT1). -/
def State.raiseAll (s : State) (n x : Nat) (w : BitVec 12) (l : List Found) : State :=
  let at_ := fun (o : Nat) (s : State) (f : Found) => s.raiseAt n x w f.tag f.code f.slot f.op f.atIssue 0x0B o
  match l.find? (fun f => (s.core n).epochs.any (fun e => some e.tag == f.tag)) with
  | some f => at_ 0 s f
  | none =>
    let o := foundOrder l
    o.foldl (at_ ((o[1]?.map (fun f => f.code)).getD 0)) s

/-- The effects of the slots as they add up: the state, the register writes, the branch target, the statuses found at execution, and what a slot
waits for. -/
structure WordRun where
  s : State
  ws : List RegW := []
  tgt : Option (BitVec 12) := none
  found : List Found := []
  wait : Option Wait := none

/-- One slot takes effect. -/
def WordRun.perform (n x : Nat) (r : WordRun) (q : Slot) : WordRun :=
  match q.eval r.s x with
  | .done s1 ws t => { r with s := s1, ws := r.ws ++ ws, tgt := t.or r.tgt }
  | .status code a => { r with found := r.found ++ [{ slot := q.slot, op := q.op, code := code, atIssue := a, tag := (r.s.core n).cur }] }
  | .faultIn s1 code a =>
    { r with s := s1, found := r.found ++ [{ slot := q.slot, op := q.op, code := code, atIssue := a, tag := (r.s.core n).cur }] }
  | .wait w => { r with wait := r.wait.or (some w) }

/-- The wait of a core that waits again: an LWAIT or LFENCE keeps the expiry of its timeout (R298). -/
def Wait.renew : Wait → Wait → Wait
  | .lwait t ch ev, .lwait u ch' ev' => if ch = ch' ∧ ev = ev' then .lwait t ch ev else .lwait u ch' ev'
  | .lfence t, .lfence _ => .lfence t
  | _, w => w

/-- A core with its wait cleared, as a wide instruction finds it. -/
def State.woken (s : State) (n : Nat) : State := s.setCore n { s.core n with wait := .none }

/-- The end of a program once every core of its context has issued HALT: the context returns to BOUND, and END is recorded
when the original promise has passed (R251, R326, R327). -/
def State.endProgram (s : State) (x : Nat) : State :=
  let c := s.ctx x
  if (s.ctxCores x).all (fun n => (s.core n).halted) then
    let s1 := s.setCtx x { c with st := .bound, running := none }
    match c.running with
    | some g => if g.p0 < s.tim.now.toNat then s1.timEvent { slot := x, cause := 0x10, oldP := g.p, newP := g.p } else s1
    | none => s1
  else s

/-- The end of a wide instruction: its register writes are performed, the PC moves to the branch target or to the next word, modulo 4,096, and the
statuses that its slots found at execution are raised (R244, R281, R301); the last core's HALT ends the program (R251). -/
def WordRun.finish (n x : Nat) (w : BitVec 12) (r : WordRun) : State :=
  let c := (r.s.core n).putRegs r.ws
  let s1 := r.s.setCore n { c with word := [], pc := r.tgt.getD (w + 1) }
  match r.found with
  | [] => if (s1.core n).halted then s1.endProgram x else s1
  | l => s1.raiseAll n x w l

/-- What a status found at issue does to the state beside stopping its wide instruction (R165). -/
def noteRefused (x : Nat) (s : State) (q : Slot) : State :=
  match q.eval s x with
  | .faultIn s1 _ true => s1
  | _ => s

/-- A wide instruction issues on core `n`: every slot is checked on the state before it, and where one is refused none takes effect (R275); where one
waits, all wait (R244); else their effects follow in order (R245). The fetch of a word with an uncorrectable error ends the context
(R380). -/
def runWord (n x : Nat) (l : List Slot) (s : State) : State :=
  let w := (s.core n).pc
  let s0 := s.woken n
  let o := slotOrder l
  let pre := o.map (fun q => (q, q.eval s0 x))
  let clear := fun (s : State) => s.setCore n { s.core n with word := [] }
  let hold := fun (v : Wait) => s.setCore n { s.core n with wait := (s.core n).wait.renew v }
  if (s.core n).badWords.contains w.toNat then
    (clear s0).raiseAll n x w [{ slot := 0, op := 0, code := stPoison, atIssue := false, tag := (s.core n).cur }]
  else match pre.filterMap (fun e => e.2.refused e.1 (s.core n).cur) with
  | f :: t => (clear (o.foldl (noteRefused x) s0)).raiseAll n x w (f :: t)
  | [] => match clashAt (pre.map (fun e => (e.1, e.2.writes))) [] with
    | some q => (clear s0).raiseAll n x w [{ slot := q.slot, op := q.op, code := stIllegal, atIssue := true, tag := (s.core n).cur }]
    | none => match pre.findSome? (fun e => e.2.waits) with
      | some v => hold v
      | none =>
        let r := o.foldl (WordRun.perform n x) { s := s0 }
        match r.wait with
        | some v => hold v
        | none => r.finish n x w

/-- A slot as a command. A core that the part does not have is no core (R3). A core that does not issue takes no slot. A slot that others of its wide
instruction follow is collected, in place of one of its kind presented before; with the last slot the wide instruction issues (log entry 41:
DESIGN CHOICE). `slotOf` says what the slots collected before are. -/
def wideCmd (slotOf : Instr → Option Slot) (c : Instr) (q : Slot) (s : State) : Host.Outcome State Fault Refusal :=
  let n := q.i.k.key
  if s.coreState n = .fused then .fault .noSuchUnit
  else match s.issuer n with
    | none => .next s
    | some x =>
      let rest := (s.core n).word.filter (fun p => (slotOf p).any (fun r => r.slot != q.slot))
      if q.i.more then .next (s.setCore n { s.core n with word := rest ++ [c] })
      else .next (runWord n x (rest.filterMap slotOf ++ [q]) s)

/-- An instruction reaches unit `u` of its core (R315). -/
def State.demand (s : State) (n u : Nat) : State := s.demandUnit (.core n u)

/-- The header fields that an opcode does not use are zero, FL has the value its form requires, and no reserved bit is
set (R274, R275, R286). -/
def hdrOk (i : Issue) (rnd sat fz cr fl : Bool) : Bool :=
  !i.rsv && (rnd || i.rnd == 0) && (sat || !i.sat) && (fz || !i.fz) && (cr || !i.cr) && (i.fl == fl)

end Sys2Proof.Machine
end

