-- ==== Sys2Proof/Machine/Promise.lean ====
section
/-! DEFINITION. The promise of a program: its extensions and their records (R313, R324, R326 to R328, R464). -/

namespace Sys2Proof.Machine

/-- The promise that THROTTLE makes of a promise `p` at an instant and a ratio of k/16; never an earlier one (R326). -/
def throttled (now p k : Nat) : Nat := if p ≤ now then p else max p (now + ceilDiv ((p - now) * 16) k)

/-- A promise moved to `p` for a cause, the running program's or the admitted one's, never earlier: recorded, and counted as an extension where
it changes; a program that had passed its promise may pass the new one (R326 to R328). -/
def State.moveP (s : State) (x cause detail : Nat) (running : Bool) (p : Nat) (thr : Option (Nat × Nat × Nat)) : State :=
  let c := s.ctx x
  match (if running then c.running else c.admitted) with
  | none => s
  | some g =>
    let now := s.tim.now.toNat
    let q := max p g.p
    let moved := decide (g.p < q)
    let g1 := { g with p := q, ext := if moved then g.ext ++ [(now, q - g.p)] else g.ext, thr := thr, overrun := g.overrun && !(moved && decide (now ≤ q)) }
    let s1 := s.setCtx x (if running then { c with running := some g1 } else { c with admitted := some g1 })
    let s2 := if moved then s1.bump .timCnt 0 5 1 else s1
    s2.timEvent { slot := x, cause := cause, extended := moved, detail := detail, oldP := g.p, newP := q }

/-- The promise of the running program extended by `add` for an additive cause; a THROTTLE of the same instant still applies last (R326). -/
def State.extend (s : State) (x cause detail add : Nat) : State :=
  match (s.ctx x).running with
  | none => s
  | some g =>
    let now := s.tim.now.toNat
    match g.thr with
    | some t => if t.1 = now then s.moveP x cause detail true (throttled now (t.2.1 + add) t.2.2) (some (now, t.2.1 + add, t.2.2))
                else s.moveP x cause detail true (g.p + add) none
    | none => s.moveP x cause detail true (g.p + add) none

/-- The fallback entry of a layer in a certificate. -/
def Cert.fall (c : Cert) (layer : Nat) : Option FallEnt := c.falls.find? (fun e => e.layer == layer)

/-- FALLBACK for a verdict RERUN(l) of a run (R326): REPEAT + n × D_l with n = RUNS − micro-batch index. A layer with no entry of the
table adds nothing. -/
def State.fallback (s : State) (x : Nat) (run : Run) (l : Nat) : State :=
  match (s.ctx x).running with
  | none => s
  | some g =>
    let add := match g.cert.fall run.layer.toNat with
      | none => 0
      | some e => e.rep + (e.runs - run.mb.toNat) * (if l = 1 then e.d1 else if l = 2 then e.d2 else 0)
    s.extend x 0x01 (run.layer.toNat + 2 ^ 16 * run.mb.toNat) add

/-- FALLBACK for a re-dye verdict (R326): RUNS × D_l. -/
def State.fallbackRedye (s : State) (x layer l : Nat) : State :=
  match (s.ctx x).running with
  | none => s
  | some g =>
    let add := match g.cert.fall layer with
      | none => 0
      | some e => e.runs * (if l = 1 then e.d1 else if l = 2 then e.d2 else 0)
    s.extend x 0x01 layer add

/-- LATE_LAUNCH for a lateness beyond TIM_LATE_TOL; a smaller one is only counted (R313). -/
def State.late (s : State) (x lateness : Nat) : State :=
  if lateness ≤ (s.reg .timLateTol 0 0).toNat then s.bump .timCnt 0 0 1
  else (s.bump .timCnt 0 1 1).extend x 0x04 (min lateness (2 ^ 32 - 1)) lateness

/-- THROTTLE of one program of a slot at an effective ratio of k/16 (R326, R464). -/
def State.throttle (s : State) (x k : Nat) (running : Bool) : State :=
  match (if running then (s.ctx x).running else (s.ctx x).admitted) with
  | none => s
  | some g =>
    let now := s.tim.now.toNat
    s.moveP x 0x05 (64 * k) running (throttled now g.p k) (some (now, g.p, k))

/-- The effective clock ratio of a partition in sixteenths (R461, R463): 4 while issue is withheld. -/
def State.effK (s : State) (p : Nat) : Nat :=
  if s.pwr.withheld then 4 else min s.pwr.k (min (s.part p).kTherm (s.part p).kOchre)

/-- The effective ratio of a context: that of its slowest partition (R464). -/
def State.ctxK (s : State) (x : Nat) : Nat := (partsOf (s.ctx x).parts).foldl (fun m p => min m (s.effK p)) 16

/-- UMB_CLK and the derate bits written from the steps (R463). A step of a partition in reset applies when it leaves reset. -/
def State.showClk (s : State) : State :=
  let s1 := (List.range 4).foldl (fun s p =>
    if (s.part p).resetting then s else s.setFld .umbClk 0 0 (8 * p + 4) (8 * p) (min s.pwr.k (min (s.part p).kTherm (s.part p).kOchre))) s
  let s2 := s1.setFld .umbStatus 0 0 9 9 (bit (decide (s.pwr.k < 16)))
  s2.setFld .umbStatus 0 0 10 10 (bit ((List.range 4).any (fun p => decide ((s.part p).kTherm < 16))))

/-- A lowering of the ratio of some partitions, reported for each running program of a context bound to one of them (R464). -/
def State.derated (s : State) (old : Nat → Nat) : State :=
  (List.range 4).foldl (fun s x =>
    if (partsOf (s.ctx x).parts).any (fun p => decide (s.effK p < old p)) then s.throttle x (s.ctxK x) true else s) s

end Sys2Proof.Machine
end

