-- ==== Sys2Proof/Machine/Admission.lean ====
section
/-! DEFINITION. The timing certificate and the admission checker (R316 to R325). -/

namespace Sys2Proof.Machine

/-! ## The certificate -/

/-- Field of bytes `lo` to `hi` of a list. -/
def leField (b : List Byte) (lo hi : Nat) : Nat := ofLeBytes ((b.drop lo).take (hi + 1 - lo))

/-- The length of a certificate whose first 128 bytes are given (R316). -/
def certLen (h : List Byte) : Nat := 128 + 32 * leField h 52 53 + 16 * leField h 54 55 + 16 * leField h 56 57

/-- Whether every byte of a list is zero. -/
def allZero (b : List Byte) : Bool := b.all (fun x => x == 0)

/-- A resource record of 32 bytes (R317). -/
def certRec (b : List Byte) : CertRec :=
  { cls := leField b 0 0, part := leField b 1 1, index := leField b 2 3, amount := leField b 4 7, start := leField b 8 15
    stop := leField b 16 23 }

/-- A launch-table entry of 16 bytes (R319). -/
def launchEnt (b : List Byte) : LaunchEnt :=
  { unit := leField b 0 0, part := leField b 1 1, index := leField b 2 3, start := leField b 8 11, stop := leField b 12 15 }

/-- A fallback-table entry of 16 bytes (R319). -/
def fallEnt (b : List Byte) : FallEnt :=
  { layer := leField b 0 1, runs := leField b 2 2, d1 := leField b 4 7, d2 := leField b 8 11, rep := leField b 12 15 }

/-- The certificate that bytes spell. -/
def certOf (b : List Byte) : Cert :=
  let nr := leField b 52 53
  let nl := leField b 54 55
  let nf := leField b 56 57
  let body := b.drop 128
  { refmode := natBit (leField b 6 6) 0, fixedLane := natBit (leField b 6 6) 1, pod := natBit (leField b 6 6) 2
    keep := leField b 7 7, ctxcores := leField b 8 9, vl := leField b 10 10, parts := leField b 11 11, d := leField b 12 19
    digest := (b.drop 20).take 32
    recs := (chunks 32 nr (body.take (32 * nr))).map certRec
    launches := (chunks 16 nl ((body.drop (32 * nr)).take (16 * nl))).map launchEnt
    falls := (chunks 16 nf ((body.drop (32 * nr + 16 * nl)).take (16 * nf))).map fallEnt }

/-- Records stand in ascending START. -/
def startsRise : List CertRec → Bool
  | [] => true
  | [_] => true
  | a :: b :: t => decide (a.start ≤ b.start) && startsRise (b :: t)

/-- Check 0x01 FORMAT (R321). -/
def certFormat (b : List Byte) : Bool :=
  let c := certOf b
  let nr := leField b 52 53
  let nl := leField b 54 55
  let nf := leField b 56 57
  let body := b.drop 128
  decide (b.length = certLen b ∧ 128 ≤ b.length) && leField b 0 3 == 0x4C584331 && leField b 4 5 == 1 &&
    crc64 (b.take 120 ++ body) == BitVec.ofNat 64 (leField b 120 127) &&
    decide (nr ≤ 4096 ∧ nl ≤ 4096 ∧ nf ≤ 1024) && startsRise c.recs &&
    c.recs.all (fun r => decide (r.start < r.stop ∧ r.stop ≤ c.d ∧ 1 ≤ r.cls ∧ r.cls ≤ 11)) &&
    natBits (leField b 6 6) 7 3 == 0 && allZero ((b.drop 58).take 62) &&
    (chunks 32 nr (body.take (32 * nr))).all (fun r => allZero (r.drop 24)) &&
    c.launches.all (fun e => decide (e.unit ≤ 5)) &&
    (chunks 16 nl ((body.drop (32 * nr)).take (16 * nl))).all (fun r => allZero ((r.drop 4).take 4)) &&
    (chunks 16 nf ((body.drop (32 * nr + 16 * nl)).take (16 * nf))).all (fun r => allZero ((r.drop 3).take 1)) &&
    decide (1 ≤ c.keep ∧ c.keep ≤ 4 ∧ 1 ≤ c.parts ∧ c.parts ≤ 4)

/-- Whether a certificate's address meets R320. -/
def State.certAddrOk (s : State) (x addr : Nat) : Bool :=
  addr % 64 == 0 && s.ctxMem x addr 128 && s.ctxMem x addr (certLen (s.devRead addr 128))

/-! ## Capacity -/

/-- Whether the base die of a stack failed its Kermes test (R170). -/
def State.vwDead (s : State) (st : Nat) : Bool := s.mgmt.kat.contains (448 + st)

/-- The number of retired pseudo-channels of a stack (R340). -/
def State.retiredCount (s : State) (st : Nat) : Nat :=
  ((List.range 32).map (fun i => bit (natBit (s.reg .memRetiredLo st 0).toNat i) + bit (natBit (s.reg .memRetiredHi st 0).toNat i))).foldl (· + ·) 0

/-- Capacity of a resource of a physical partition, `none` where no such resource exists (R318, R340, R366, R367). -/
def State.capacity (s : State) (cls p idx : Nat) : Option Nat :=
  match cls with
  | 0x02 => if idx = 0 then some 0xC000000 else none
  | 0x03 => if idx < 5 then some (1640000 * (64 - s.retiredCount (5 * p + idx)) / 64) else none
  | 0x04 => if idx < 5 then some (if s.vwDead (5 * p + idx) then 0 else 12800) else none
  | 0x05 =>
    if idx % 64 < 12 ∧ (idx / 64 = 0 ∨ idx / 64 = 4) then
      let st := s.fld .lnkStatus (12 * p + idx % 64) 0 2 0
      some (if st = 4 then 0 else if st = 3 then 49000 else 99000)
    else none
  | 0x06 => if idx < 12 then some 32 else none
  | 0x07 => if idx < 12 then some 128000 else none
  | 0x08 => if idx = 0 then some 1024 else none
  | 0x09 => if idx = 0 ∨ idx = 256 then some 121000 else none
  | 0x0A => if idx = 0 then some 16 else none
  | 0x0B => some 32
  | _ => none

/-- Capacity of a resource at an instant: none of it while a calibration has it withdrawn (R325, R329). -/
def State.capacityAt (s : State) (cls p idx t : Nat) : Option Nat :=
  (s.capacity cls p idx).map (fun c => if s.away.any (fun a => a.1 == cls && a.2.1 == p && a.2.2.1 == idx % 64 && decide (t < a.2.2.2)) then 0 else c)

/-- What the device holds of a resource for Sepia saves and Ochre tests (R322, R417). -/
def State.reserved (s : State) (cls p idx : Nat) : Nat :=
  Config.testReserve cls p idx + (match cls with
  | 0x03 => 1000 * s.fld .sepBw 0 0 11 0
  | 0x09 => 1000 * s.fld .sepBw 0 0 23 12
  | 0x05 => Config.linkReserve (s.fld .sepBw 0 0 31 24) p idx
  | _ => 0)

/-- A record placed in time: resource, amount, interval. -/
structure Placed where
  cls : Nat
  p : Nat
  idx : Nat
  amount : Nat
  lo : Nat
  hi : Nat
  deriving DecidableEq, Repr

/-- Whether two records name one resource; the host link is one for the device (R318). -/
def Placed.same (a b : Placed) : Bool := a.cls == b.cls && a.idx == b.idx && (a.p == b.p || a.cls == 0x09)

/-- A program's records placed at a launch time, each shifted by the extensions reported at or before its START (R322). -/
def State.place (s : State) (x tL : Nat) (ext : List (Nat × Nat)) (recs : List CertRec) : List Placed :=
  recs.filterMap (fun r => (s.physPart x r.part).map (fun p =>
    let sh := ((ext.filter (fun e => decide (e.1 ≤ tL + r.start))).map (fun e => e.2)).foldl (· + ·) 0
    ({ cls := r.cls, p := p, idx := r.index, amount := r.amount, lo := tL + r.start + sh, hi := tL + r.stop + sh } : Placed)))

/-- The records of a slot's running program. -/
def State.slotPlaced (s : State) (x : Nat) : List Placed :=
  match (s.ctx x).running with
  | some g => s.place x g.tL g.ext g.cert.recs
  | none => []

/-- The records of every program admitted or running but the one admitted of slot `skip`. -/
def State.others (s : State) (skip : Option Nat) : List Placed :=
  (List.range 4).flatMap (fun x => s.slotPlaced x ++
    (match (s.ctx x).admitted with
      | some g => if skip = some x then [] else s.place x g.tL g.ext g.cert.recs
      | none => []))

/-- Demand on the resource of `r` at an instant. -/
def placedDemand (l : List Placed) (r : Placed) (t : Nat) : Nat :=
  ((l.filter (fun q => q.same r && decide (q.lo ≤ t ∧ t < q.hi))).map (fun q => q.amount)).foldl (· + ·) 0

/-- The smaller of two failures: earliest instant, then class, partition and index. -/
def firstFail (a b : Nat × CertRec) : Nat × CertRec :=
  if a.1 < b.1 then a else if b.1 < a.1 then b
  else if a.2.cls < b.2.cls then a else if b.2.cls < a.2.cls then b
  else if a.2.part < b.2.part then a else if b.2.part < a.2.part then b
  else if b.2.index < a.2.index then b else a

/-- The record of a placed one, as a program of slot `x` would write it: PART is the index of the partition in the context. -/
def State.unplace (s : State) (x : Nat) (r : Placed) : Option CertRec :=
  let i := (partsOf (s.ctx x).parts).idxOf r.p
  if i < (partsOf (s.ctx x).parts).length then some { cls := r.cls, part := i, index := r.idx, amount := 0, start := 0, stop := 0 } else none

/-- The instants from now on at which the demand on a resource can rise: its records begin (R322). -/
def State.instants (s : State) (l : List Placed) (r : Placed) : List Nat :=
  (l.filter (fun z => z.same r && decide (s.tim.now.toNat < z.hi))).map (fun z => max z.lo s.tim.now.toNat)

/-- Check 0x09 CAPACITY (R322): every resource of the context's partitions that a record names, at every instant; the first failure with its
offset from T_L, 0 for one before it. -/
def State.capacityFail (s : State) (x tL : Nat) (c : Cert) (skip : Option Nat) : Option (Nat × CertRec) :=
  let own := s.place x tL [] c.recs
  let rest := s.others skip
  let all := own ++ rest
  let cores := (s.ctxCores x).length
  let beyond := fun (r : CertRec) (q : Placed) =>
    match (s.instants all q).filter (fun t => decide ((s.capacityAt r.cls q.p r.index t).getD 0 < placedDemand all q t + s.reserved r.cls q.p r.index)) with
    | [] => none
    | t :: l => some (l.foldl min t - tL, r)
  let mine := c.recs.filterMap (fun r =>
    match s.physPart x r.part with
    | none => some (r.start, r)
    | some p =>
      if r.cls = 0x01 then (if r.index < cores ∧ r.amount < 256 then none else some (r.start, r))
      else if r.cls = 0x0B ∧ cores ≤ r.index then some (r.start, r)
      else if (s.capacity r.cls p r.index).isNone then some (r.start, r)
      else beyond r { cls := r.cls, p := p, idx := r.index, amount := r.amount, lo := tL + r.start, hi := tL + r.stop })
  let theirs := rest.filterMap (fun q => if q.cls = 0x01 then none else (s.unplace x q).bind (fun r => beyond r q))
  match mine ++ theirs with
  | [] => none
  | f :: l => some (l.foldl firstFail f)

/-! ## The checks -/

/-- Check 0x04 SHAPE (R321). -/
def State.shapeOk (s : State) (x : Nat) (c : Cert) : Bool :=
  c.ctxcores == (s.ctxCores x).length && c.vl == 64 && c.parts == (partsOf (s.ctx x).parts).length

/-- Check 0x07 TIME (R321). -/
def State.timeOk (s : State) (c : Cert) : Bool := !c.pod || s.tim.state == 2 || s.tim.state == 4

/-- The recheck of R325 for one slot: the failing reason and its detail. -/
def State.recheckOne (s : State) (x : Nat) : State :=
  match (s.ctx x).admitted with
  | none => s
  | some g =>
    if !s.shapeOk x g.cert then s.withdraw x 0x04 0
    else if !s.timeOk g.cert then s.withdraw x 0x07 0
    else match s.capacityFail x g.tL g.cert (some x) with
      | some f => s.withdraw x 0x09 (256 * f.2.cls + 65536 * (f.2.part % 4))
      | none => s

/-- The recheck after a loss of capacity, in ascending slot order (R325). -/
def State.recheck (s : State) : State := (List.range 4).foldl (fun s x => s.recheckOne x) s

end Sys2Proof.Machine
end

