-- ==== Sys2Proof/Machine/BaseDie.lean ====
section
/-! DEFINITION. The base die of a stack: corrections, uncorrectable units, row repair, and what a read finds (R332, R333, R336, R339, R425). -/

namespace Sys2Proof.Machine

/-! ## Reports -/

/-- OCH_REPLACE: a cause of replacement holds for the first time: REPLACE_REQ_N, OCH_STATUS.REPLACE and vector 21 (R425). -/
def State.replaceCause (s : State) (b : Nat) (parts : Nat) : State :=
  let old := (s.reg .ochReplace 0 0).toNat
  if natBit old b then s.orReg .ochReplace 0 0 (BitVec.ofNat 32 (256 * parts))
  else
    let s1 := s.orReg .ochReplace 0 0 (BitVec.ofNat 32 (2 ^ b + 256 * parts))
    let s2 := s1.setFld .ochStatus 0 0 8 8 1
    let s3 := s2.setMgmt { s2.mgmt with pins := AMap.put true 5 false s2.mgmt.pins }
    ((s3.emit (.platformEvent 0x30 (bitsOf (s3.reg .ochReplace 0 0) 5 0))).emit (.pin 5 false)).event 5

/-- MEM_UE_ADDR: the address and kind of the last poisoned unit of a stack. -/
def State.noteUe (s : State) (st a kind symbols : Nat) : State :=
  (s.setReg .memUeAddrLo st 0 (BitVec.ofNat 32 (a / 64 * 64))).setReg .memUeAddrHi st 0
    (BitVec.ofNat 32 (a / 2 ^ 32 % 65536 + symbols * 65536 + kind * 2 ^ 20))

/-! ## Errors of a stack -/

/-- The device physical address of an offset of a stack (R332). -/
def State.stackAddr (s : State) (st o : Nat) : Nat :=
  let p := st / 5
  let i := st % 5
  p * 0x5000000000 + (if natBit (s.reg .memPartCfg p 0).toNat 0 then (o / 4096 * 5 + i) * 4096 + o % 4096 else i * 2 ^ 36 + o)

/-- MEM_PART_CFG.ILV of a partition. -/
def State.ilv (s : State) (p : Nat) : Bool := natBit (s.reg .memPartCfg p 0).toNat 0

/-- The device physical address that a setting of ILV gives the stack cell which has address `a` in the memory of partition `p` under the other
setting (R332). -/
def reAddr (ilv : Bool) (p a : Nat) : Nat :=
  let lo := p * 0x5000000000
  let off := a - lo
  if a < lo ∨ lo + 0x5000000000 ≤ a then a
  else if ilv then lo + ((off % 2 ^ 36) / 4096 * 5 + off / 2 ^ 36) * 4096 + off % 4096
  else lo + (off / 4096 % 5) * 2 ^ 36 + off / 4096 / 5 * 4096 + off % 4096

/-- A memory with every byte and unit at a new address. -/
def Mem.move (m : Mem) (f : Nat → Nat) : Mem :=
  { bytes := m.bytes.foldl (fun l e => AMap.put 0 (f e.1) e.2 l) []
    poison := m.poison.foldl (fun l e => AMap.put false (f (64 * e.1) / 64) e.2 l) []
    errs := m.errs.foldl (fun l e => AMap.put [] (f (64 * e.1) / 64) e.2 l) [] }

/-- A change of ILV: the stacks keep their cells, so that every byte of the partition's memory has another address (R332). -/
def State.reIlv (s : State) (old : State) : State :=
  (List.range 4).foldl (fun t p => if t.ilv p = old.ilv p then t else t.setMem (t.mem.move (reAddr (t.ilv p) p))) s

/-- A row of a stack is repaired (R339): with SOFT_REPAIR_EN set and a spare row left in its bank its copy starts; once the bank has none left
REPAIR_EXHAUSTED is set and reported to the Ochre monitor (R425). -/
def State.repairRow (s : State) (st row : Nat) : State :=
  let v := s.stack st
  if v.repairs.contains row ∨ !natBit (s.reg .memCtrl st 0).toNat 1 then s
  else
    let b := Config.bankOf row
    let used := AMap.get 0 b v.sparesUsed
    let left := fun (s : State) => if Config.spareRows ≤ used + 1 then (s.memErr st 5 0 0).replaceCause 3 0 else s
    if Config.spareRows ≤ used then left s
    else left (s.setStack st { v with repairs := v.repairs ++ [row], sparesUsed := AMap.put 0 b (used + 1) v.sparesUsed })

/-- A correction in a row: CE, counted, reported to the Ochre monitor, and counted for the row in the running scrub period, which repairs the
row at REPAIR_TH (R336, R339, R421). A row is a 2 KiB run of stack offsets (log entry 88: DESIGN CHOICE). -/
def State.corrected (s : State) (st row : Nat) : State :=
  let now := s.tim.now.toNat
  let s1 := (s.memErr st 0 0 0).bump .memCnt st 3 1
  let v := s1.stack st
  let fresh := decide (v.period + s.fld .memCtrl st 0 15 8 * 3600000000000 ≤ now)
  let errs := if fresh then [] else v.rowErr
  let k := AMap.get 0 row errs + 1
  let hour := v.hour.filter (fun t => decide (now < t + 3600000000000)) ++ [now]
  let s2 := s1.setStack st { v with rowErr := AMap.put 0 row k errs, period := if fresh then now else v.period, hour := hour }
  if s.fld .memCtrl st 0 23 16 ≤ k then s2.repairRow st row else s2

/-- A detected uncorrectable unit: rewritten with POISON set, its address recorded with a kind and the symbols in error, which the base die
determines as 3 to 5 or not at all (0xF; log entry 3: DESIGN CHOICE), and its row repaired (R336, R339). -/
def State.uncorrectable (s : State) (st o kind : Nat) : State :=
  let a := s.stackAddr st o
  let r := (Config.freeValue 2 s.free).toNat
  let s1 := (s.draw.setMem ((s.mem.settle (a / 64)).setPo (a / 64) true)).noteUe st a kind (if r = 3 then 15 else 3 + r)
  let s2 := ((s1.memErr st 1 1 a).bump .memCnt st 4 1).bump .errCnt 0 0 1
  s2.repairRow st (o / 2048)

/-! ## Reads -/

/-- What the base die does on a read of the unit that holds a device physical address: a correction is written back and counted, an uncorrectable
unit is rewritten poisoned and recorded with a kind (R336, R337, R344). -/
def State.readUnit (s : State) (kind a : Nat) : State :=
  match locOf a with
  | .mem p off =>
    let st := s.stackOf p off
    let o := s.stackOff p off / 64 * 64
    (match s.mem.finding (a / 64) with
      | .clean => s
      | .fixed _ => (s.setMem (s.mem.settle (a / 64))).corrected st (o / 2048)
      | .bad => s.uncorrectable st o kind)
  | _ => s

/-- The reads of the units that some runs of bytes touch, on demand (R336); where no symbol of device memory is in error they find nothing. -/
def State.demandReads (s : State) (l : List (Nat × Nat)) : State :=
  if s.mem.errs.isEmpty then s
  else l.foldl (fun s r => if r.2 = 0 then s
    else (List.range ((r.1 + r.2 - 1) / 64 + 1 - r.1 / 64)).foldl (fun s i => s.readUnit 1 (64 * (r.1 / 64 + i))) s) s

end Sys2Proof.Machine
end

