-- ==== Sys2Proof/Machine/Frames.lean ====
section
/-! DEFINITION. Requesters, their reservations, and the charges of a frame at a memory stack (R345 to R347, R353, R361). In what order the requests of one
frame are served is timing: each access is whole in its command (log entries 2, 136). -/

namespace Sys2Proof.Machine

/-- A requester's number, in the order of rotation. -/
def Requester.code : Requester → Nat
  | .slot x => x
  | .sepia => 4
  | .ochre => 5
  | .unreserved => 6

/-- Every requester. -/
def requesters : List Requester := [.slot 0, .slot 1, .slot 2, .slot 3, .sepia, .ochre, .unreserved]

/-- The records of a slot for one resource that are active at an instant, summed (R345). -/
def State.amountAt (s : State) (x cls p idx t : Nat) : Nat :=
  (((s.slotPlaced x).filter (fun r => r.cls == cls && r.p == p && r.idx == idx && decide (r.lo ≤ t ∧ t < r.hi))).map (fun r => r.amount)).foldl (· + ·) 0

/-- The reservation of a requester for a resource at an instant: its active records, or what the device holds (R322, R345, R361). -/
def State.reservation (s : State) (q : Requester) (cls p idx t : Nat) : Nat :=
  match q with
  | .slot x => s.amountAt x cls p idx t
  | .sepia => s.reserved cls p idx - Config.testReserve cls p idx
  | .ochre => Config.testReserve cls p idx
  | .unreserved => 0

/-- A stack in the frame of this instant: one that has begun since starts with nothing charged and the reservations of its start (R345, R346). -/
def State.stackFrame (s : State) (st : Nat) : Stack :=
  let v := s.stack st
  let t := s.tim.now.toNat / 1024 * 1024
  let res := fun (cls : Nat) => requesters.foldl (fun (m : AMap Nat) q => AMap.put 0 q.code (s.reservation q cls (st / 5) (st % 5) t) m) []
  if v.frame = t then v else { v with frame := t, charged := [], vatCharged := [], reserved := res 0x03, vatReserved := res 0x04 }

/-- An access to a unit of device memory charged to its requester: 68 B, 204 B more where it opens a row, that is where the requester's previous access
to the bank was to another 2 KiB run; a Vat-write twice that, and one Vat-write (R346, R347). -/
def State.charge (s : State) (q : Requester) (vat : Bool) (a : Nat) : State :=
  match locOf a with
  | .mem p off =>
    let st := s.stackOf p off
    let v := s.stackFrame st
    let row := s.stackOff p off / 2048
    let key := 7 * Config.bankOf row + q.code
    let one := 68 + (if AMap.get 0 key v.lastRun = row + 1 then 0 else 204)
    s.setStack st { v with charged := AMap.put 0 q.code (AMap.get 0 q.code v.charged + (if vat then 2 * one else one)) v.charged
                           vatCharged := AMap.put 0 q.code (AMap.get 0 q.code v.vatCharged + bit vat) v.vatCharged
                           lastRun := AMap.put 0 key (row + 1) v.lastRun }
  | _ => s

/-- The requester of a page copy: the slot bound to the partition of an address (R345). -/
def State.ownerOf (s : State) (a : Nat) : Requester :=
  match locOf a with
  | .mem p _ => match s.partSlot p with
    | some x => .slot x
    | none => .unreserved
  | _ => .unreserved

/-- The units that some runs of bytes touch, charged to a requester. -/
def State.chargeRuns (s : State) (q : Requester) (l : List (Nat × Nat)) : State :=
  l.foldl (fun s r => if r.2 = 0 then s
    else (List.range ((r.1 + r.2 - 1) / 64 + 1 - r.1 / 64)).foldl (fun s i => s.charge q false (64 * (r.1 / 64 + i))) s) s

end Sys2Proof.Machine
end

