-- ==== Sys2Proof/Machine/KermesFn.lean ====
section
/-! DEFINITION. The Kermes function (06_kermes_rounding, R155 to R163). -/

namespace Sys2Proof.Machine

/-- The step C of the round-key schedule (R155). -/
def kermesC : W64 := 0x9E3779B97F4A7C15#64
/-- The offset D of the stream word (R155). -/
def kermesD : W64 := 0xA4C31E7B56D8902F#64
/-- The rotations of rounds 0 to 9 (R155). -/
def kermesRot : List Nat := [17, 41, 9, 52, 30, 22, 45, 14, 36, 5]

/-- The rounds of R155 from round `r`, with the round keys' two words. -/
def kermesRounds (k0 k1 : W64) : List Nat → Nat → W64 × W64 → W64 × W64
  | [], _, x => x
  | rot :: t, r, x =>
    let k := (if r % 2 = 0 then k0 else k1) + BitVec.ofNat 64 (r + 1) * kermesC
    kermesRounds k0 k1 t (r + 1) (x.2, x.1 + ((x.2.rotateLeft rot) ^^^ k))

/-- The Kermes function of R155: (Y0, Y1). -/
def kermes (seed stream w0 w1 : W64) : W64 × W64 :=
  let k1 := stream ^^^ kermesD
  let x := kermesRounds seed k1 kermesRot 0 (w0 ^^^ seed, w1 ^^^ k1)
  (x.1 + seed, x.2 + k1)

/-- The counter word w0 of R158. -/
def kermesW0 (step tensor draw : Nat) : W64 :=
  BitVec.ofNat 64 (step % 2 ^ 32 + tensor % 2 ^ 16 * 2 ^ 32 + draw % 2 ^ 16 * 2 ^ 48)

/-- Streams of R159. -/
def streamRotation : W64 := 0xFFFFFFFF00000001#64
/-- SR in conversions. -/
def streamConvert : W64 := 0xFFFFFFFF00000002#64
/-- SR of Madder running sums. -/
def streamAccum : W64 := 0xFFFFFFFF00000003#64
/-- SR in Vat-write. -/
def streamVatwrite : W64 := 0xFFFFFFFF00000004#64
/-- Sampled-tile selection. -/
def streamCheck : W64 := 0xFFFFFFFF00000005#64
/-- SR of BF16 link transport. -/
def streamLink : W64 := 0xFFFFFFFF00000006#64
/-- Operands of Ochre test passes. -/
def streamTest : W64 := 0xFFFFFFFF00000007#64

/-- A draw of R162: the output for a seed, stream, STEP, TENSOR, DRAW and COORD. -/
def kermesAt (seed stream : W64) (step tensor draw coord : Nat) : W64 × W64 :=
  kermes seed stream (kermesW0 step tensor draw) (BitVec.ofNat 64 coord)

/-- Y0[15:0], the 16 bits of SR (R162). -/
def srBits (seed stream : W64) (step tensor draw coord : Nat) : Nat :=
  (kermesAt seed stream step tensor draw coord).1.toNat % 65536

/-- Sign bit i of D (R128): bit 0 of the output under ROT_SEED and the rotation stream. -/
def rotationSign (rotSeed : Nat) (i : Nat) : Bool :=
  natBit (kermesAt (BitVec.ofNat 64 rotSeed) streamRotation 0 0 0 i).1.toNat 0

/-- The 16 bits of a running-sum addition at position k (R162, R163): slice k mod 8 of Y1:Y0. -/
def accumBits (seed : W64) (step tensor i j k : Nat) : Nat :=
  let y := kermesAt seed streamAccum step tensor 0 (i * 2 ^ 44 + j * 2 ^ 24 + k / 8)
  (y.2.toNat * 2 ^ 64 + y.1.toNat) / 2 ^ (16 * (k % 8)) % 65536

end Sys2Proof.Machine
end

