-- ==== Sys2Proof/Machine/Operands.lean ====
section
/-! DEFINITION. The operand forms of tiles: tile descriptors, the T32 layout, plain elements, and lakes as they are read and
written (R23 to R52, R87, R277, R278). -/

namespace Sys2Proof.Machine

/-! ## Tile descriptors -/

/-- The fields of a tile descriptor (R277); `rows` and `cols` are counts. -/
structure TD where
  addr : Nat
  space : Bool
  lake : Bool
  fmt : Nat
  block : Bool
  rot : Bool
  rotSize : Nat
  rnd : Nat
  delayed : Bool
  trv : Bool
  rsv : Bool
  rotSeed : Nat
  outMult : Nat
  trec : Nat
  kid : Nat
  rows : Nat
  cols : Nat
  row0 : Nat
  col0 : Nat
  stride : Nat
  deriving DecidableEq, Repr

/-- A 256-bit descriptor taken apart (R277). -/
def tdOf (d : BitVec 256) : TD :=
  { addr := bitsOf d 47 0, space := d.getLsbD 48, lake := d.getLsbD 49, fmt := bitsOf d 53 50, block := d.getLsbD 54
    rot := d.getLsbD 55, rotSize := 32 * 2 ^ bitsOf d 57 56, rnd := bitsOf d 60 58, delayed := d.getLsbD 61
    trv := d.getLsbD 62, rsv := d.getLsbD 63 || bitsOf d 255 240 != 0, rotSeed := bitsOf d 95 64
    outMult := bitsOf d 103 96, trec := bitsOf d 119 104, kid := bitsOf d 135 120, rows := bitsOf d 155 136 + 1
    cols := bitsOf d 175 156 + 1, row0 := bitsOf d 195 176, col0 := bitsOf d 215 196, stride := bitsOf d 239 216 }

/-- What a descriptor's check at issue finds: a status, or nothing (R278, R300). -/
abbrev Chk := Option Nat

/-- The first status of a list of checks; a refusal of the form goes before an alignment (log entry 38: DEDUCED). -/
def firstChk (l : List Chk) : Chk :=
  if l.contains (some stIllegal) then some stIllegal else l.find? (fun c => c.isSome) |>.getD none

/-- A refusal unless a condition holds. -/
def need (b : Bool) : Chk := if b then none else some stIllegal
/-- An alignment status unless a condition holds. -/
def align (b : Bool) : Chk := if b then none else some stAlign

/-- The K extent of a rotated tensor is a multiple of its rotation size (R126). -/
def TD.rotOk (t : TD) : Chk := align (!t.rot || t.cols % t.rotSize == 0)

/-- The check of a plain tile (R24, R278): no lake, a non-lake format, no reserved bit (log entry 37: DEDUCED), XF19 only in the operand
store, its address aligned. -/
def TD.plainOk (t : TD) : Chk :=
  firstChk [need (!t.rsv && !t.lake && decide (t.fmt < 8) && !(t.fmt == 1 && t.space)),
    align (if t.space then t.addr % 64 == 0
      else if fmtBytes t.fmt = 4 then t.addr % 4096 == 0
      else if fmtBytes t.fmt = 2 then t.addr % 2048 == 0 else true),
    t.rotOk]

/-- Elements of a lake of a format and block size (R38). -/
def lakeElems (fmt : Nat) (block : Bool) : Nat :=
  if fmt = 7 then 48 else if fmt < 7 then (if block then 96 else 48) else if fmt < 10 then 96 else 192

/-- Whether lakes of a format and block size are paired (R38, R39). -/
def lakePaired (fmt : Nat) (block : Bool) : Bool := decide (fmt < 7) && block

/-- Bytes of a lake. -/
def lakeBytes (fmt : Nat) (block : Bool) : Nat := if lakePaired fmt block then 128 else 64

/-- The check of a lake tile (R23, R38, R126, R278). A reserved code of the RND field is refused only where the instruction rounds with it
(log entry 124: DESIGN CHOICE). -/
def TD.lakeOk (t : TD) : Chk :=
  firstChk [need (!t.rsv && t.lake && decide (4 ≤ t.fmt) && decide (t.fmt < 12) && !(t.fmt == 7 && t.block) &&
      (t.outMult == 0 || decide (16 ≤ t.outMult))),
    align (t.addr % lakeBytes t.fmt t.block == 0), t.rotOk]

/-- The check of a tile of either kind. -/
def TD.tileOk (t : TD) : Chk := if t.lake then t.lakeOk else t.plainOk

/-! ## Plain tiles -/

/-- The address of element (i, j) of a plain tile: T32, row-major 32 × 32 tiles, STRIDE between consecutive rows of tiles
(R87, R98, R277; log entry 39: DEDUCED). -/
def TD.elemAddr (t : TD) (i j : Nat) : Nat :=
  let w := fmtBytes t.fmt
  t.addr + i / 32 * (64 * t.stride) + j / 32 * (1024 * w) + (i % 32 * 32 + j % 32) * w

/-- The runs of bytes that the first `r` rows and `c` columns of a plain tile occupy. -/
def TD.spans (t : TD) (r c : Nat) : List (Nat × Nat) :=
  (List.range r).flatMap (fun i => (List.range (ceilDiv c 32)).map (fun b =>
    (t.elemAddr i (32 * b), min 32 (c - 32 * b) * fmtBytes t.fmt)))

/-- The runs of bytes of the lakes of the first `r` tensor rows (R43, R277). -/
def TD.lakeSpans (t : TD) (r k : Nat) : List (Nat × Nat) :=
  (List.range r).map (fun i => (t.addr + i * (64 * t.stride), ceilDiv k (lakeElems t.fmt t.block) * lakeBytes t.fmt t.block))

/-- Whether a run of the core-local space or of the device space may be reached by an array, the vector engine or the Mordant
unit: the operand store and Vat, or the memory and stores of the context's partitions (R300, R331). -/
def State.unitReach (s : State) (x : Nat) (space : Bool) (a n : Nat) : Bool :=
  if space then s.ctxMemStore x a n else decide (a + n ≤ 0x600000)

/-- The number that `n` bytes hold, and their poison. -/
def State.spaceNum (s : State) (core : Nat) (space : Bool) (a n : Nat) : Nat × Bool :=
  if space then (s.devNum a n, s.devPo a n) else ((s.core core).loc.num a n, (s.core core).loc.readPo a n)

/-- Bytes of a space. -/
def State.spaceRead (s : State) (core : Nat) (space : Bool) (a n : Nat) : List Byte :=
  if space then s.devRead a n else (s.core core).loc.read a n

/-- Poison of bytes of a space. -/
def State.spacePo (s : State) (core : Nat) (space : Bool) (a n : Nat) : Bool :=
  if space then s.devPo a n else (s.core core).loc.readPo a n

/-- Element (i, j) of a plain tile: its code and its poison. -/
def State.elem (s : State) (core : Nat) (t : TD) (i j : Nat) : Nat × Bool :=
  s.spaceNum core t.space (t.elemAddr i j) (fmtBytes t.fmt)

/-- The value of an element and its poison. -/
def State.elemV (s : State) (core : Nat) (t : TD) (i j : Nat) : FV × Bool :=
  let e := s.elem core t i j
  (plainValue t.fmt e.1, e.2)

/-- The rows and columns of a plain tile as codes with poison. -/
def State.codes (s : State) (core : Nat) (t : TD) (r c : Nat) : List (List (Nat × Bool)) :=
  (List.range r).map (fun i => (List.range c).map (fun j => s.elem core t i j))

/-- The pieces that write the elements of a plain tile, row by row. -/
def TD.pieces (t : TD) (rows : List (List (Nat × Bool))) : List Piece :=
  rows.zipIdx.flatMap (fun r => r.1.zipIdx.map (fun e =>
    ({ addr := t.elemAddr r.2 e.2, data := leBytes (fmtBytes t.fmt) e.1.1, po := e.1.2 } : Piece)))

/-! ## Conversions -/

/-- The result of one conversion: the code, whether it saturated, a NaN was counted, and Kermes bits were drawn (R46 to R48,
R165). -/
structure ConvR where
  code : Nat
  sat : Bool := false
  nan : Bool := false
  drew : Bool := false
  deriving DecidableEq, Repr

/-- Whether a value is inexact in a plain format, so that SR draws bits for it (R48, R165). -/
def inexactIn (c : Nat) (v : FV) : Bool :=
  match v with
  | .fin _ m =>
    if c = 6 ∨ c = 7 then
      let t := m.scaled 0
      t.1 % t.2 != 0
    else match FFmt.ofCode c with
      | some f => f.inexact m
      | none => false
  | _ => false

/-- A value converted to a plain element outside a lake; `satAll`: an overflow saturates (R132). -/
def convert (c : Nat) (mode : Rnd) (r : Nat) (satAll wrap : Bool) (v : FV) : ConvR :=
  let o := if c = 6 ∨ c = 7 then toPlain c mode r (wrap && !satAll) v
    else match FFmt.ofCode c with
      | some f => f.round mode r satAll v
      | none => (0, false)
  { code := if c = 1 then xf19Container o.1 else o.1, sat := o.2, nan := v.isNan, drew := mode == .sr && inexactIn c v }

/-- Whether a target permits RO (R49): FP32, XF19, BF16 or FP16. -/
def roOk (rnd fmt : Nat) : Bool := rnd != 3 || decide (fmt < 4)

/-! ## Lakes as they are read -/

/-- An element of a lake under R45: padding, NaN, a slot's BF16 code, or an in-band code's image σ × 2^ε before its block
scale (R34, R59). An infinity of FP8-E5M2 has its sign, and so has the negative zero of a floating-point format. -/
inductive LElem where
  | pad
  | nan
  | slot (code : Nat)
  | img (sig : Int) (eps : Int)
  | negZero
  | inf (neg : Bool)
  deriving DecidableEq, Repr

/-- A lake taken apart under R37 to R45. -/
structure Lake where
  poisoned : Bool
  malformed : Bool
  /-- scale code of each block, and whether it is a NaN block -/
  scales : List Nat
  nanBlk : List Bool
  /-- blocks for which a reader counts one NaN (R31, R44) -/
  nans : Nat
  elems : List LElem
  deriving DecidableEq, Repr

/-- Byte offsets of the outlier slots (R38, R39). -/
def slotOffs (fmt : Nat) (block : Bool) : List Nat :=
  if lakePaired fmt block then [52, 55, 58, 61, 113, 116, 119, 122, 125]
  else if fmt < 7 then [52, 55, 58, 61]
  else if fmt = 7 then [55, 58, 61]
  else if fmt < 10 then (if block then [52, 55, 58, 61] else [55, 58, 61])
  else if block then [55, 58, 61] else [61]

/-- Byte offset of the payload. -/
def payOff (fmt : Nat) (block : Bool) : Nat :=
  if fmt < 7 then 4 else if fmt = 7 then 7 else if fmt < 10 then (if block then 4 else 7) else (if block then 7 else 13)

/-- Elements of a block. -/
def blkElems (block : Bool) : Nat := if block then 32 else 16

/-- The in-band code of element `i` of a lake's bytes (R40). -/
def lakeCode (fmt : Nat) (block : Bool) (b : List Byte) (i : Nat) : Nat :=
  let at_ := fun k => (b.getD k 0).toNat
  if fmt < 8 then
    (if lakePaired fmt block ∧ 48 ≤ i then at_ (65 + (i - 48)) else at_ (payOff fmt block + i))
  else if fmt < 10 then natBits (at_ (payOff fmt block + i / 2)) (4 * (i % 2) + 3) (4 * (i % 2))
  else natBits (at_ (payOff fmt block + i / 4)) (2 * (i % 4) + 1) (2 * (i % 4))

/-- The image of an in-band code (R25, R30, R59); `z` is the zero point of its block. -/
def codeImage (fmt z c : Nat) : LElem :=
  if fmt = 6 then .img (if c ≥ 128 then (c : Int) - 256 else c) (-6)
  else if fmt = 7 then .img ((c : Int) - z) (-7)
  else if fmt = 9 then .img (if c ≥ 8 then (c : Int) - 16 else c) (-2)
  else if fmt = 10 then .img (2 * (c : Int) - 3) (-1)
  else if fmt = 11 then .img (if c = 1 then 1 else if c = 2 then -1 else 0) 0
  else match FFmt.ofCode fmt with
    | none => .nan
    | some f => match f.decode c with
      | .nan => .nan
      | .inf s => .inf s
      | .fin s m => if s && m.num == 0 then .negZero else .img (if s then -(m.num : Int) else m.num) m.exp

/-- The slots of a lake: whether their indices break R44, and the (index, BF16 code) pairs. -/
def scanSlots (elems real : Nat) : List (Nat × Nat) → Bool → Option Nat → Bool × List (Nat × Nat)
  | [], _, _ => (false, [])
  | (i, v) :: t, empty, last =>
    if i = 255 then scanSlots elems real t true last
    else
      let bad := empty || decide (elems ≤ i) || decide (real ≤ i) || (match last with
        | some l => decide (i ≤ l)
        | none => false)
      let r := scanSlots elems real t empty (some i)
      (bad || r.1, (i, v) :: r.2)

/-- Whether a lake's bytes set POISON in either header (R37, R39, R45). -/
def lakePoison (t : TD) (b : List Byte) : Bool := natBit (b.getD 0 0).toNat 7 || (lakePaired t.fmt t.block && natBit (b.getD 64 0).toNat 7)

/-- The lake that bytes spell for a descriptor, with `real` of its elements inside the tensor (R37 to R45). `po`: a unit of it
is poisoned. Where POISON is set, row 1 of R45 gives the elements no value: they are a free function of the bytes (log entry 113:
DESIGN CHOICE). -/
def lakeOf (t : TD) (raw : List Byte) (po : Bool) (real : Nat) : Lake :=
  let b := if lakePoison t raw then Config.poisonedLake raw else raw
  let h := (b.getD 0 0).toNat
  let h2 := (b.getD 64 0).toNat
  let paired := lakePaired t.fmt t.block
  let n := lakeElems t.fmt t.block
  let bs := blkElems t.block
  let nb := n / bs
  let slots := (slotOffs t.fmt t.block).map (fun o =>
    ((b.getD o 0).toNat, (b.getD (o + 1) 0).toNat + 256 * (b.getD (o + 2) 0).toNat))
  let sc := scanSlots n real slots false none
  let bad := natBits h 3 0 != t.fmt || natBit h 4 != t.block || (natBit h 5 != (natBits h 3 0 == 7)) ||
    natBit h 6 != t.rot || (paired && h % 128 != h2 % 128) || sc.1
  let scales := (List.range nb).map (fun k => (b.getD (1 + k) 0).toNat)
  let named := fun i => sc.2.any (fun e => e.1 == i)
  let terBad := (List.range nb).map (fun k => t.fmt == 11 && (List.range bs).any (fun q =>
    let i := k * bs + q
    decide (i < real) && !named i && lakeCode t.fmt t.block b i == 3))
  let nanBlk := (List.range nb).map (fun k => scales.getD k 0 == 255 || terBad.getD k false)
  { poisoned := po || lakePoison t raw
    malformed := bad
    scales := scales
    nanBlk := nanBlk
    nans := if bad then nb else (terBad.filter (fun x => x)).length
    elems := (List.range n).map (fun i =>
      if bad then .nan
      else if real ≤ i then .pad
      else if nanBlk.getD (i / bs) false then .nan
      else match sc.2.find? (fun e => e.1 == i) with
        | some e => .slot e.2
        | none => codeImage t.fmt (b.getD (1 + nb + i / bs) 0).toNat (lakeCode t.fmt t.block b i)) }

/-- The value of element `i` of a lake (R34, R45); padding is zero. -/
def Lake.value (l : Lake) (bs i : Nat) : FV :=
  match l.elems.getD i .pad with
  | .pad => .fin false (Mag.dyadic 0 0)
  | .nan => .nan
  | .slot c => bf16.decode c
  | .inf s => .inf s
  | .negZero => .fin true (Mag.dyadic 0 0)
  | .img s e => .ofInt s (e + (l.scales.getD (i / bs) 0 : Int) - 127)

/-- The bytes of lake `l` of tensor row `r`, and whether one of their units is poisoned (R277). A paired lake whose row stride puts it at
an address that is no multiple of 128 is read and written there all the same (R39, log entry 121: DESIGN CHOICE). -/
def State.lakeRaw (s : State) (core : Nat) (t : TD) (r l : Nat) : List Byte × Bool :=
  let len := lakeBytes t.fmt t.block
  let a := t.addr + r * (64 * t.stride) + l * len
  (s.spaceRead core t.space a len, s.spacePo core t.space a len)

/-- Lake `l` of tensor row `r` (R43, R277). -/
def State.lakeAt (s : State) (core : Nat) (t : TD) (r l : Nat) : Lake :=
  let q := s.lakeRaw core t r l
  lakeOf t q.1 q.2 (t.cols - lakeElems t.fmt t.block * l)

/-! ## Tensor records and Kermes draws -/

/-- The tensor identifier of a descriptor (R162). -/
def State.tensorId (s : State) (n : Nat) (t : TD) : Nat := if t.trv then s.devNum (s.recAddr n t.trec) 2 else t.kid

/-- The 16 bits of SR for element (row, col) of a conversion (R162, conversion row). -/
def State.convBits (s : State) (x tensor row col : Nat) : Nat :=
  srBits (s.ctxSeed x) streamConvert (s.ctx x).stepno.toNat tensor 0 (row * 2 ^ 32 + col)

/-- Evaluations counted against a class of generators: 0 cores, 1 Madder slices, 2 links, 3 base dies (KRM_CNT). -/
def State.evalsUp (s : State) (cls k : Nat) : State := { s with evals := AMap.put 0 cls (AMap.get 0 cls s.evals + k) s.evals }

end Sys2Proof.Machine
end

