-- ==== Sys2Proof/Machine/Store.lean ====
section
/-! DEFINITION. Writes into the memory hierarchy: what the memory path refuses, what it discards, the poison it marks, the
running checksums that it folds, and the writes that an epoch holds (R107, R225, R257, R331, R337, R340, R342, R383, R404,
R409, R415). -/

namespace Sys2Proof.Machine

/-! ## Running checksums -/

/-- The product of two polynomials modulo that of R77. -/
def crcMul (a b : W64) : W64 :=
  (List.range 64).foldl (fun acc i => crc64Shift 1 acc ^^^ (if b.getLsbD (63 - i) then a else 0)) 0

/-- The power x^n modulo the polynomial, by squaring. -/
def crcPow : Nat → Nat → W64
  | 0, _ => 1
  | f + 1, n =>
    let h := crcPow f (n / 2)
    let q := crcMul h h
    if n % 2 = 1 then crc64Shift 1 q else q

/-- The shard of a context's checksum set that holds an address, and the offset in it (R409). -/
def shardOf : List (Nat × Nat × Bool) → Nat → Nat → Option (Nat × Nat)
  | [], _, _ => none
  | (b, n, ck) :: t, a, base =>
    if ck then
      (if b ≤ a ∧ a < b + n then some ((base + (a - b)) / 2 ^ 26, (base + (a - b)) % 2 ^ 26) else shardOf t a (base + n))
    else shardOf t a base

/-- A full 64-byte write folded into the running value of its shard (R409). -/
def State.foldUnit (s : State) (a : Nat) (data : List Byte) : State :=
  (List.range 4).foldl (fun s x =>
    let c := s.ctx x
    match (if c.ckptOk then shardOf c.regions a 0 else none) with
    | none => s
    | some (k, o) =>
      let e := AMap.get (0, 0) k c.shards
      let v := e.1 ^^^ crcMul (crc64 data) (crcPow 30 (8 * (2 ^ 26 - o - 64)))
      s.setCtx x { c with shards := AMap.put (0, 0) k (v, e.2 + 1) c.shards }) s

/-! ## What stops a write -/

/-- Whether an engine's page-table area covers an address: the area is set once ENABLE is set or IND_PTA has been written
(R225, log entry 40: DEDUCED). -/
def State.ptaAt (s : State) (a : Nat) : Option Nat :=
  (List.range 48).find? (fun e =>
    let v := s.reg .indPta e 0
    let base := bitsOf v 27 0 * 2 ^ 20
    (natBit (s.reg .indCtrl e 0).toNat 0 || v != 0) && decide (base ≤ a ∧ a < base + 2 ^ (20 + bitsOf v 31 28)))

/-- Whether a pinned region of a context with REPLAY set covers an address: from launch to the step commit (R404). -/
def State.pinnedAt (s : State) (x a : Nat) : Bool :=
  let c := s.ctx x
  c.st == .running && natBit (s.reg .errCtxCfg 0 x).toNat 4 &&
    (List.range 16).any (fun i =>
      let e := storeAddr (lowPart c.parts) (s.fld .errCtxPin 0 x 27 8 * 256) + 16 * i
      let b := s.mem.num e 8
      decide (b ≤ a ∧ a < b + s.mem.num (e + 8) 8))

/-- Whether an address lies in a piece of a save's checkpoint set: region, offset, bytes (R407). -/
def State.inPiece (s : State) (v : Save) (q : Nat × Nat × Nat) (a : Nat) : Bool :=
  match (s.ctx v.slot).regions[q.1]? with
  | none => false
  | some r => decide (r.1 + q.2.1 ≤ a ∧ a < r.1 + q.2.1 + q.2.2)

/-- Whether a unit of a context's checkpoint set is still to be captured, so that a write to it waits (R415). -/
def State.captureHolds (s : State) (a : Nat) : Bool :=
  match s.sep.save with
  | none => false
  | some v => v.todo.any (fun q => s.inPiece v q.1 a)

/-- Writes to some addresses wait: the pieces that hold them are captured ahead of others (R415). -/
def State.await (s : State) (l : List Nat) : State :=
  match s.sep.save with
  | none => s
  | some v => s.setSep { s.sep with save := some { v with
      wanted := (v.wanted ++ (v.todo.filter (fun q => l.any (s.inPiece v q.1))).map (fun q => q.2)).eraseDups } }

/-- Whether the memory path refuses an ordinary write of a context to an address: unmapped or outside the context, an armed or
draining Vat-write region, a page-table area, a pinned region. -/
def State.refuses (s : State) (x a : Nat) : Bool :=
  !s.ctxReach x a || (s.regionAt a).isSome || (s.ptaAt a).isSome || s.pinnedAt x a

/-- The error bits that a refused write sets (R225, R342). -/
def State.noteRefused (s : State) (a : Nat) : State :=
  match s.regionAt a with
  | some (p, _) => s.vwrErr p 3 a
  | none => match s.ptaAt a with
    | some e => s.indErr e 0
    | none => s

/-! ## Writes performed -/

/-- The poison tally of a slot advanced (R383). -/
def State.tallyUp (s : State) (x k : Nat) : State :=
  if k = 0 then s else s.setCtx x { s.ctx x with tally := (s.ctx x).tally + k }

/-- The last access of the stack that holds an address (R457). -/
def State.touchStack (s : State) (a : Nat) : State :=
  match locOf a with
  | .mem p off =>
    let n := s.stackOf p off
    let v := s.stack n
    s.setStack n { v with lastAccess := s.tim.now }
  | _ => s

/-- One unit of device memory or a partition store written from the pieces that fall in it: discarded where its pseudo-channel
is retired (R340), else stored with its poison (R337) and folded when it is whole (R409). -/
def State.putUnit (s : State) (ps : List Piece) (u : Nat) (po : Bool) (n : Nat) : State :=
  if s.retired (64 * u) then
    match locOf (64 * u) with
    | .mem p off => s.memErr (s.stackOf p off) 7 0 (64 * u)
    | _ => s
  else
    let s1 := s.setMem (s.mem.write (ps.filter (fun p => p.addr / 64 == u)))
    let s2 := s1.touchStack (64 * u)
    if n = 64 ∧ !po then s2.foldUnit (64 * u) (s2.mem.read (64 * u) 64) else s2

/-- Pieces of tier 3 written to host memory through their windows, each sent with the poison of its unit (R429, R432). -/
def State.putHost (s : State) (ps : List Piece) : State :=
  let hs := ps.filterMap (fun p => match locOf p.addr with
    | .tier3 w o => (s.t3Host w o).map (fun h => ({ p with addr := h } : Piece))
    | _ => none)
  let s1 := s.setHost (s.host.write hs)
  hs.foldl (fun s p => s.emit (.hostWrite p.addr p.data p.po)) s1

/-- A write of context `x` performed: units that the memory path refuses are discarded, the others are stored; poisoned units of
device memory and tier 3 join the tally (R383). The answer says whether any unit was refused, which ends the context. -/
def State.performWrite (s : State) (x : Nat) (ps0 : List Piece) : State × Bool :=
  let ps := splitUnits (splitFuel ps0) ps0
  let bad := ps.filter (fun p => s.refuses x p.addr)
  let ok := ps.filter (fun p => !s.refuses x p.addr)
  let s1 := bad.foldl (fun s p => s.noteRefused p.addr) s
  let dev := ok.filter (fun p => !isT3 p.addr)
  let t3 := ok.filter (fun p => isT3 p.addr)
  let s2 := ((coverOf dev).foldl (fun s e => s.putUnit dev e.1 e.2.1 e.2.2) s1).chargeRuns (.slot x) (dev.map (fun p => (p.addr, p.data.length)))
  let s3 := s2.putHost t3
  let inStore := fun u => match locOf (64 * u) with
    | .store _ _ => true
    | _ => false
  let k := ((coverOf ok).filter (fun e => e.2.1 && !inStore e.1)).length
  (s3.tallyUp x k, !bad.isEmpty)

/-- A write to the core-local space performed. -/
def State.localWrite (s : State) (n : Nat) (ps : List Piece) : State :=
  s.setCore n { s.core n with loc := (s.core n).loc.write ps }

/-! ## Class Q and held instructions -/

/-- An instruction held by the current epoch of a core (R257). -/
def Core.holdIn (c : Core) (h : HeldIns) : Core :=
  { c with epochs := c.epochs.map (fun e => if some e.tag = c.cur then { e with held := e.held ++ [h] } else e) }

/-- The digest of the program that a context runs, by its certificate (R316). -/
def State.progDigest (s : State) (x : Nat) : List Byte := ((s.ctx x).running.map (fun g => g.cert.digest)).getD []

/-- The index within a context of one of its partitions, by number (R255). -/
def State.partIndex (s : State) (x p : Nat) : Nat := ((List.range p).filter (fun q => natBit (s.ctx x).parts.toNat q)).length

/-- Whether a byte lies in a speculative region that the program's certificate declares: of the operand store of core `n`, or of a
partition store (R257). Which those are is a constant of the program with no body (log entry 35). -/
def State.inRegion (s : State) (n x : Nat) (dev : Bool) (a : Nat) : Bool :=
  if dev then match locOf a with
    | .store p o => Config.specStore (s.progDigest x) (s.partIndex x p) o
    | _ => false
  else decide (a < 0x400000) && Config.specLocal (s.progDigest x) ((s.lcore n).getD 0) a

/-- Whether pieces reach out of the speculative regions while an epoch is open. -/
def State.reachOut (s : State) (n x : Nat) (dev : Bool) (ps : List Piece) : Bool :=
  !(s.core n).epochs.isEmpty && !ps.all (fun p => (List.range p.data.length).all (fun i => s.inRegion n x dev (p.addr + i)))

/-- What a write of a slot does. -/
inductive StoreRes where
  | done (s : State)
  | refused (s : State)
  | wait (w : Wait)

/-- A write of context `x` performed at once: it waits for a capture of what it writes (R408), and ends the context where a unit is refused. -/
def State.storeNow (s : State) (n x : Nat) (dev : Bool) (ps : List Piece) : StoreRes :=
  if !dev then .done (s.localWrite n ps)
  else if ps.any (fun p => s.captureHolds p.addr) then .wait (.write (ps.map (fun p => p.addr)))
  else
    let r := s.performWrite x ps
    if r.2 then .refused r.1 else .done r.1

/-- A write of class Q performed, held or made to wait (R257, R299): outside the speculative regions an open epoch holds it, and an
instruction outside any epoch waits until no epoch is open. -/
def State.store (s : State) (n x slot op : Nat) (dev : Bool) (ps : List Piece) : StoreRes :=
  let c := s.core n
  if !s.reachOut n x dev ps then s.storeNow n x dev ps
  else if c.cur.isSome then .done (s.setCore n (c.holdIn { h := .write dev ps, word := c.pc, slot := slot, op := op }))
  else .wait .stall

end Sys2Proof.Machine
end

