-- ==== Sys2Proof/Machine/Accum.lean ====
section
/-! DEFINITION. Accumulator storage and bank sets of the Woad and Madder arrays (R73, R74, R81, R95, R122), and the counters that the
Mordant unit keeps for every unit of its core (R29, R136, R137). -/

namespace Sys2Proof.Machine

/-! ## Storage -/

/-- Accumulator storage: a word and the poison of its halves, by word number. -/
abbrev Acc := AMap (W32 × Nat)

/-- The format of an accumulator. -/
def accFmt (fp16_ : Bool) : FFmt := if fp16_ then fp16 else fp32

/-- The storage word of element (i, j) of a bank (R81, R122). -/
def accWord (fp16_ : Bool) (bank i j : Nat) : Nat :=
  if fp16_ then 512 * bank + 16 * i + j / 2 else 1024 * bank + 32 * i + j

/-- Element (i, j) of a bank of the storage from `base`: its code and its poison. -/
def accGet (m : Acc) (base : Nat) (fp16_ : Bool) (bank i j : Nat) : Nat × Bool :=
  let e := AMap.get (0, 0) (base + accWord fp16_ bank i j) m
  if fp16_ then (natBits e.1.toNat (16 * (j % 2) + 15) (16 * (j % 2)), natBit e.2 (j % 2)) else (e.1.toNat, e.2 != 0)

/-- Element (i, j) of a bank written. -/
def accPut (m : Acc) (base : Nat) (fp16_ : Bool) (bank i j : Nat) (v : Nat × Bool) : Acc :=
  let k := base + accWord fp16_ bank i j
  let e := AMap.get (0, 0) k m
  if fp16_ then
    let h := j % 2
    let w := e.1.toNat - natBits e.1.toNat (16 * h + 15) (16 * h) * 2 ^ (16 * h) + v.1 % 65536 * 2 ^ (16 * h)
    let p := e.2 - bit (natBit e.2 h) * 2 ^ h + bit v.2 * 2 ^ h
    AMap.put (0, 0) k (BitVec.ofNat 32 w, p) m
  else AMap.put (0, 0) k (BitVec.ofNat 32 v.1, 3 * bit v.2) m

/-! ## Shapes and bank sets -/

/-- Rows and columns of sub-tiles of a shape (R74). -/
def shapeSub (shape : Nat) : Nat × Nat := if shape = 0 then (1, 1) else if shape = 1 then (1, 2) else (2, 2)

/-- Banks of a shape. -/
def shapeBanks (shape : Nat) : Nat := (shapeSub shape).1 * (shapeSub shape).2

/-- Bank of the sub-tile that holds row i, column j of a tile: the first bank + 2r + c for sub-tile (r, c) (log entry 122: DESIGN CHOICE). -/
def subBank (bank i j : Nat) : Nat := bank + 2 * (i / 32) + j / 32

/-- Element (i, j) of the tile of a bank set. -/
def setGet (m : Acc) (base : Nat) (fp16_ : Bool) (bank i j : Nat) : Nat × Bool :=
  accGet m base fp16_ (subBank bank i j) (i % 32) (j % 32)

/-- The elements of a tile rewritten, row by row. -/
def setPut (m : Acc) (base : Nat) (fp16_ : Bool) (bank : Nat) (rows : List (List (Nat × Bool))) : Acc :=
  rows.zipIdx.foldl (fun m r => r.1.zipIdx.foldl (fun m e =>
    accPut m base fp16_ (subBank bank r.2 e.2) (r.2 % 32) (e.2 % 32) e.1) m) m

/-- The 2 KiB halves that a bank set occupies: FP16 bank b is half b mod 2 of FP32 bank ⌊b/2⌋ (R73, R95). -/
def setHalves (shape : Nat) (fp16_ : Bool) (bank : Nat) : List Nat :=
  if fp16_ then (List.range (shapeBanks shape)).map (fun i => bank + i)
  else (List.range (2 * shapeBanks shape)).map (fun i => 2 * bank + i)

/-- Whether an open bank set is exactly the one named. -/
def BankSet.is (b : BankSet) (arr shape : Nat) (fp16_ : Bool) (bank : Nat) : Bool :=
  b.arr == arr && b.shape == shape && b.fp16 == fp16_ && b.bank == bank

/-- Whether a bank set may be named by an accumulating instruction, `halves` being the storage of an array in 2 KiB halves
(R74). -/
def bankOk (sets : List BankSet) (halves arr shape : Nat) (fp16_ : Bool) (bank : Nat) (start : Bool) : Bool :=
  decide (shape < 3) && bank % shapeBanks shape == 0 &&
    (setHalves shape fp16_ bank).all (fun h => decide (h < halves)) &&
    sets.all (fun b => b.arr != arr || b.is arr shape fp16_ bank ||
      (setHalves b.shape b.fp16 b.bank).all (fun h => !(setHalves shape fp16_ bank).contains h)) &&
    (start || sets.any (fun b => b.is arr shape fp16_ bank))

/-- Whether a WCK, WFL or MFL names an open bank set (R74). -/
def bankOpen (sets : List BankSet) (arr shape : Nat) (fp16_ : Bool) (bank : Nat) : Bool :=
  decide (shape < 3) && bank % shapeBanks shape == 0 && sets.any (fun b => b.is arr shape fp16_ bank)

/-- The bank set opened by the current epoch, or restarted when it is open. -/
def openSet (sets : List BankSet) (b : BankSet) : List BankSet :=
  match sets.find? (fun q => q.is b.arr b.shape b.fp16 b.bank) with
  | some q => sets.map (fun z => if z = q then { b with epoch := q.epoch } else z)
  | none => sets ++ [b]

/-- A bank set closed. -/
def closeSet (sets : List BankSet) (arr shape : Nat) (fp16_ : Bool) (bank : Nat) : List BankSet :=
  sets.filter (fun b => !b.is arr shape fp16_ bank)

/-- The addition of a value into an accumulator code: one rounding; FP32 flushes a subnormal result (R28, R65, R84). -/
def accAdd (fp16_ : Bool) (mode : Rnd) (r : Nat) (code : Nat) (v : FV) : Nat :=
  let f := accFmt fp16_
  let c := (f.round mode r false (FV.add (f.decode code) v)).1
  if fp16_ then c else f.flush c

/-- An instruction in flight on an array (R80, R122). -/
def State.fly (s : State) (n key : Nat) : State :=
  let c := s.core n
  if c.flight.contains key then s else s.setCore n { c with flight := c.flight ++ [key] }

/-- The output formats of WFL and MFL (R77, R288). -/
def ofmtCode (o : Nat) : Nat := if o = 0 then 0 else if o = 1 then 2 else 3

/-! ## Counters of the Mordant unit -/

/-- The sum of two deltas: counts added, saturating, maxima taken (R137, R146; FP32 patterns as numbers, log entry 51: DEDUCED). -/
def Delta.add (a b : Delta) : Delta :=
  { sat := satNat (a.sat + b.sat), nan := satNat (a.nan + b.nan), ovf := satNat (a.ovf + b.ovf), ufl := satNat (a.ufl + b.ufl)
    elems := satNat (a.elems + b.elems), checked := satNat (a.checked + b.checked), failed := satNat (a.failed + b.failed)
    errMax := if a.errMax.ult b.errMax then b.errMax else a.errMax
    amax := if a.amax.ult b.amax then b.amax else a.amax }
where
  satNat (n : Nat) : Nat := min n (2 ^ 32 - 1)

/-- The run of the current epoch of a core. -/
def Core.curRun (c : Core) : Option Run := (c.epochs.find? (fun e => some e.tag == c.cur)).map (fun e => e.run)

/-- Counter-file entries in use: one for each tensor (R136). -/
def Core.cfUsed (c : Core) : List Nat := ((c.cf.filter (fun e => !e.judged)).map (fun e => e.trec)).eraseDups

/-- Deltas counted for a tensor in the current epoch; the first claims an entry, and `none` says that a 33rd would be needed
(R136, R137). -/
def Core.count (c : Core) (trec : Nat) (d : Delta) : Option Core :=
  match c.cf.find? (fun e => e.trec == trec && e.tag == c.cur) with
  | some q => some { c with cf := c.cf.map (fun e => if e = q then { q with d := q.d.add d } else e) }
  | none =>
    if !c.cfUsed.contains trec && decide (32 ≤ c.cfUsed.length) then none
    else some { c with cf := c.cf ++ [{ trec := trec, tag := c.cur, run := c.curRun.getD { layer := 0, mb := 0 }, d := d }] }

/-- Events of a core counted: the event counters of the core, and the deltas of a tensor where the descriptor names its record.
`none`: a 33rd counter-file entry is needed. `claim`: an entry is claimed though nothing is counted (R136). -/
def State.countFor (s : State) (n : Nat) (t : TD) (claim : Bool) (d : Delta) : Option State :=
  let s1 := ((s.bump .morCnt n 0 d.sat).bump .morCnt n 1 d.nan).bump .morCnt n 2 d.ovf
  if !t.trv || (!claim && d == {}) then some s1
  else (((s1.core n).count t.trec d).map (fun c => s1.setCore n c))

/-- The descriptors that a T-slot instruction names, each with what is counted for its operand: one that names a record claims its entry
though nothing is counted (R136). -/
def State.countAll (s : State) (n : Nat) : List (TD × Delta) → Option State
  | [] => some s
  | (t, d) :: l => match s.countFor n t true d with
    | none => none
    | some s1 => s1.countAll n l

/-- The status of an instruction that needs a 33rd counter-file entry (R137, MOR_ERR.CF_FULL). -/
def cfFull (s : State) (n : Nat) : SlotRes := .faultIn (s.orReg .morErr n 0 4) stIllegal

/-- A read or write of the core-local space out of the operand store and Vat, or of the device space out of the context's memory and
stores, over any of a list of runs (R300). -/
def State.runsOk (s : State) (x : Nat) (space : Bool) (l : List (Nat × Nat)) : Bool :=
  l.all (fun r => r.2 == 0 || s.unitReach x space r.1 r.2)

/-- The write of a plain tile by an array or the Mordant unit into a space (R257, R299). -/
def State.putTile (s : State) (n x slot op : Nat) (t : TD) (rows : List (List (Nat × Bool))) : StoreRes :=
  s.store n x slot op t.space (t.pieces rows)

/-- What a slot answers once its write is performed, held, refused or made to wait. -/
def storeDone : StoreRes → List RegW → SlotRes
  | .done s, ws => .done s ws none
  | .refused s, _ => .faultIn s stPage
  | .wait w, _ => .wait w

/-- A save at an instruction boundary is requested, so that START-bearing array instructions and walk requests do not issue
(R263). -/
def State.savePauses (s : State) (x : Nat) : Bool :=
  match (s.ctx x).save with
  | some q => q.instr
  | none => false

end Sys2Proof.Machine
end

