-- ==== Sys2Proof/Machine/Woad.lean ====
section
/-! DEFINITION. The W slot: the Woad arrays (R53 to R79, R288, R289), shadow selection and sampled tiles (R140, R141, R395). -/

namespace Sys2Proof.Machine

/-- The fields of a W-slot opcode: those that it does not use are zero (R275, R288). -/
def wOk (w : WSlot) (bind td start set g sk ofmt rnd ck : Bool) : Bool :=
  hdrOk w.i rnd false false false false && decide (w.i.rnd.val ≤ 4) && (bind || !w.bind) && (td || w.td == 0) &&
    (start || !w.start) && (set || (w.shape == 0 && !w.afmt && w.bank == 0)) && w.shape != 3 &&
    (w.afmt || decide (w.bank.val < 8)) && (g || w.g == 0) && w.g != 3 && (sk || (w.sk0 == 0 && w.sklen == 0)) &&
    (ofmt || w.ofmt == 0) && w.ofmt != 3 && (if ck then w.sample || w.pd == 0 else !w.sample && w.pd == 0)

/-- A W-slot command: refused in a context in reference mode (R204). -/
def wCmd (w : WSlot) (op : Nat) (k : Cls) (legal : Bool) (body : State → Nat → Nat → SlotRes) : Slot :=
  slotCmd w.i 3 op k false legal (fun s n x =>
    if (s.ctx x).refmode then .status stIllegal true
    else body ((s.demand n (1 + w.arr.val)).fly n (if op = 0x01 then 8 + w.arr.val else w.arr.val)) n x)

/-- Weight formats that a Woad array accepts (R53). -/
def woadWeight (f : Nat) : Bool := [4, 6, 8, 9, 10, 11].contains f
/-- Activation formats (R53). -/
def woadAct (f : Nat) : Bool := [4, 6, 7].contains f

/-- The descriptor of a Woad operand: an accepted lake format in the operand store (R53, R58; log entry 52: DESIGN CHOICE). -/
def woadOperand (t : TD) (f : Nat → Bool) : Chk := firstChk [t.lakeOk, need (f t.fmt && !t.space)]

/-- How many of the first two weight lakes of a K range there are (R72). -/
def latchLakes (t : TD) (k0 klen : Nat) : Nat :=
  let n := lakeElems t.fmt t.block
  min 2 (ceilDiv (k0 + klen) n - k0 / n)

/-- WLD: binds the weight tile with its K range (R76, R289), and latches the first two weight lakes of every array column (R55, R72; log
entry 119: DEDUCED). -/
def slotWld (w : WSlot) : Slot :=
  wCmd w 0x01 .a (wOk w true true false false false true false false false) (fun s n x =>
    let c := s.core n
    let d := c.treg w.td.val
    let k0 := c.sreg w.sk0.val
    let kl := c.sreg w.sklen.val
    if d.2 || k0.2 || kl.2 then .status stPoison false
    else match woadOperand (tdOf d.1) woadWeight with
      | some e => .status e true
      | none =>
        let t := tdOf d.1
        let l0 := k0.1.toNat / lakeElems t.fmt t.block
        let m := latchLakes t k0.1.toNat kl.1.toNat
        let cols := min 32 t.rows
        let runs := (List.range cols).map (fun r => (t.addr + r * (64 * t.stride) + l0 * lakeBytes t.fmt t.block, m * lakeBytes t.fmt t.block))
        let b : Binding := { primed := true, td := d.1, k0 := k0.1.toNat, klen := kl.1.toNat
                             latch := (List.range cols).map (fun r => (List.range m).map (fun l => s.lakeRaw n t r (l0 + l))) }
        if !s.runsOk x false runs then .status stPage false
        else .done (s.setCore n { c with bindings := AMap.put {} (2 * w.arr.val + bit w.bind) b c.bindings }) [] none)

/-! ## The product of a tile -/

/-- A lake with no element. -/
def noLake : Lake := { poisoned := false, malformed := false, scales := [], nanBlk := [], nans := 0, elems := [] }

/-- The lakes of one tensor row over a K range. -/
structure LakeRow where
  lakes : List Lake
  first : Nat
  n : Nat
  bs : Nat

/-- The lakes of row `r` that hold K positions k0 to k0 + len − 1. -/
def State.lakeRow (s : State) (core : Nat) (t : TD) (r k0 len : Nat) : LakeRow :=
  let n := lakeElems t.fmt t.block
  let l0 := k0 / n
  { lakes := (List.range (ceilDiv (k0 + len) n - l0)).map (fun l => s.lakeAt core t r (l0 + l)), first := l0, n := n, bs := blkElems t.block }

/-- The row of a weight column as a WMM meets it: the lakes that its latch holds since the WLD, and the later ones from the store (R72). -/
def State.weightRow (s : State) (core : Nat) (t : TD) (b : Binding) (r : Nat) : LakeRow :=
  let q := s.lakeRow core t r b.k0 b.klen
  let held := (b.latch.getD r []).zipIdx.map (fun e => lakeOf t e.1.1 e.1.2 (t.cols - lakeElems t.fmt t.block * (q.first + e.2)))
  { q with lakes := held ++ q.lakes.drop held.length }

/-- The lake of position k, and the element's place in it. -/
def LakeRow.lake (r : LakeRow) (k : Nat) : Lake := r.lakes.getD (k / r.n - r.first) noLake

/-- Whether a lake of the row is poisoned. -/
def LakeRow.poisoned (r : LakeRow) : Bool := r.lakes.any (fun l => l.poisoned)

/-- NaNs that consuming the row counts (R31, R44). -/
def LakeRow.nans (r : LakeRow) : Nat := (r.lakes.map (fun l => if l.poisoned then 0 else l.nans)).foldl (· + ·) 0

/-- One product in a cell (R64, R68). -/
inductive WProd where
  | zero
  | nan
  | lane (v : FV)
  /-- the in-band product over 2^−300 -/
  | band (v : Int)

/-- The product of weight and activation elements at position k, in the precedence of R64. -/
def wProd (rw ra : LakeRow) (k : Nat) : WProd :=
  let lw := rw.lake k
  let la := ra.lake k
  let iw := k % rw.n
  let ia := k % ra.n
  let ew := lw.elems.getD iw .pad
  let ea := la.elems.getD ia .pad
  let bw := iw / rw.bs
  let ba := ia / ra.bs
  let sw := lw.scales.getD bw 0
  let sa := la.scales.getD ba 0
  if lw.malformed || la.malformed then .nan
  else if ew == .pad || ea == .pad then .zero
  else if lw.nanBlk.getD bw false || la.nanBlk.getD ba false then .nan
  else match ew, ea with
    | .slot _, _ => .lane (FV.mul (lw.value rw.bs iw) (la.value ra.bs ia))
    | _, .slot _ => .lane (FV.mul (lw.value rw.bs iw) (la.value ra.bs ia))
    | .negZero, .img _ _ => .zero
    | .img _ _, .negZero => .zero
    | .negZero, .negZero => .zero
    | .img x e, .img y f =>
      if sw = 0 ∨ sa = 0 then .zero
      else .band (x * y * 2 ^ (e + f + (sw : Int) + sa - 254 + 300).toNat)
    | _, _ => if sw = 0 ∨ sa = 0 then .zero else .nan

/-- The scale sum of the block pair at position k, where it takes part in the span (R62, R64). A block pair of a malformed lake takes no
part, as one of a NaN block takes none (log entry 120: DESIGN CHOICE). -/
def wScale (rw ra : LakeRow) (k : Nat) : Option Int :=
  let lw := rw.lake k
  let la := ra.lake k
  let bw := k % rw.n / rw.bs
  let ba := k % ra.n / ra.bs
  let sw := lw.scales.getD bw 0
  let sa := la.scales.getD ba 0
  if lw.malformed || la.malformed || lw.nanBlk.getD bw false || la.nanBlk.getD ba false || sw == 0 || sa == 0 then none
  else some ((sw : Int) + sa - 254)

/-- An open group of a cell: its exact sum over 2^−300, its NaN mark, the least and greatest scale sums, its outlier products. -/
structure WGroup where
  sum : Int := 0
  nan : Bool := false
  span : Option (Int × Int) := none
  lane : List FV := []

/-- A product accepted by a group. -/
def WGroup.accept (g : WGroup) : WProd → WGroup
  | .zero => g
  | .nan => { g with nan := true }
  | .lane v => { g with lane := g.lane ++ [v] }
  | .band v => { g with sum := g.sum + v }

/-- The span that a group would have with a scale sum. -/
def WGroup.spanWith (g : WGroup) (b : Int) : Int × Int :=
  match g.span with
  | none => (b, b)
  | some (lo, hi) => (min lo b, max hi b)

/-- A cell as it runs: accumulator code, early closes, outlier products. -/
structure WCell where
  acc : Nat
  early : Nat := 0
  lanes : Nat := 0

/-- A group closed (R65, R70): its sum converted with RNE and added, then each outlier product rounded and added. -/
def WCell.close (fp16_ : Bool) (c : WCell) (g : WGroup) : WCell :=
  let f := accFmt fp16_
  let q := fun v => f.decode (f.round .rne 0 false v).1
  let a := accAdd fp16_ .rne 0 c.acc (if g.nan then .nan else q (FV.ofInt g.sum (-300)))
  { c with acc := g.lane.foldl (fun a v => accAdd fp16_ .rne 0 a (q v)) a, lanes := c.lanes + g.lane.length }

/-- The block pairs of a nominal group from `k`, `m` of them of `b` positions, up to `kEnd` (R61 to R63). -/
def wPairs (fp16_ elemAligned : Bool) (rw ra : LakeRow) (b kEnd : Nat) : Nat → Nat → Bool → WCell → WGroup → WCell
  | 0, _, _, c, g => c.close fp16_ g
  | m + 1, k, first, c, g =>
    let sc := wScale rw ra k
    let sp := match sc with
      | some v => some (g.spanWith v)
      | none => g.span
    let crosses := match sp with
      | some (lo, hi) => decide (24 < hi - lo)
      | none => false
    let split := !first && (elemAligned || crosses)
    let c1 := if split then { c.close fp16_ g with early := c.early + bit (!elemAligned) } else c
    let g0 : WGroup := if split then { span := sc.map (fun v => (v, v)) } else { g with span := sp }
    let g1 := (List.range (min b (kEnd - k))).foldl (fun g q => g.accept (wProd rw ra (k + q))) g0
    wPairs fp16_ elemAligned rw ra b kEnd m (k + b) false c1 g1

/-- One output element after a WMM (R61 to R66). -/
def wElement (fp16_ elemAligned : Bool) (rw ra : LakeRow) (k0 len g acc : Nat) : WCell :=
  let b := min rw.bs ra.bs
  (List.range (ceilDiv len g)).foldl (fun c q =>
    let lo := k0 + q * g
    let hi := min (lo + g) (k0 + len)
    wPairs fp16_ elemAligned rw ra b hi (ceilDiv (hi - lo) b) lo true c {}) { acc := acc }

/-- The group size of a code (R288). -/
def wGroupSize (g : Nat) : Nat := 32 * 2 ^ g

/-- The checks of a WMM at issue (R53, R56, R57, R67, R74, R76). -/
def wmmChk (c : Core) (w : WSlot) (b : Binding) (ta : TD) : Chk :=
  let tw := tdOf b.td
  firstChk [woadOperand ta woadAct, need b.primed,
    need (ta.rot == tw.rot && (!ta.rot || (ta.rotSize == tw.rotSize && ta.rotSeed == tw.rotSeed))),
    need (decide (b.klen ≤ if w.afmt then 1024 else 65536)),
    need (bankOk c.woaSets 16 w.arr.val w.shape.val w.afmt w.bank.val w.start),
    align (b.k0 % lakeElems ta.fmt ta.block == 0 && b.k0 % lakeElems tw.fmt tw.block == 0)]

/-- WMM: the tile's products added into its bank set (R61 to R70). Elements whose activation row or weight column lies beyond its
descriptor take free values (log entry 52: DESIGN CHOICE); a poisoned lake, or one whose latch has a parity error, poisons its tile row or
column (R78, R81). -/
def slotWmm (w : WSlot) : Slot :=
  wCmd w 0x02 .a (wOk w true true true true true false false false false) (fun s n x =>
    let c := s.core n
    let d := c.treg w.td.val
    let b := AMap.get {} (2 * w.arr.val + bit w.bind) c.bindings
    let ta := tdOf d.1
    let tw := tdOf b.td
    if d.2 then .status stPoison false
    else match wmmChk c w b ta with
      | some e => .status e true
      | none =>
        let R := 32 * (shapeSub w.shape.val).1
        let C := 32 * (shapeSub w.shape.val).2
        let rowsA := min R ta.rows
        let rowsW := min C tw.rows
        if w.start && s.savePauses x then .wait .stall
        else if !s.runsOk x false ((ta.lakeSpans rowsA (b.k0 + b.klen)) ++ (tw.lakeSpans rowsW (b.k0 + b.klen))) then .status stPage false
        else
          let la := (List.range rowsA).map (fun r => s.lakeRow n ta r b.k0 b.klen)
          let lw := (List.range rowsW).map (fun r => s.weightRow n tw b r)
          let base := 8192 * w.arr.val
          let ea := ta.fmt == 4 || tw.fmt == 4
          let old := fun i j => if w.start then (0, false) else setGet c.woaAcc base w.afmt w.bank.val i j
          let cell := fun i j => match la[i]?, lw[j]? with
            | some ra, some rw => wElement w.afmt ea rw ra b.k0 b.klen (wGroupSize w.g.val) (old i j).1
            | _, _ => { acc := (Config.freeValue (if w.afmt then 16 else 32) (s.free + 64 * i + j)).toNat }
          let bad := fun (wt : Bool) (i : Nat) => c.badLatch.contains (w.arr.val, wt, i)
          let po := fun i j => (old i j).2 || (la[i]?.map LakeRow.poisoned).getD false || (lw[j]?.map LakeRow.poisoned).getD false ||
            bad false i || bad true j
          let cells := (List.range R).map (fun i => (List.range C).map (fun j => cell i j))
          let acc := setPut c.woaAcc base w.afmt w.bank.val (cells.zipIdx.map (fun r => r.1.zipIdx.map (fun e => (e.1.acc, po r.2 e.2))))
          let early := (cells.flatMap (fun r => r.map (fun e => e.early))).foldl (· + ·) 0
          let lanes := (cells.flatMap (fun r => r.map (fun e => e.lanes))).foldl (· + ·) 0
          let sets := if w.start then openSet c.woaSets { arr := w.arr.val, shape := w.shape.val, fp16 := w.afmt, bank := w.bank.val,
                                                          epoch := c.cur, row0 := ta.row0, col0 := tw.row0 } else c.woaSets
          let s1 := s.setCore n { c with woaAcc := acc, woaSets := sets
                                         badLatch := c.badLatch.filter (fun e => e.1 != w.arr.val)
                                         bindings := AMap.put {} (2 * w.arr.val + bit w.bind) { b with latch := [] } c.bindings }
          let s2 := (s1.bump .woaCnt n w.arr.val early).bump .woaCnt n (4 + w.arr.val) lanes
          let s3 := if rowsA < R ∨ rowsW < C then s2.drawN 4096 else s2
          let na := (la.map LakeRow.nans).foldl (· + ·) 0
          let nw := (lw.map LakeRow.nans).foldl (· + ·) 0
          match s3.countFor n ta false { nan := na } with
          | none => cfFull s n
          | some s4 => match s4.countFor n tw false { nan := nw } with
            | none => cfFull s n
            | some s5 => .done s5 [] none)

/-! ## WCK -/

/-- The bytes over which WCK takes its digest (R77). -/
def setBytes (m : Acc) (base shape : Nat) (fp16_ : Bool) (bank : Nat) : List Byte :=
  (List.range (32 * (shapeSub shape).1)).flatMap (fun i => (List.range (32 * (shapeSub shape).2)).flatMap (fun j =>
    leBytes (if fp16_ then 2 else 4) (setGet m base fp16_ bank i j).1))

/-- Whether an element of a bank set is poisoned. -/
def setPo (m : Acc) (base shape : Nat) (fp16_ : Bool) (bank : Nat) : Bool :=
  (List.range (32 * (shapeSub shape).1)).any (fun i => (List.range (32 * (shapeSub shape).2)).any (fun j =>
    (setGet m base fp16_ bank i j).2))

/-- The logical tile index of a bank set and whether it lies in the layer (R140, log entry 49: DESIGN CHOICE). -/
def State.tileIndex (s : State) (x : Nat) (run : Run) (b : BankSet) : Nat × Bool :=
  let t := Config.layerTiles (s.progDigest x) run.layer.toNat b.shape
  let i := b.row0 / (32 * (shapeSub b.shape).1) * t.2 + b.col0 / (32 * (shapeSub b.shape).2)
  (i, decide (i < t.1 * t.2))

/-- The layer record of a run, among the records that the context has named (log entry 34: DEDUCED). -/
def State.layerRec (s : State) (x n : Nat) (run : Run) : Option Nat :=
  (s.ctx x).layers.find? (fun i => s.devNum (s.recAddr n i) 2 == run.layer.toNat)

/-- Whether a tile is selected for the sampled check (R140). Where no record of the layer is named yet or SAMPLE_N is reserved the selection is
open, and depends on the program, the run and the tile alone (R200; log entry 49: DESIGN CHOICE). -/
def State.sampleSelects (s : State) (x n : Nat) (run : Run) (t : Nat × Bool) : Bool :=
  let open_ := Config.sampleOpen (s.progDigest x) run.layer.toNat run.mb.toNat t.1
  match s.layerRec x n run with
  | none => open_
  | some i =>
    let a := s.recAddr n i
    let code := s.devNum (a + 5) 1
    if code < 3 then
      let N := 16 * 4 ^ code
      let y := s.devNum (a + 12) 2
      let tensor := s.devNum (s.recAddr n y) 2
      let g := t.1 / N
      let r := (kermesAt (s.chkSeed x) streamCheck (s.ctx x).stepno.toNat tensor 0 (g + 2 ^ 24 * run.mb.toNat)).1.toNat % 2 ^ 32
      t.2 && t.1 == g * N + r % N
    else open_

/-- The share F of a redundancy MODE (R393), 0 where no tile is compared. -/
def shadowF (mode : Nat) : Nat :=
  if mode = 1 then 256 else if mode = 2 then 64 else if mode = 3 then 16 else if mode = 4 then 8 else if mode = 5 then 1 else 0

/-- Whether a tile is shadow-selected (R395). -/
def State.shadowSelects (s : State) (x : Nat) (run : Run) (t : Nat × Bool) : Bool :=
  let F := shadowF ((s.ctx x).redundancy.toNat % 16)
  if F = 0 then false
  else
    let g := t.1 / F
    t.2 && t.1 == g * F + ((s.ctx x).stepno.toNat + run.layer.toNat + g) % F

/-- The lowest-numbered free sample buffer (R289). -/
def freeBuf (l : List SampleBuf) : Option Nat := (List.range 4).find? (fun i => l.all (fun b => b.buf != i))

/-- WCK: the digest of a bank set, entered in the digest log where the tile is shadow-selected; with SAMPLE, the selection and the copy
of sub-tile (0, 0) into a sample buffer, and the predicate (R77, R141, R289, R395). Outside any epoch nothing is selected. -/
def slotWck (w : WSlot) : Slot :=
  wCmd w 0x03 .a (wOk w false false false true false false false false true) (fun s n x =>
    let c := s.core n
    match c.woaSets.find? (fun b => b.is w.arr.val w.shape.val w.afmt w.bank.val) with
    | none => .status stIllegal true
    | some b =>
      if w.bank.val % shapeBanks w.shape.val ≠ 0 then .status stIllegal true
      else
        let base := 8192 * w.arr.val
        match c.curRun with
        | none => .done s (if w.sample then [.p w.pd.val 0 false] else []) none
        | some run =>
          let t := s.tileIndex x run b
          let sel := w.sample && s.sampleSelects x n run t
          let shadow := s.shadowSelects x run t
          if shadow && decide (256 ≤ c.digests.length) then .wait .stall
          else
            let dg : DigestEntry := { run := run, tile := t.1, digest := crc64 (setBytes c.woaAcc base w.shape.val w.afmt w.bank.val),
                                      po := setPo c.woaAcc base w.shape.val w.afmt w.bank.val, core := s.ctxCore x n }
            let c1 := if shadow then { c with digests := c.digests ++ [dg]
                                              woaSets := c.woaSets.map (fun q => if q = b then { b with shadow := some t.1 } else q) } else c
            if !sel then .done (s.setCore n c1) (if w.sample then [.p w.pd.val 0 false] else []) none
            else match freeBuf c.samples with
              | none => .wait .stall
              | some q =>
                let el := (List.range 32).flatMap (fun i => (List.range 32).map (fun j =>
                  let e := setGet c.woaAcc base w.afmt w.bank.val i j
                  (f32r .rne false ((accFmt w.afmt).decode e.1), e.2)))
                .done (s.setCore n { c1 with samples := c1.samples ++ [{ buf := q, tag := c.cur, elems := el }] })
                  [.p w.pd.val (BitVec.allOnes 64) false] none)

/-! ## WFL -/

/-- The destination of a WFL or MFL: a plain tile of OFMT in the operand store (R77, R96). -/
def flushDest (t : TD) (ofmt : Nat) : Chk :=
  firstChk [t.plainOk, need (!t.space && t.fmt == ofmtCode ofmt && !(decide (0x400000 ≤ t.addr) && decide (t.addr < 0x600000)))]

/-- The elements of a flushed tile converted (R46, R77): codes with poison, NaNs among the elements that are not poisoned, Kermes
evaluations. -/
def State.flushRows (s : State) (x n : Nat) (t : TD) (rnd : Nat) (src : FFmt) (get : Nat → Nat → Nat × Bool) (shape : Nat) :
    List (List (Nat × Bool)) × Nat × Nat :=
  let tensor := if rnd = 4 then s.tensorId n t else 0
  let rows := (List.range (32 * (shapeSub shape).1)).map (fun i => (List.range (32 * (shapeSub shape).2)).map (fun j =>
    let e := get i j
    let r := if rnd = 4 then s.convBits x tensor (t.row0 + i) (t.col0 + j) else 0
    (convert t.fmt (Rnd.ofCodeD rnd) r false false (src.decode e.1), e.2)))
  (rows.map (fun r => r.map (fun e => (e.1.code, e.2))),
    ((rows.flatMap (fun r => r)).filter (fun e => e.1.nan && !e.2)).length,
    ((rows.flatMap (fun r => r)).filter (fun e => e.1.drew)).length)

/-- WFL: the tile converted and written, its bank set closed (R77). -/
def slotWfl (w : WSlot) : Slot :=
  wCmd w 0x04 .q (wOk w false true false true false false true true false) (fun s n x =>
    let c := s.core n
    let d := c.treg w.td.val
    let t := tdOf d.1
    let R := 32 * (shapeSub w.shape.val).1
    let C := 32 * (shapeSub w.shape.val).2
    if d.2 then .status stPoison false
    else match firstChk [need (bankOpen c.woaSets w.arr.val w.shape.val w.afmt w.bank.val), flushDest t w.ofmt.val] with
      | some e => .status e true
      | none =>
        if !s.runsOk x false (t.spans R C) then .status stPage false
        else
          let q := s.flushRows x n t w.i.rnd.val (accFmt w.afmt) (setGet c.woaAcc (8192 * w.arr.val) w.afmt w.bank.val) w.shape.val
          let sel := match (c.woaSets.find? (fun b => b.is w.arr.val w.shape.val w.afmt w.bank.val)).bind (fun b => b.shadow), c.curRun with
            | some k, some run => [(run, k, t.spans R C)]
            | _, _ => []
          let s1 := s.setCore n { c with woaSets := closeSet c.woaSets w.arr.val w.shape.val w.afmt w.bank.val
                                         selTiles := c.selTiles ++ sel }
          match (s1.evalsUp 0 q.2.2).countFor n t false { nan := q.2.1 } with
          | none => cfFull s n
          | some s2 => storeDone (s2.putTile n x 3 0x04 t q.1) [])

end Sys2Proof.Machine
end

