-- ==== Sys2Proof/Machine/Madder.lean ====
section
/-! DEFINITION. The M slot: the Madder arrays and the Vat (R82 to R115, R162, R163, R235, R290, R291). -/

namespace Sys2Proof.Machine

/-- The fields of an M-slot product: those that it does not use are zero (R275, R290, R291). -/
def mProdOk (m : MSlot) (rs vt : Bool) : Bool :=
  hdrOk m.i false false false false false && m.shape != 3 && (m.afmt || decide (m.bank.val < 4)) && m.ofmt == 0 &&
    (rs || !m.rs) && (vt || !m.vt) && !(m.pa && m.vt) && !(m.sr && m.vt) && (m.pa || m.vt || m.sr || m.tc == 0) &&
    (m.rs || m.vt || m.sx == 0)

/-- An M-slot command. -/
def mCmd (m : MSlot) (op : Nat) (k : Cls) (legal : Bool) (body : State → Nat → Nat → SlotRes) : Slot :=
  slotCmd m.i 4 op k false legal (fun s n x =>
    let s1 := s.demand n (3 + m.arr.val)
    body (if op = 0x05 then s1 else s1.fly n (2 + m.arr.val)) n x)

/-- The three orientations of R90. -/
inductive Orient where
  | mmm | mdx | mdw
  deriving DecidableEq, Repr

/-! ## Operands -/

/-- The check of a Madder operand (R85, R278). An ADDR in the Vat range is accepted and reads the Vat (log entry 115: DESIGN CHOICE). -/
def madOperand (t : TD) : Chk := firstChk [t.plainOk, need (decide (t.fmt < 4) && !t.space)]

/-- Rows and columns that the product reads of A and of B (R90). -/
def madExtent (o : Orient) (R C K : Nat) : (Nat × Nat) × (Nat × Nat) :=
  match o with
  | .mmm => ((R, K), (K, C))
  | .mdx => ((R, K), (C, K))
  | .mdw => ((K, R), (K, C))

/-- Row and column in A of element i of the output at position k. -/
def madPosA (o : Orient) (i k : Nat) : Nat × Nat := if o = .mdw then (k, i) else (i, k)
/-- Row and column in B of column j of the output at position k. -/
def madPosB (o : Orient) (j k : Nat) : Nat × Nat := if o = .mdx then (j, k) else (k, j)

/-- The logical row and column of output element (0, 0), and the logical K index of position 0 (R162, R163). -/
def madOrigin (o : Orient) (a b : TD) : Nat × Nat × Nat :=
  match o with
  | .mmm => (a.row0, b.col0, a.col0)
  | .mdx => (a.row0, b.row0, a.col0)
  | .mdw => (a.col0, b.col0, a.row0)

/-- The value that enters a multiplier (R26, R27, R91): `master` for the B operand of MDX. -/
def madValue (conv : Rnd) (master : Bool) (fmt code : Nat) : FV :=
  if fmt = 0 then
    (if master then bf16.decode (bf16.round .rne 0 false (fp32.decode code)).1
     else xf19.decode (xf19.round conv 0 false (fp32.decode code)).1)
  else plainValue fmt code

/-- One operand of a chain over a K range: values with poison. -/
def State.madLine (s : State) (n : Nat) (t : TD) (conv : Rnd) (master : Bool) (pos : Nat → Nat × Nat) (k0 len : Nat) : List (FV × Bool) :=
  (List.range len).map (fun q =>
    let p := pos (k0 + q)
    let e := s.elem n t p.1 p.2
    (madValue conv master t.fmt e.1, e.2))

/-! ## Chains -/

/-- A chain under R84: one rounding for each product. The answer counts the subnormal results flushed. -/
def madChain (fp16_ : Bool) (mode : Rnd) (bits : Nat → Nat) : List ((FV × Bool) × (FV × Bool)) → Nat → Nat → Nat → Nat × Nat
  | [], _, acc, fl => (acc, fl)
  | (a, b) :: t, k, acc, fl =>
    let f := accFmt fp16_
    let c := (f.round mode (bits k) false (FV.add (f.decode acc) (FV.mul a.1 b.1))).1
    if !fp16_ && f.isSub c then madChain fp16_ mode bits t (k + 1) (f.flush c) (fl + 1)
    else madChain fp16_ mode bits t (k + 1) c fl

/-- Whether an operand of a chain is poisoned (R96). -/
def linePo (l : List (FV × Bool)) : Bool := l.any (fun e => e.2)

/-- A product as an instruction fixes it: the operand lines of every row and column, and how sums round. -/
structure MadJob where
  rows : List (List (FV × Bool))
  cols : List (List (FV × Bool))
  fp16 : Bool
  mode : Rnd
  /-- Kermes bits of element (i, j) at logical position k (R162, R163) -/
  bits : Nat → Nat → Nat → Nat
  /-- logical position of the first K position -/
  kb : Nat

/-- Elements after the K positions lo to lo + len − 1, from the codes `old`: code, poison, flushes. -/
def MadJob.run (j : MadJob) (lo len : Nat) (old : Nat → Nat → Nat × Bool) : List (List (Nat × Bool × Nat)) :=
  j.rows.zipIdx.map (fun r => j.cols.zipIdx.map (fun c =>
    let a := (r.1.drop lo).take len
    let b := (c.1.drop lo).take len
    let o := old r.2 c.2
    let v := madChain j.fp16 j.mode (j.bits r.2 c.2) (a.zip b) (j.kb + lo) o.1 0
    (v.1, o.2 || linePo a || linePo b, v.2)))

/-- The flushes of a result. -/
def flushesOf (l : List (List (Nat × Bool × Nat))) : Nat := (l.flatMap (fun r => r.map (fun e => e.2.2))).foldl (· + ·) 0

/-- Codes and poison of a result. -/
def codesOf (l : List (List (Nat × Bool × Nat))) : List (List (Nat × Bool)) := l.map (fun r => r.map (fun e => (e.1, e.2.1)))

/-- Storage from which the banks of an array are counted. In reference mode a 16-bit bank set accumulates in FP32, in storage of its
own (R204, log entry 50: DEDUCED), which MAD_ACC_DATA does not reach (R122, log entry 125: DESIGN CHOICE). -/
def madBase (arr : Nat) (wide : Bool) : Nat := if wide then 16384 + 8192 * arr else 4096 * arr

/-! ## The Vat -/

/-- The core-local address of a Vat tile (R97). -/
def vatAddr (v : Nat) : Nat := 0x400000 + 4096 * v

/-- Element (i, j) of a Vat tile with its poison. -/
def Core.vatElem (c : Core) (v i j : Nat) : Nat × Bool :=
  let a := vatAddr v + 128 * i + 4 * j
  (c.loc.num a 4, c.loc.poAt a)

/-- A Vat tile written. -/
def Core.vatStore (c : Core) (v : Nat) (rows : List (List (Nat × Bool))) : Core :=
  let ps := rows.zipIdx.flatMap (fun r => r.1.zipIdx.map (fun e =>
    ({ addr := vatAddr v + 128 * r.2 + 4 * e.2, data := leBytes 4 e.1.1, po := e.1.2 } : Piece)))
  { c with loc := c.loc.write ps }

/-- The tag of a Vat tile. -/
def Core.tag (c : Core) (v : Nat) : VatTag := AMap.get {} v c.vat
/-- The tag replaced. -/
def Core.setTag (c : Core) (v : Nat) (t : VatTag) : Core := { c with vat := AMap.put {} v t c.vat }

/-- Whether the current epoch holds an undo record of a tile (R97 UNDO). -/
def Core.hasUndo (c : Core) (v : Nat) : Bool :=
  c.epochs.any (fun e => some e.tag == c.cur && e.undo.any (fun u => u.tile == v))

/-- The undo record taken before the first write of the current epoch to a tile (R102). -/
def Core.recordVat (c : Core) (v : Nat) : Core :=
  if c.cur.isNone || c.hasUndo v then c
  else
    let u : VatUndo := { tile := v, data := c.loc.read (vatAddr v) 4096
                         po := (List.range 64).map (fun i => c.loc.poAt (vatAddr v + 64 * i)), tag := c.tag v }
    { c with epochs := c.epochs.map (fun e => if some e.tag = c.cur then { e with undo := e.undo ++ [u] } else e) }

/-- Whether the undo buffer has no room for the records that a list of tiles needs (R102). -/
def Core.undoFull (c : Core) (l : List Nat) : Bool :=
  c.cur.isSome && decide (64 < (c.epochs.map (fun e => e.undo.length)).foldl (· + ·) 0 + (l.filter (fun v => !c.hasUndo v)).length)

/-- The 64 Vat-writes of a tile, in ascending address order (R100, R105). -/
def Core.vatWrites (c : Core) (v x : Nat) (step : W32) : List VatW :=
  let t := c.tag v
  (List.range 64).map (fun u =>
    { addr := t.addr * 4096 + 64 * u
      vals := (List.range 16).map (fun q => BitVec.ofNat 32 (c.loc.num (vatAddr v + 64 * u + 4 * q) 4))
      po := c.loc.poAt (vatAddr v + 64 * u), sr := t.rnd == 4, step := step, slot := x })

/-- Vat-writes issued, or held while an epoch is current (R102, R257). -/
def State.sendVat (s : State) (n slot op : Nat) (ws : List VatW) : State :=
  let c := s.core n
  if c.cur.isSome then s.setCore n (c.holdIn { h := .vatWrite ws, word := c.pc, slot := slot, op := op })
  else (s.setCore n { c with vwq := c.vwq ++ ws }).bump .vatCnt n 0 ws.length

/-- A segment of one sub-tile of an MDW with a Vat target: chain-limit eviction, load, chain, write-back (R98, R99). -/
def vatSegment (x n : Nat) (d : TD) (j : MadJob) (lo len : Nat) (s : State) (sub : Nat × Nat × Nat) : State :=
  let (v, r, q) := sub
  let t := (s.core n).tag v
  let s1 :=
    if t.valid && decide (65536 < t.chain + len) then
      let s1 := (s.sendVat n 4 0x03 ((s.core n).vatWrites v x (s.ctx x).stepno)).bump .vatCnt n 1 1
      s1.setCore n (((s1.core n).vatStore v (List.replicate 32 (List.replicate 32 (0, false)))).setTag v { t with chain := 0, dirty := false })
    else s
  let c := s1.core n
  let t1 := c.tag v
  let t2 := if t1.valid then t1 else { t1 with addr := (d.addr + r * (64 * d.stride) + 4096 * q) / 4096 % 2 ^ 36, rnd := d.rnd,
                                               valid := true, chain := 0 }
  let jj : MadJob := { j with rows := (j.rows.drop (32 * r)).take 32, cols := (j.cols.drop (32 * q)).take 32
                              bits := fun a b k => j.bits (32 * r + a) (32 * q + b) k }
  let res := jj.run lo len (fun a b => if t1.valid then c.vatElem v a b else (0, false))
  let c1 := (c.vatStore v (codesOf res)).setTag v { t2 with chain := t2.chain + len, dirty := true }
  (s1.setCore n c1).bump .madCnt n 7 (flushesOf res)

/-- The Vat tiles of an output: tile, sub-tile row, sub-tile column (R98). -/
def vatTiles (shape v : Nat) : List (Nat × Nat × Nat) :=
  (List.range (shapeSub shape).1).flatMap (fun r => (List.range (shapeSub shape).2).map (fun c => (v + 2 * r + c, r, c)))

/-- The checks of an MDW with a Vat target (R98). -/
def vatChk (c : Core) (m : MSlot) (d : TD) (v K : Nat) : Chk :=
  let dest := fun r q => (d.addr + r * (64 * d.stride) + 4096 * q) / 4096 % 2 ^ 36
  firstChk [need (!m.afmt && m.start && decide (K ≤ 2 ^ 24)),
    need (d.space && !d.lake && d.fmt == 0 && !d.rsv && (d.rnd == 0 || d.rnd == 4)),
    need ((vatTiles m.shape.val v).all (fun e => decide (e.1 < 512) &&
      (!(c.tag e.1).valid || ((c.tag e.1).addr == dest e.2.1 e.2.2 && (c.tag e.1).rnd == d.rnd)))),
    align (d.addr % 4096 == 0 && 64 * d.stride % 4096 == 0), d.rotOk]

/-! ## The instructions -/

/-- NaN codes among elements that are not poisoned. -/
def nanCount (f : FFmt) (l : List (List (Nat × Bool))) : Nat :=
  ((l.flatMap (fun r => r)).filter (fun e => (f.decode e.1).isNan && !e.2)).length

/-- Element (i, j) of a bank of a row-scaled set: α × element (R235). -/
def rowScaled (fp16_ : Bool) (al : Nat × Bool) (e : Nat × Bool) : Nat × Bool :=
  let v := if fp16_ then (fp16.round .rne 0 false (FV.mul (fp32.decode al.1) (fp16.decode e.1))).1
           else (mul32 (BitVec.ofNat 32 al.1) (BitVec.ofNat 32 e.1)).toNat
  (v, al.2 || e.2)

/-- The chain limit L of an accumulation (R111, R112). -/
def chainLimit (fp16_ : Bool) : Nat := if fp16_ then 256 else 65536

/-- The checks of a product at issue (R74, R85, R90, R112, R126, R163, R235, R278). -/
def madChk (s : State) (x n : Nat) (o : Orient) (m : MSlot) (ta tb tc : TD) (v k0 K : Nat) : Chk :=
  let c := s.core n
  let R := 32 * (shapeSub m.shape.val).1
  let C := 32 * (shapeSub m.shape.val).2
  let ext := madExtent o R C (k0 + K)
  let L := chainLimit m.afmt
  let og := madOrigin o ta tb
  let chain := (c.madSets.find? (fun b => b.is m.arr.val m.shape.val m.afmt m.bank.val)).map (fun b => b.chain) |>.getD 0
  firstChk [madOperand ta, madOperand tb,
    need (decide (ext.1.1 ≤ ta.rows) && decide (ext.1.2 ≤ ta.cols) && decide (ext.2.1 ≤ tb.rows) && decide (ext.2.2 ≤ tb.cols)),
    need (!(m.rs && m.start)),
    need (bankOk c.madSets 8 m.arr.val m.shape.val m.afmt m.bank.val m.start),
    if m.vt then vatChk c m tc v K
    else firstChk [need (if m.start then decide (K ≤ 256 * L) && (decide (K ≤ L) || m.pa) else decide (chain + K ≤ L)),
      if m.pa then firstChk [tc.plainOk, need (!tc.space && tc.fmt == 0 && decide (tc.addr < 0x400000))]
      else if m.sr then tc.tileOk else none],
    need (!m.sr || (s.ctx x).refmode ||
      (decide (og.1 + R ≤ 2 ^ 20) && decide (og.2.1 + C ≤ 2 ^ 20) && decide (og.2.2 + k0 + K ≤ 2 ^ 27)))]

/-- The segments of R112: partial tiles written in FP32, combined by R113 into partial tile 0; the bank set closes, and its storage keeps the last
segment's sums. -/
def madSegments (s : State) (n : Nat) (m : MSlot) (tc : TD) (j : MadJob) (K : Nat) : SlotRes :=
  let c := s.core n
  let L := chainLimit m.afmt
  let J := ceilDiv K L
  let b := shapeBanks m.shape.val
  let parts := (List.range J).map (fun q => j.run (q * L) (min L (K - q * L)) (fun _ _ => (0, false)))
  let fl := (parts.map flushesOf).foldl (· + ·) 0
  let wide := parts.map (fun p => (codesOf p).map (fun r => r.map (fun e =>
    ((fp32.round .rne 0 false ((accFmt j.fp16).decode e.1)).1, e.2))))
  let at_ := fun q a e => tc.addr + q * 4096 * b + 4096 * (2 * (a / 32) + e / 32) + 128 * (a % 32) + 4 * (e % 32)
  let ps := fun q (rows : List (List (Nat × Bool))) => rows.zipIdx.flatMap (fun r => r.1.zipIdx.map (fun e =>
    ({ addr := at_ q r.2 e.2, data := leBytes 4 e.1.1, po := e.1.2 } : Piece)))
  let nR := j.rows.length
  let nC := j.cols.length
  let get := fun (p : List (List (Nat × Bool))) a e => (p.getD a []).getD e (0, false)
  let total := (List.range nR).map (fun a => (List.range nC).map (fun e =>
    ((combine (wide.map (fun p => BitVec.ofNat 32 (get p a e).1))).toNat, wide.any (fun p => (get p a e).2))))
  if tc.addr + J * 4096 * b > 0x400000 then .status stPage false
  else
    let s1 := wide.zipIdx.foldl (fun s p => s.localWrite n (ps p.2 p.1)) s
    let s2 := s1.localWrite n (ps 0 total)
    let s3 := s2.setCore n { s2.core n with
      madSets := closeSet c.madSets m.arr.val m.shape.val m.afmt m.bank.val
      madAcc := setPut c.madAcc (madBase m.arr.val (m.afmt && !j.fp16)) j.fp16 m.bank.val (codesOf (parts.getLastD [])) }
    let s4 := ((s3.bump .madCnt n 4 J).bump .madCnt n 6 ((J - 1) * nR * nC)).bump .madCnt n 7 fl
    match s4.countFor n tc false { nan := nanCount fp32 total } with
    | none => cfFull s n
    | some s5 => .done s5 [] none

/-- Evaluations that a chain with SR makes: one for each group of eight K positions of each element (R165). -/
def accumEvals (R C kb K : Nat) : Nat := if K = 0 then 0 else R * C * ((kb + K - 1) / 8 - kb / 8 + 1)

/-- A product of the M slot (R90, R98, R112, R235). A parity error in a feeder latch poisons its operand tile, and so every element (R96). -/
def madProduct (o : Orient) (m : MSlot) (s : State) (n x : Nat) : SlotRes :=
  let c := s.core n
  let da := c.treg m.ta.val
  let db := c.treg m.tb.val
  let dc := c.treg m.tc.val
  let k0 := c.sreg m.sk0.val
  let kl := c.sreg m.sklen.val
  let sx := c.sreg m.sx.val
  let useC := m.pa || m.vt || m.sr
  if da.2 || db.2 || (useC && dc.2) || k0.2 || kl.2 || ((m.rs || m.vt) && sx.2) then .status stPoison false
  else
    let ta := tdOf da.1
    let tb := tdOf db.1
    let tc := tdOf dc.1
    let K := kl.1.toNat
    let ref := (s.ctx x).refmode
    match madChk s x n o m ta tb tc sx.1.toNat k0.1.toNat K with
    | some e => .status e true
    | none =>
      let R := 32 * (shapeSub m.shape.val).1
      let C := 32 * (shapeSub m.shape.val).2
      let ext := madExtent o R C (k0.1.toNat + K)
      let tiles := vatTiles m.shape.val sx.1.toNat
      let evict := decide (65536 < K) || tiles.any (fun e => (c.tag e.1).valid && decide (65536 < (c.tag e.1).chain + K))
      if m.start && s.savePauses x then .wait .stall
      else if m.vt && (c.undoFull (tiles.map (fun e => e.1)) || (evict && c.cur.isNone && !c.epochs.isEmpty)) then .wait .stall
      else if !s.runsOk x false ((ta.spans ext.1.1 ext.1.2) ++ (tb.spans ext.2.1 ext.2.2)) ||
          (m.rs && decide (0x400000 < sx.1.toNat + 128)) then .status stPage false
      else
        let fp16_ := m.afmt && !ref
        let sr := m.sr && !ref
        let conv := if m.conv && !ref then Rnd.rz else .rne
        let og := madOrigin o ta tb
        let tensor := if sr then s.tensorId n tc else 0
        let seed := s.ctxSeed x
        let step := (s.ctx x).stepno.toNat
        let j : MadJob := {
          rows := (List.range R).map (fun i => (s.madLine n ta conv false (madPosA o i) k0.1.toNat K).map (fun e =>
            (e.1, e.2 || c.badFeed.contains m.arr.val)))
          cols := (List.range C).map (fun q => s.madLine n tb conv (o == .mdx) (madPosB o q) k0.1.toNat K)
          fp16 := fp16_, mode := if sr then .sr else .rne
          bits := fun i q k => if sr then accumBits seed step tensor (og.1 + i) (og.2.1 + q) k else 0
          kb := og.2.2 + k0.1.toNat }
        let s00 := s.setCore n { c with badFeed := c.badFeed.filter (fun a => a != m.arr.val) }
        let s0 := if sr then s00.evalsUp 1 (accumEvals R C j.kb K) else s00
        if m.vt then
          let s1 := tiles.foldl (fun s e => s.setCore n ((s.core n).recordVat e.1)) s0
          let segs := (List.range (max 1 (ceilDiv K 65536))).map (fun q => (q * 65536, min 65536 (K - q * 65536)))
          let s2 := segs.foldl (fun s g => tiles.foldl (vatSegment x n tc j g.1 g.2) s) s1
          let k := (tiles.map (fun e => nanCount fp32 ((List.range 32).map (fun a => (List.range 32).map (fun b =>
            (s2.core n).vatElem e.1 a b))))).foldl (· + ·) 0
          let c2 := s2.core n
          let tile := (List.range R).map (fun a => (List.range C).map (fun b =>
            c2.vatElem (sx.1.toNat + 2 * (a / 32) + b / 32) (a % 32) (b % 32)))
          let s3 := s2.setCore n { c2 with madSets := closeSet c2.madSets m.arr.val m.shape.val m.afmt m.bank.val
                                           madAcc := setPut c2.madAcc (madBase m.arr.val false) false m.bank.val tile }
          match s3.countFor n tc false { nan := k } with
          | none => cfFull s n
          | some s4 => .done s4 [] none
        else if m.start && decide (chainLimit m.afmt < K) then madSegments s0 n m tc j K
        else
          let wide := m.afmt && ref
          let base := madBase m.arr.val wide
          let al := fun i => ((s.core n).loc.num (sx.1.toNat + 4 * (i % 32)) 4, (s.core n).loc.poAt (sx.1.toNat + 4 * (i % 32)))
          let old := fun i q =>
            if m.start then (0, false)
            else
              let e := setGet c.madAcc base fp16_ m.bank.val i q
              if m.rs then rowScaled fp16_ (al i) e else e
          let res := j.run 0 K old
          let b : BankSet := { arr := m.arr.val, shape := m.shape.val, fp16 := m.afmt, bank := m.bank.val, epoch := c.cur, chain := K }
          let sets := if m.start then openSet c.madSets b
            else c.madSets.map (fun z => if z.is m.arr.val m.shape.val m.afmt m.bank.val then { z with chain := z.chain + K } else z)
          let c1 := { s0.core n with madAcc := setPut c.madAcc base fp16_ m.bank.val (codesOf res), madSets := sets }
          .done ((s0.setCore n c1).bump .madCnt n 7 (flushesOf res)) [] none

/-- MMM: C = A·B. -/
def slotMmm (m : MSlot) : Slot :=
  mCmd m 0x01 .a (mProdOk m true false) (fun s n x => madProduct .mmm m s n x)
/-- MDX: C = A·Bᵀ, B from the master (R91). -/
def slotMdx (m : MSlot) : Slot :=
  mCmd m 0x02 .a (mProdOk m false false) (fun s n x => madProduct .mdx m s n x)
/-- MDW: C = Aᵀ·B, or into Vat tiles (R98). -/
def slotMdw (m : MSlot) : Slot :=
  mCmd m 0x03 .a (mProdOk m false true) (fun s n x => madProduct .mdw m s n x)

/-- MFL: the tile converted and written, its bank set closed (R96). -/
def slotMfl (m : MSlot) : Slot :=
  mCmd m 0x04 .q (hdrOk m.i true false false false false && decide (m.i.rnd.val ≤ 4) && m.ta == 0 && m.tb == 0 && !m.start && !m.sr &&
      !m.conv && m.shape != 3 && (m.afmt || decide (m.bank.val < 4)) && !m.rs && !m.vt && !m.pa && m.sk0 == 0 && m.sklen == 0 &&
      m.sx == 0 && m.ofmt != 3) (fun s n x =>
    let c := s.core n
    let d := c.treg m.tc.val
    let t := tdOf d.1
    let R := 32 * (shapeSub m.shape.val).1
    let C := 32 * (shapeSub m.shape.val).2
    if d.2 then .status stPoison false
    else match firstChk [need (bankOpen c.madSets m.arr.val m.shape.val m.afmt m.bank.val), flushDest t m.ofmt.val] with
      | some e => .status e true
      | none =>
        if !s.runsOk x false (t.spans R C) then .status stPage false
        else
          let wide := m.afmt && (s.ctx x).refmode
          let fp16_ := m.afmt && !wide
          let q := s.flushRows x n t m.i.rnd.val (accFmt fp16_) (setGet c.madAcc (madBase m.arr.val wide) fp16_ m.bank.val) m.shape.val
          let s1 := s.setCore n { c with madSets := closeSet c.madSets m.arr.val m.shape.val m.afmt m.bank.val }
          match (s1.evalsUp 0 q.2.2).countFor n t false { nan := q.2.1 } with
          | none => cfFull s n
          | some s2 => storeDone (s2.putTile n x 4 0x04 t q.1) [])

/-- A Vat tile sent by Vat-write and set free; a tile that is not VALID: nothing (R100). -/
def State.sendTile (s : State) (n x v : Nat) : State :=
  let c := s.core n
  if !(c.tag v).valid then s
  else
    let ws := c.vatWrites v x (s.ctx x).stepno
    (s.setCore n (({ c with vwq := c.vwq ++ ws } : Core).setTag v { c.tag v with valid := false, dirty := false, chain := 0 })).bump .vatCnt n 0 ws.length

/-- MVW: the Vat tile SX[8:0] sent by Vat-write and set free (R100, R291). In an epoch it is held, with the tile's index, until the epoch commits
(R102, R257, R299; log entry 54: DEDUCED). -/
def slotMvw (m : MSlot) : Slot :=
  mCmd m 0x05 .h (hdrOk m.i false false false false false && m.arr == 0 && m.ta == 0 && m.tb == 0 && m.tc == 0 && !m.start && !m.sr &&
      !m.conv && m.shape == 0 && !m.afmt && m.bank == 0 && !m.rs && !m.vt && !m.pa && m.sk0 == 0 && m.sklen == 0 && m.ofmt == 0)
    (fun s n x =>
      let c := s.core n
      let sx := c.sreg m.sx.val
      let v := sx.1.toNat % 512
      if sx.2 then .status stPoison false
      else if c.cur.isSome then .done (s.setCore n (c.holdIn { h := .mvw v, word := c.pc, slot := 4, op := 0x05 })) [] none
      else .done (s.sendTile n x v) [] none)

end Sys2Proof.Machine
end

