-- ==== Sys2Proof/Machine/DataMove.lean ====
section
/-! DEFINITION. The D slot: tiles moved between the levels of memory, partials, walks and edits sent (R117, R215, R218, R221, R294 to
R296), and the end of a transfer. -/

namespace Sys2Proof.Machine

/-- The fields of a D-slot opcode: those that it does not use are zero (R275, R294). -/
def dOk (d : DSlot) (ts td sa sb tok slot wtag wmode rd : Bool) : Bool :=
  hdrOk d.i false false false false false && (ts || d.ts == 0) && (td || d.td == 0) && (sa || d.sa == 0) && (sb || d.sb == 0) &&
    (tok || d.tok == 0) && (slot || d.slot == 0) && (wtag || d.wtag == 0) && (wmode || !d.wmode) && (rd || d.rd == 0)

/-- A D-slot command. -/
def dCmd (d : DSlot) (op : Nat) (k : Cls) (legal : Bool) (body : State → Nat → Nat → SlotRes) : Slot := slotCmd d.i 6 op k false legal body

/-! ## Tiles as runs of bytes -/

/-- The runs that a tile copy moves: source, destination, bytes. Both are plain or both lakes of one format; the rows and columns that
both describe move (log entry 59: DEDUCED). -/
def copyRuns (a b : TD) : List (Nat × Nat × Nat) :=
  let R := min a.rows b.rows
  let C := min a.cols b.cols
  if a.lake then
    let n := ceilDiv C (lakeElems a.fmt a.block) * lakeBytes a.fmt a.block
    (List.range R).map (fun i => (a.addr + i * (64 * a.stride), b.addr + i * (64 * b.stride), n))
  else
    let w := fmtBytes a.fmt
    (List.range (ceilDiv R 32)).flatMap (fun i => (List.range (ceilDiv C 32)).flatMap (fun j =>
      let rows := min 32 (R - 32 * i)
      let cols := min 32 (C - 32 * j)
      if cols = 32 then [(a.elemAddr (32 * i) (32 * j), b.elemAddr (32 * i) (32 * j), rows * 32 * w)]
      else (List.range rows).map (fun q => (a.elemAddr (32 * i + q) (32 * j), b.elemAddr (32 * i + q) (32 * j), cols * w))))

/-- The runs of one tile in the order of its bytes (R369). -/
def TD.runs (a : TD) : List (Nat × Nat) := (copyRuns a a).map (fun r => (r.1, r.2.2))

/-- The two descriptors of a copy agree: both lakes of one format and block size, or both plain of one element width. -/
def copyOk (a b : TD) : Bool :=
  a.lake == b.lake && (if a.lake then a.fmt == b.fmt && a.block == b.block else fmtBytes a.fmt == fmtBytes b.fmt)

/-- A write of D-slot data into the Vat is refused (R103). -/
def intoVat (t : TD) : Bool := !t.space && (t.runs.any (fun r => decide (r.1 < 0x600000 ∧ 0x400000 < r.1 + r.2)))

/-- The bytes of a run as pieces of 64-byte units with their poison, placed at a destination. -/
def State.pieceOf (s : State) (n : Nat) (space : Bool) (a b : Nat) : Nat → Nat → List Piece
  | 0, _ => []
  | f + 1, len =>
    if len = 0 then []
    else
      let k := min len (64 - a % 64)
      { addr := b, data := s.spaceRead n space a k, po := s.spacePo n space a k } :: State.pieceOf s n space (a + k) (b + k) f (len - k)

/-- The pieces of a copy. -/
def State.copyPieces (s : State) (n : Nat) (space : Bool) (runs : List (Nat × Nat × Nat)) : List Piece :=
  runs.flatMap (fun r => s.pieceOf n space r.1 r.2.1 (r.2.2 / 64 + 2) r.2.2)

/-- Whether a Vat-write that a core has issued to some runs of device memory is not yet applied: a read of them waits, so that it sees every earlier
Vat-write of its own source (R108). -/
def Core.owes (c : Core) (l : List (Nat × Nat)) : Bool :=
  c.vwq.any (fun w => l.any (fun r => decide (w.addr < r.1 + r.2 ∧ r.1 < w.addr + 64)))

/-- Every run of device space is reachable for the context (R300). -/
def State.devRuns (s : State) (x : Nat) (l : List (Nat × Nat)) : Bool := l.all (fun r => s.ctxRange x r.1 r.2)

/-- Every run of the core-local space exists. -/
def localRuns (l : List (Nat × Nat)) : Bool := l.all (fun r => decide (r.1 + r.2 ≤ 0x600000))

/-- Reads of tier 3 sent to the host, one for each run, their data to go to the core-local or the device space (R429): the state and
the tags. -/
def State.t3Reads (s : State) (n : Nat) (dev : Bool) : List (Nat × Nat × Nat) → State × List Nat
  | [] => (s, [])
  | r :: t =>
    match locOf r.1 with
    | .tier3 w o => match s.t3Host w o with
      | some h =>
        let tag := s.hif.t3Next
        let q : T3Req := { tag := tag, host := h, len := r.2.2, core := n, dst := [(dev, r.2.1, 0, r.2.2)], time := s.tim.now.toNat }
        let s1 := (s.setHif { s.hif with t3 := s.hif.t3 ++ [q], t3Next := tag + 1 }).emit (.t3Read tag h r.2.2)
        let p := State.t3Reads s1 n dev t
        (p.1, tag :: p.2)
      | none => State.t3Reads s n dev t
    | _ => State.t3Reads s n dev t

/-- A transfer recorded as in flight. -/
def State.addXfer (s : State) (n : Nat) (t : Xfer) : State := s.setCore n { s.core n with xfers := (s.core n).xfers ++ [t] }

/-! ## DLD and DPF -/

/-- The checks that DLD and DPF share: TS in device space, TD in the operand store (R103, R295). -/
def loadChk (a b : TD) : Chk := firstChk [a.tileOk, b.tileOk, need (a.space && !b.space && copyOk a b && !intoVat b)]

/-- DLD: the tile is in the operand store before a later instruction reads it (R296). From tier 3 its data arrive with the host's
completions, and issue waits for them (log entry 32: DEDUCED). -/
def slotDld (d : DSlot) : Slot :=
  dCmd d 0x01 .a (dOk d true true false false false false false false false) (fun s n x =>
    let c := s.core n
    let p := c.treg d.ts.val
    let q := c.treg d.td.val
    let a := tdOf p.1
    let b := tdOf q.1
    let runs := copyRuns a b
    if p.2 || q.2 then .status stPoison false
    else match loadChk a b with
      | some e => .status e true
      | none =>
        if 16 ≤ (c.xfers.filter (fun t => t.kind == 0)).length || c.owes (runs.map (fun r => (r.1, r.2.2))) then .wait .stall
        else if !s.devRuns x (runs.map (fun r => (r.1, r.2.2))) || !localRuns (runs.map (fun r => (r.2.1, r.2.2))) then .status stPage false
        else
          let far := runs.filter (fun r => isT3 r.1)
          let near := runs.filter (fun r => !isT3 r.1)
          let s0 := (s.demandReads (near.map (fun r => (r.1, r.2.2)))).chargeRuns (.slot x) (near.map (fun r => (r.1, r.2.2)))
          let r := (s0.localWrite n (s0.copyPieces n true near)).t3Reads n false far
          .done (r.1.addXfer n { kind := 0, t3 := r.2, tag := c.cur }) [] none)

/-- DPF: as DLD without stalling; the destination changes unit by unit when its completion is marked on the token (R296; the data are
those at issue, log entry 62: DEDUCED). -/
def slotDpf (d : DSlot) : Slot :=
  dCmd d 0x04 .a (dOk d true true false false true false false false false) (fun s n x =>
    let c := s.core n
    let p := c.treg d.ts.val
    let q := c.treg d.td.val
    let a := tdOf p.1
    let b := tdOf q.1
    let runs := copyRuns a b
    if p.2 || q.2 then .status stPoison false
    else match loadChk a b with
      | some e => .status e true
      | none =>
        if c.xfers.any (fun t => t.kind == 1 && t.tok == some d.tok.val) || c.owes (runs.map (fun r => (r.1, r.2.2))) then .wait .stall
        else if !s.devRuns x (runs.map (fun r => (r.1, r.2.2))) || !localRuns (runs.map (fun r => (r.2.1, r.2.2))) then .status stPage false
        else
          let far := runs.filter (fun r => isT3 r.1)
          let near := runs.filter (fun r => !isT3 r.1)
          let s0 := (s.demandReads (near.map (fun r => (r.1, r.2.2)))).chargeRuns (.slot x) (near.map (fun r => (r.1, r.2.2)))
          let r := s0.t3Reads n false far
          .done (r.1.addXfer n { kind := 1, tok := some d.tok.val, ps := s0.copyPieces n true near, t3 := r.2, tag := c.cur }) [] none)

/-- DLD.WAIT: waits for a token, then RD ← 0; or for the ready flag of a walk's buffer slot, then RD ← its valid rows (R217, R295,
R296). -/
def slotDldWait (d : DSlot) : Slot :=
  dCmd d 0x05 .a (dOk d false false false false (!d.wmode) d.wmode d.wmode true true) (fun s n _ =>
    let c := s.core n
    if d.wmode then
      match c.walks.find? (fun w => w.wtag == d.wtag.toNat) with
      | none => .status stIllegal true
      | some w =>
        let f := AMap.get (false, 0) d.slot.val w.ready
        if f.1 then .done s [.s d.rd.val (BitVec.ofNat 64 f.2) false] none else .wait .stall
    else if c.xfers.any (fun t => t.kind == 1 && t.tok == some d.tok.val) then .wait .stall
    else .done s [.s d.rd.val 0 false] none)

/-! ## DST and DCP to memory -/

/-- A performed or held write, with its transfer recorded for the acknowledgement that LFENCE waits for (R298). -/
def movedDone (n kind : Nat) (held : Bool) : StoreRes → SlotRes
  | .done s => .done (if held then s else s.addXfer n { kind := kind, tag := (s.core n).cur }) [] none
  | .refused s => .faultIn s stPage
  | .wait w => .wait w

/-- Whether a device-space write is held: an epoch is current, and the write reaches out of the speculative regions (R257, R299). -/
def State.holds (s : State) (n x : Nat) (ps : List Piece) : Bool := (s.core n).cur.isSome && s.reachOut n x true ps

/-- DST to memory: the operand-store tile TS into the tile TD of the device space (R295, R299). -/
def slotDst (d : DSlot) : Slot :=
  dCmd d 0x02 .q (dOk d true true false false false false false false false) (fun s n x =>
    let c := s.core n
    let p := c.treg d.ts.val
    let q := c.treg d.td.val
    let a := tdOf p.1
    let b := tdOf q.1
    let runs := copyRuns a b
    if p.2 || q.2 then .status stPoison false
    else match firstChk [a.tileOk, b.tileOk, need (!a.space && b.space && copyOk a b)] with
      | some e => .status e true
      | none =>
        if !localRuns (runs.map (fun r => (r.1, r.2.2))) || !s.devRuns x (runs.map (fun r => (r.2.1, r.2.2))) then .status stPage false
        else
          let ps := s.copyPieces n false runs
          movedDone n 2 (s.holds n x ps) (s.store n x 6 0x02 true ps))

/-- DCP: the tile TS into the tile TD, between partition store, device memory and tier 3 (R295, R299). What comes from tier 3 is written
when the host's completions bring it. -/
def slotDcp (d : DSlot) : Slot :=
  dCmd d 0x03 .q (dOk d true true false false false false false false false) (fun s n x =>
    let c := s.core n
    let p := c.treg d.ts.val
    let q := c.treg d.td.val
    let a := tdOf p.1
    let b := tdOf q.1
    let runs := copyRuns a b
    if p.2 || q.2 then .status stPoison false
    else match firstChk [a.tileOk, b.tileOk, need (a.space && b.space && copyOk a b)] with
      | some e => .status e true
      | none =>
        if !s.devRuns x (runs.map (fun r => (r.1, r.2.2))) || !s.devRuns x (runs.map (fun r => (r.2.1, r.2.2))) then .status stPage false
        else if c.owes (runs.map (fun r => (r.1, r.2.2))) then .wait .stall
        else
          let far := runs.filter (fun r => isT3 r.1)
          let near := runs.filter (fun r => !isT3 r.1)
          let s := (s.demandReads (near.map (fun r => (r.1, r.2.2)))).chargeRuns (.slot x) (near.map (fun r => (r.1, r.2.2)))
          let out := s.reachOut n x true (runs.map (fun r => { addr := r.2.1, data := List.replicate r.2.2 0, po := false }))
          if far = [] then
            let ps := s.copyPieces n true near
            movedDone n 3 (s.holds n x ps) (s.store n x 6 0x03 true ps)
          else if out && c.cur.isSome then
            let ps := s.copyPieces n true near
            let c1 := if ps = [] then c else c.holdIn { h := .write true ps, word := c.pc, slot := 6, op := 0x03 }
            .done (s.setCore n (c1.holdIn { h := .copyT3 far, word := c.pc, slot := 6, op := 0x03 })) [] none
          else if out then .wait .stall
          else match s.storeNow n x true (s.copyPieces n true near) with
            | .done s1 =>
              let r := s1.t3Reads n true far
              .done (r.1.addXfer n { kind := 3, dev := true, t3 := r.2, tag := c.cur }) [] none
            | .refused s1 => .faultIn s1 stPage
            | .wait w => .wait w)

/-! ## Partials, walks, edits -/

/-- A partial sent to the collector of the core's partition; a descriptor address outside that partition's store raises PAGE_FAULT and
the partial is discarded (R117). -/
def State.sendPartial (s : State) (n : Nat) (p : Partial) : Option State :=
  match locOf p.desc with
  | .store q o => if q = n / 100 ∧ o + 64 ≤ 0xC000000 then
      some (s.setCore n { s.core n with parts := (s.core n).parts ++ [p] })
    else none
  | _ => none

/-- DST to the reduction collector: the first 64 bytes of TS, for unit SB of the job at SA (R117, R295). -/
def slotDstCollector (d : DSlot) : Slot :=
  dCmd d 0x02 .h (dOk d true false true true false false false false false) (fun s n x =>
    let c := s.core n
    let p := c.treg d.ts.val
    let sa := c.sreg d.sa.val
    let sb := c.sreg d.sb.val
    let a := tdOf p.1
    if p.2 || sa.2 || sb.2 then .status stPoison false
    else match firstChk [a.tileOk, need (!a.space), align (sa.1.toNat % 64 == 0)] with
      | some e => .status e true
      | none =>
        if 0x600000 < a.addr + 64 then .status stPage false
        else
          let m : Partial := { desc := sa.1.toNat, unit := sb.1.toNat, data := bytesWords (c.loc.read a.addr 64), po := c.loc.readPo a.addr 64, slot := x }
          if c.cur.isSome then .done (s.setCore n (c.holdIn { h := .collector m, word := c.pc, slot := 6, op := 0x02 })) [] none
          else match s.sendPartial n m with
            | some s1 => .done s1 [] none
            | none => .status stPage false)

/-- Whether the certificate of a core's running program reserves engine 11 of its partition (R14, R318). -/
def State.reserves11 (s : State) (n : Nat) : Bool :=
  match s.coreSlot n with
  | none => false
  | some x => match (s.ctx x).running with
    | none => false
    | some g => g.cert.recs.any (fun r => (r.cls == 0x06 || r.cls == 0x07) && r.index == 11 && s.physPart x r.part == some (n / 100))

/-- The Indigo engine that serves a core: that of its group of eight logical cores, and on the LXV4-352-15-L engine 11 for a core for which
admission has reserved it (R14). For which cores it has is not in the certificate, and is open (log entry 114: DESIGN CHOICE). -/
def State.engineOf (s : State) (n : Nat) : Nat :=
  12 * (n / 100) + if s.variant = .l352 ∧ s.reserves11 n = true ∧ Config.usesEngine11 n = true then 11 else (s.lcore n).getD 0 / 8

/-- DST to the request port: the 64-byte walk request in TS leaves for the serving engine (R215). -/
def slotDstWalkRequest (d : DSlot) : Slot :=
  dCmd d 0x02 .a (dOk d true false false false false false false false false) (fun s n x =>
    let c := s.core n
    let p := c.treg d.ts.val
    let a := tdOf p.1
    if p.2 then .status stPoison false
    else match firstChk [a.tileOk, need (!a.space)] with
      | some e => .status e true
      | none =>
        if 0x600000 < a.addr + 64 then .status stPage false
        else if s.savePauses x then .wait .stall
        else if c.loc.readPo a.addr 64 then .status stPoison false
        else
          let r := c.loc.read a.addr 64
          let tag := (r.getD 24 0).toNat
          let e := s.engineOf n
          let w : CoreWalk := { wtag := tag, eng := e, tag := c.cur, word := c.pc }
          let s1 := s.setCore n { c with walks := c.walks.filter (fun q => q.wtag != tag) ++ [w] }
          let q := s1.ind e
          .done (s1.setInd e { q with waiting := q.waiting ++ [{ core := n, slot := x, req := r }] }) [] none)

/-- The walk tag of a request. -/
def reqTag (r : List Byte) : Nat := (r.getD 24 0).toNat

/-- DST to the release port: the slot is no longer ready, and the release leaves for the engine (R218). A release of a slot that is not
ready has no effect. -/
def slotDstRelease (d : DSlot) : Slot :=
  dCmd d 0x02 .a (dOk d false false false false false true true false false) (fun s n _ =>
    let c := s.core n
    match c.walks.find? (fun w => w.wtag == d.wtag.toNat) with
    | none => .done s [] none
    | some w =>
      if !(AMap.get (false, 0) d.slot.val w.ready).1 then .done s [] none
      else
        let s1 := s.setCore n { c with walks := c.walks.map (fun q => if q = w then { q with ready := AMap.put (false, 0) d.slot.val (false, 0) q.ready } else q) }
        let e := s1.ind w.eng
        .done (s1.setInd w.eng { e with walks := e.walks.map (fun q =>
          if q.core = n ∧ reqTag q.req = w.wtag then { q with relq := q.relq ++ [d.slot.val] } else q) }) [] none)

/-- An edit batch sent to an engine (R221). -/
def State.sendEdit (s : State) (n x eng addr : Nat) (word : BitVec 12) : State :=
  let e := s.ind eng
  s.setInd eng { e with edits := e.edits ++ [{ addr := addr, core := some (n, x), word := word }] }

/-- DST to the edit port: the batch at SA, for engine SB[5:0]; the low six bits of SA are ignored, and a number that names no engine
raises PAGE_FAULT (R221, R295, log entry 60: DEDUCED). -/
def slotDstEdit (d : DSlot) : Slot :=
  dCmd d 0x02 .h (dOk d false false true true false false false false false) (fun s n x =>
    let c := s.core n
    let sa := c.sreg d.sa.val
    let sb := c.sreg d.sb.val
    let e := sb.1.toNat % 64
    let addr := sa.1.toNat / 64 * 64
    if sa.2 || sb.2 then .status stPoison false
    else if 12 ≤ e % 16 then .status stPage false
    else if c.cur.isSome then
      .done (s.setCore n (c.holdIn { h := .edit (12 * (e / 16) + e % 16) addr, word := c.pc, slot := 6, op := 0x02 })) [] none
    else .done (s.sendEdit n x (12 * (e / 16) + e % 16) addr c.pc) [] none)

/-! ## The end of a transfer -/

/-- DATA_MOVEMENT_COMPLETE: the i-th transfer of a core ends: a DPF writes its destination and marks its token, a DST or DCP is
acknowledged, a DLD leaves the sequencer's list (R296, R298). While data of tier 3 are outstanding nothing happens. -/
def execDataMovementComplete (k : CoreId) (i : Nat) (s : State) : Host.Outcome State Fault Refusal :=
  let n := k.key
  let c := s.core n
  match c.xfers[i]? with
  | none => .next s
  | some t =>
    if !t.t3.isEmpty then .next s
    else .next ((s.setCore n { c with xfers := c.xfers.eraseIdx i }).localWrite n t.ps)

end Sys2Proof.Machine
end

