-- ==== Sys2Proof/Machine/Links.lean ====
section
/-! DEFINITION. Ferdo ports: flits, retry, credits, queues, routes and training (R353 to R367). -/

namespace Sys2Proof.Machine

/-! ## Sensors of the Ochre monitor -/

/-- The number of a sensor: class, partition, instance (R421). -/
def sensorKey (cls p inst : Nat) : Nat := (4 * cls + p) * 256 + inst % 256

/-- The raw value of a sensor that nothing has read: no ageing, a margin of 100 %. -/
def rawNew (cls : Nat) : Nat := if cls = 4 then 100 else 0

/-! ## Ports -/

/-- The device identifier. -/
def State.devId (s : State) : Nat := s.fld .gctDevId 0 0 11 0

/-- Receive-buffer entries of a traffic class that an allocation gives (R360). -/
def crdEntries (v : W32) (tc : Nat) : Nat :=
  if tc = 0 then 8 * bitsOf v 3 0 else if tc = 3 then 16 * bitsOf v 7 4 else if tc = 1 then 8 * bitsOf v 17 8 else 8 * bitsOf v 27 18

/-- The allocation of a class on a link. -/
def State.crdAlloc (s : State) (n tc : Nat) : Nat := crdEntries (s.reg .lnkCrdAlloc n 0) tc

/-- Flits counted: a link counter advances once for each 2¹⁶ of them. -/
def State.countFlits (s : State) (n which k : Nat) : State :=
  let l := s.link n
  let old := AMap.get 0 which l.flits
  let s1 := s.setLink n { l with flits := AMap.put 0 which (old + k) l.flits }
  s1.bump .lnkCnt n which ((old + k) / 65536 - old / 65536)

/-- An error bit of LNK_ERR; bits 2 to 6 are also reported to the ERR block (SOURCE 0x08) and raise vector 23 (R488). -/
def State.lnkErr (s : State) (n b : Nat) : State :=
  let s1 := s.orReg .lnkErr n 0 (BitVec.ofNat 32 (2 ^ b))
  if 2 ≤ b ∧ b ≤ 6 then (s1.errLog { scope := 0, source := 0x08, part := n / 12, inst := n }).event 7 else s1

/-- A sequenced flit leaves a port: numbered, kept in the replay buffer, charged one credit (R359, R360). -/
def State.sendSeq (s : State) (n : Nat) (f : Flit) : State :=
  let l := s.link n
  let l1 := { l.crdTaken with nextSeq := (l.nextSeq + 1) % 1024, replay := l.replay ++ [(l.nextSeq, f)]
                              credits := AMap.put 0 f.tc (AMap.get 0 f.tc l.credits - 1) l.credits
                              ackTime := if l.replay.isEmpty then s.tim.now else l.ackTime }
  ((s.setLink n l1).emitSlot n (some l.nextSeq) f l.ackOut l.crdOut).countFlits n 0 1

/-! ## Arbitration -/

/-- A link in the frame of an instant: a frame of 1,024 ns that has begun since starts with nothing charged (R346, R361). -/
def Link.inFrame (l : Link) (now : Nat) : Link :=
  if l.frame = now / 1024 * 1024 then l else { l with frame := now / 1024 * 1024, mgmtSlots := 0, used := [] }

/-- Whether a requester is below its reservation on a link: its AMOUNT × 1.024 B in a frame, charged at 72 B per slot (R353, R361). -/
def State.below (s : State) (n : Nat) (l : Link) (q : Requester) : Bool :=
  decide (1000 * AMap.get 0 q.code l.used < 1024 * s.reservation q 0x05 (n / 12) (n % 12) l.frame)

/-- Whether the HEAD of a message has left. -/
def OutMsg.open (m : OutMsg) : Bool := (m.flits.headD { typ := 1, tc := 0 }).typ != 1

/-- The collective and bulk messages that may send a flit: of a class with credit the one that is open, else the first of each requester
(R361). -/
def Link.ready (l : Link) : List OutMsg :=
  l.queue.filter (fun m => (m.tc == 1 || m.tc == 2) && decide (0 < AMap.get 0 m.tc l.credits) &&
    (match l.queue.find? (fun o => o.tc == m.tc && o.open) with
      | some o => m == o
      | none => l.queue.find? (fun o => o.tc == m.tc && o.rq == m.rq) == some m))

/-- The message of those whose requester comes first in rotation after the one served last; an open one goes on (R361, row 5). -/
def Link.inTurn (l : Link) (ms : List OutMsg) : Option OutMsg :=
  match ms.find? (fun m => m.open) with
  | some m => some m
  | none => ((List.range 7).map (fun i => (l.turn + 1 + i) % 7)).findSome? (fun c => ms.find? (fun m => m.rq.code == c))

/-- The message whose flit a port sends next, of those that credit and the window of R359 allow: a management message, at most 8 slots in a
frame while others are ready; then the oldest of a requester below its reservation; then the others in rotation (R361). -/
def State.pick (s : State) (n : Nat) : Option OutMsg :=
  let l := (s.link n).inFrame s.tim.now.toNat
  let mg := (l.queue.find? (fun m => m.tc == 3)).filter (fun _ => decide (0 < AMap.get 0 3 l.credits))
  let ms := l.ready
  if 1023 ≤ l.replay.length then none
  else if mg.isSome && (ms.isEmpty || decide (l.mgmtSlots < 8)) then mg
  else ((ms.find? (fun m => s.below n l m.rq)).or (l.inTurn ms)).or mg

/-- A slot of a message charged in the frame of its port: 72 B to the requester of a collective or bulk message, one of the 8 to the management
class (R353, R361). -/
def State.chargeSlot (s : State) (n : Nat) (m : OutMsg) : State :=
  let l := (s.link n).inFrame s.tim.now.toNat
  s.setLink n (if m.tc = 3 then { l with mgmtSlots := l.mgmtSlots + 1 }
    else { l with used := AMap.put 0 m.rq.code (AMap.get 0 m.rq.code l.used + 72) l.used, turn := m.rq.code })

/-- Flits sent while the link is up, credit remains and the window of R359 allows, with fuel. -/
def State.pump : Nat → State → Nat → State
  | 0, s, _ => s
  | f + 1, s, n =>
    if !s.linkUp n then s
    else match s.pick n with
      | none => s
      | some m => match m.flits with
        | [] => State.pump f (s.setLink n { s.link n with queue := (s.link n).queue.erase m }) n
        | x :: t =>
          let s1 := (s.chargeSlot n m).sendSeq n x
          let l := s1.link n
          let m1 := { m with flits := t, fwd := m.fwd.map (fun p => (p.1, s.tim.now)) }
          let q := if t = [] then l.queue.erase m else l.queue.replace m m1
          let s2 := s1.setLink n { l with queue := q }
          match m.fwd with
          | none => State.pump f s2 n
          | some _ => State.pump f ((s2.countFlits n 6 1).returnOf { m with flits := [x] }) n

/-- Everything that a port can send, sent. -/
def State.drive (s : State) (n : Nat) : State :=
  State.pump (((s.link n).queue.map (fun m => m.flits.length + 1)).foldl (· + ·) 0) s n

/-- A message queued on a link and sent as far as credit goes. -/
def State.sendOn (s : State) (n : Nat) (m : OutMsg) : State :=
  (s.setLink n { s.link n with queue := (s.link n).queue ++ [m] }).drive n

/-! ## Messages -/

/-- A message header (R357). -/
structure Head where
  dst : Nat
  src : Nat
  hops : Nat
  hptr : Nat
  route : List Nat
  msg : Nat
  ctx : Nat
  ch : Nat
  tag : Nat := 0
  stage : Nat := 0
  ndata : Nat := 0
  offset : Nat := 0
  mseq : Nat := 0
  deriving DecidableEq, Repr

/-- The 64 bytes of a header. -/
def Head.bytes (h : Head) : List Byte :=
  leBytes 2 (h.dst % 4096) ++ leBytes 2 (h.src % 4096) ++ leBytes 1 h.hops ++ leBytes 1 h.hptr ++
  (List.range 15).map (fun i => BitVec.ofNat 8 (h.route.getD i 0 % 64)) ++
  leBytes 1 h.msg ++ leBytes 1 (h.ctx % 4) ++ leBytes 1 (h.ch % 16) ++ leBytes 2 h.tag ++ leBytes 2 h.stage ++ leBytes 1 h.ndata ++
  List.replicate 3 0 ++ leBytes 8 h.offset ++ leBytes 4 h.mseq ++ List.replicate 20 0

/-- 64-byte payloads of a list of bytes, the last filled with zeros. -/
def payloads (b : List Byte) : List (List Byte) :=
  (chunks 64 b.length b).map (fun c => c ++ List.replicate (64 - c.length) 0)

/-- DATA flits of a message, the last DATA_LAST, each with its poison. -/
def dataFlits (tc : Nat) (b : List Byte) (po : List Bool) : List Flit :=
  let l := payloads b
  l.zipIdx.map (fun e => { typ := if e.2 + 1 = l.length then 3 else 2, tc := tc, po := po.getD e.2 false, payload := e.1 })

/-- A message: HEAD and data (R357). -/
def message (h : Head) (tc : Nat) (slot : Option Nat) (rq : Requester) (b : List Byte) (po : List Bool) : OutMsg :=
  let h1 := { h with ndata := (payloads b).length }
  { tc := tc, slot := slot, rq := rq, flits := { typ := 1, tc := tc, payload := h1.bytes } :: dataFlits tc b po }

/-- The route-table entry of a partition for a destination (R362): HOPS and ROUTE. -/
def State.routeOf (s : State) (p dst : Nat) : Nat × List Nat :=
  let a := s.regAddr .lnkRtBaseLo .lnkRtBaseHi (12 * p) 0 + 16 * (dst % 4096)
  (s.devNum a 1, (List.range 15).map (fun i => s.devNum (a + 1 + i) 1 % 64))

/-- A message sent by the route table of a partition, with HPTR 1 on ROUTE[0]; one whose route names no link that is up is discarded
(R362, R364). -/
def State.sendRouted (s : State) (p tc : Nat) (slot : Option Nat) (rq : Requester) (h : Head) (b : List Byte) (po : List Bool) : State :=
  let r := s.routeOf p h.dst
  let n := r.2.headD 0
  if r.1 = 0 ∨ 15 < r.1 then s.lnkErr (12 * p) 4
  else if !s.linkUp n then s.lnkErr (if n < 48 then n else 12 * p) 4
  else (if slot.isSome then s.demandUnit (.link n) else s).sendOn n (message { h with hops := r.1, hptr := 1, route := r.2 } tc slot rq b po)

/-- A header of a message of a slot and channel, numbered MSEQ by this device (R357). -/
def State.chanHead (s : State) (x ch dst msg offset : Nat) : Head × State :=
  let c := s.ctx x
  let k := AMap.get {} ch c.chans
  ({ dst := dst, src := s.devId, hops := 0, hptr := 1, route := [], msg := msg, ctx := x, ch := ch, offset := offset, mseq := k.sendSeq.toNat },
   s.setCtx x { c with chans := AMap.put {} ch { k with sendSeq := k.sendSeq + 1 } c.chans })

/-- A bulk message of a slot and channel from a core's partition. -/
def State.sendPut (s : State) (p x ch dst msg offset : Nat) (b : List Byte) (po : List Bool) : State :=
  let r := s.chanHead x ch dst msg offset
  r.2.sendRouted p 2 (some x) (.slot x) r.1 b po

/-! ## Retrain and DOWN -/

/-- A link starts a retrain, a fast one first (R366). -/
def State.retrain (s : State) (n : Nat) : State :=
  let s1 := (s.setFld .lnkStatus n 0 2 0 1).setLink n { s.link n with fast := true, resends := 0 }
  (s1.bump .lnkCnt n 7 1).lnkErr n 1

/-- Whether a context has a message queued on a link, a posted LRECV from a device reached through it, or a collective that uses
it (R366). -/
def State.linkUsed (s : State) (x n : Nat) : Bool :=
  let c := s.ctx x
  (s.link n).queue.any (fun m => m.slot == some x) ||
    c.chans.any (fun e => e.2.posted && !e.2.full && (s.routeOf (e.2.core / 100) e.2.src).2.headD 0 == n) ||
    c.colls.any (fun e => e.2.live && !e.2.done && e.2.links.contains n)

/-- The messages queued on a link discarded; those that it forwards give their entries back to their input links (R360, R366). -/
def State.dropQueue (s : State) (n : Nat) : State :=
  let q := (s.link n).queue
  q.foldl (fun s m => s.returnOf m) (s.setLink n { s.link n with queue := [] })

/-- A retrain or training that ends in DOWN (R366): queued messages discarded, the contexts that used the link ended, its class 0x05
capacity zero. -/
def State.linkDown (s : State) (n : Nat) : State :=
  let hit := (List.range 4).filter (fun x => s.linkUsed x n)
  let l := s.link n
  let s0 := s.dropQueue n
  let s1 := (s0.setFld .lnkStatus n 0 7 0 4).setLink n { s0.link n with fullFails := l.fullFails + 1, fast := false }
  let s2 := s1.lnkErr n 2
  let s3 := if 2 ≤ l.fullFails + 1 then s2.replaceCause 4 0 else s2
  let s4 := hit.foldl (fun s x => s.endBy x stLink 0x08) s3
  let peer := match s4.sep.save with
    | some v => (v.peer.map (fun d => (s4.routeOf (lowPart (s4.ctx v.slot).parts) d).2.headD 0)) == some n
    | none => false
  (if peer then s4.abandonSave 2 else s4).recheck

/-- Messages that other links forward from link `n` no longer hold entries of its receive buffer, which starts again. -/
def State.forgetInput (s : State) (n : Nat) : State :=
  (List.range 48).foldl (fun s i =>
    let l := s.link i
    if l.queue.any (fun m => (m.fwd.map (fun p => p.1)) == some n) then
      s.setLink i { l with queue := l.queue.map (fun m => { m with fwd := m.fwd.map (fun p => (if p.1 = n then 48 else p.1, p.2)) }) }
    else s) s

/-- A link DISABLED: its port state starts again when it is next enabled. -/
def State.linkOff (s : State) (n : Nat) : State :=
  let s1 := (s.dropQueue n).forgetInput n
  let l := s1.link n
  (s1.setReg .lnkStatus n 0 0).setLink n { flits := l.flits, symbols := l.symbols, inv := l.inv, invq := l.invq, awake := l.awake }

/-! ## Reception -/

/-- The ACK and the credits of a received header taken (R359, R360). -/
def State.takeHead (s : State) (n : Nat) (h : FlitHead) : State :=
  let l := s.link n
  let i := l.replay.findIdx (fun e => e.1 == h.ack)
  let l1 := if i < l.replay.length then { l with replay := l.replay.drop (i + 1), lastAck := h.ack, ackTime := s.tim.now, resends := 0 } else l
  let room := s.crdAlloc n h.crdTc
  let sum := AMap.get 0 h.crdTc l1.credits + 8 * h.crdN
  let s1 := s.setLink n { l1 with credits := AMap.put 0 h.crdTc (min sum room) l1.credits }
  if room < sum then s1.lnkErr n 6 else s1

/-- A received header's ACK and credits, and what they let the port send. -/
def State.recvHead (s : State) (n : Nat) (h : FlitHead) : State := (s.takeHead n h).drive n

/-- `k` sequenced flits received good: the expected SEQ advances (R359). -/
def State.recvSeq (s : State) (n k : Nat) : State :=
  let l := s.link n
  (s.setLink n { l with expSeq := (l.expSeq + k) % 1024, nakSent := false }).countFlits n 1 k

/-- A message of `k` flits received whole on a link that is up, its entries free again and acknowledged with IDLE. -/
def State.recvMsg (s : State) (n : Nat) (h : FlitHead) (k tc : Nat) : State :=
  (((s.recvHead n h).recvSeq n k).freeEntries n tc k).sendIdle n

/-- A sequenced flit discarded: one NAK until the expected one arrives (R359). -/
def State.sendNak (s : State) (n : Nat) : State :=
  let l := s.link n
  if l.nakSent then s else (s.setLink n { l with nakSent := true }).sendPlain n { typ := 4, tc := 0, payload := noPayload }

/-- A flit that fails its CRC, is marked failed or has a reserved TYPE: counted (R354, R356). -/
def State.flitBad (s : State) (n : Nat) : State := (s.bump .lnkCnt n 3 1).lnkErr n 0

/-- A time-class flit that fails its CRC is dropped (R358). -/
def State.timeDrop (s : State) (n : Nat) : State := (s.flitBad n).lnkErr n 7

/-- Whether the flits of a message are taken: its header is that of a HEAD of the class with the SEQ next expected, and its class has the
entries (R355, R359, R360). -/
def State.inSeq (s : State) (n : Nat) (h : FlitHead) (k tc : Nat) : Bool :=
  h.typ == 1 && h.tc == tc && h.seq == (s.link n).expSeq && decide (s.inUse n tc + k ≤ s.crdAlloc n tc)

/-- A message of `k` flits arrives on a link: nothing where the link is not up, a discard with its NAK where it is not taken (log entry 134). -/
def recv (n : Nat) (h : FlitHead) (k tc : Nat) (s : State) (body : State → State) : Host.Outcome State Fault Refusal :=
  .next (if !s.linkUp n then s else if !s.inSeq n h k tc then s.sendNak n else body s)

/-- The flits after ACK sent again before any new one; at RETRY_MAX resends in a row the link retrains (R359). -/
def State.resend (s : State) (n : Nat) : State :=
  let l := s.link n
  if l.replay.isEmpty then s
  else
    let s1 := s.setLink n { l with resends := l.resends + 1, ackTime := s.tim.now }
    let s2 := l.replay.foldl (fun s e => s.emitSlot n (some e.1) e.2 l.ackOut (0, 0)) s1
    let s3 := s2.bump .lnkCnt n 2 l.replay.length
    if max 1 (s.fld .lnkCfg n 0 7 0) ≤ l.resends + 1 then s3.retrain n else s3

end Sys2Proof.Machine
end

