-- ==== Sys2Proof/Machine/Coll.lean ====
section
/-! DEFINITION. Collectives: configuration records, slices and chunks, the start of a handle, stages and their arithmetic
(R371 to R379, R383, R397 to R399, R412). -/

namespace Sys2Proof.Machine

/-! ## Configuration -/

/-- The configuration record of a handle (R373). -/
structure CollCfg where
  nx : Nat
  ny : Nat
  pos0 : Nat
  pos1 : Nat
  nrings : Nat
  /-- RING[k] words -/
  rings : List Nat
  deriving DecidableEq, Repr

/-- The address of the record of a handle as the link engine `n` finds it (R373). -/
def State.collAddr (s : State) (n ch : Nat) : Nat := storeAddr (n / 12) (s.fld .lnkCollBase n 0 27 8 * 256 + 256 * ch)

/-- The record that link engine `n` reads. -/
def State.collCfg (s : State) (n ch : Nat) : CollCfg :=
  let a := s.collAddr n ch
  let nr := min 48 (s.mem.num (a + 8) 1)
  { nx := s.mem.num a 2, ny := s.mem.num (a + 2) 2, pos0 := s.mem.num (a + 4) 2, pos1 := s.mem.num (a + 6) 2, nrings := nr
    rings := (List.range nr).map (fun k => s.mem.num (a + 16 + 4 * k) 4) }

/-- The link that ring `k` names: 0 to the next position along dimension 0, 1 from the previous one, 2 and 3 along dimension 1. -/
def CollCfg.link (c : CollCfg) (k w : Nat) : Nat := natBits (c.rings.getD k 0) (6 * w + 5) (6 * w)

/-- The links that a collective uses (R366, R373). -/
def CollCfg.links (c : CollCfg) : List Nat :=
  (List.range c.nrings).flatMap (fun k => (List.range (if c.ny ≤ 1 then 2 else 4)).map (fun w => c.link k w))

/-- First element and length of slice `k` of a buffer (R373): equal lengths in units of 32 elements, the last takes the remainder. -/
def CollCfg.slice (c : CollCfg) (elems k : Nat) : Nat × Nat :=
  let n := max 1 c.nrings
  let len := elems / 32 / n * 32
  (k * len, if k + 1 = n then elems - k * len else len)

/-- Elements of chunk `c` of `len` elements cut for `n` positions, as first and end (R374). -/
def chunkOf (len n c : Nat) : Nat × Nat :=
  let C := 32 * ceilDiv len (32 * max 1 n)
  (min (c * C) len, min ((c + 1) * C) len)

/-- The elements of the buffer that a stage command moves: chunk `c` of the slice along dimension 0, or of the chunk that this device
owns after phase 1 along dimension 1 (R374, R375). -/
def CollCfg.range (g : CollCfg) (elems k dim c : Nat) : Nat × Nat :=
  let sl := g.slice elems k
  if dim = 0 then
    let r := chunkOf sl.2 g.nx c
    (sl.1 + r.1, sl.1 + r.2)
  else
    let own := chunkOf sl.2 g.nx g.pos0
    let r := chunkOf (own.2 - own.1) g.ny c
    (sl.1 + own.1 + r.1, sl.1 + own.1 + r.2)

/-! ## Handles -/

/-- The collective of a handle. -/
def State.coll (s : State) (x ch : Nat) : CollState := AMap.get {} ch (s.ctx x).colls
/-- The collective replaced. -/
def State.setColl (s : State) (x ch : Nat) (v : CollState) : State :=
  s.setCtx x { s.ctx x with colls := AMap.put {} ch v (s.ctx x).colls }

/-- The next waiting invocation of a link engine starts at its entry point (R267): while RUN is set, with registers zero (log entry
71). -/
def State.nextInv (s : State) (n : Nat) : State :=
  let l := s.link n
  match l.inv, l.invq with
  | none, i :: t =>
    if !natBit (s.reg .wldCtrl (400 + n) 0).toNat 0 then s.setLink n { l with invq := t }
    else
      let w := s.weld (400 + n)
      let s1 := (s.setLink n { l with inv := some i, invq := t }).demandUnit (.link n)
      let s2 := s1.setWeld (400 + n) { w with w := [], pc := BitVec.ofNat 12 i.ev, count := 0 }
      (s2.setFld .wldStatus (400 + n) 0 0 0 1).bump .wldCnt (400 + n) 0 1
  | _, _ => s

/-- The engines that run a ring are invoked, each once (R372). -/
def State.invoke (s : State) (x ch : Nat) : State :=
  let v := s.coll x ch
  let g := s.collCfg (12 * v.part) ch
  let ks := (List.range g.nrings).filter (fun k => decide (g.link k 0 < 48))
  let s1 := s.setColl x ch { v with gated := false, twinWait := false, engines := ks.map (fun k => g.link k 0) }
  ks.foldl (fun s k =>
    let n := g.link k 0
    (s.setLink n { s.link n with invq := (s.link n).invq ++ [{ slot := x, ch := ch, ring := k, ev := v.ev }] }).nextInv n) s1

/-- The engine of a link has completed its part of a handle; with the last one the collective is complete (R371, R372). -/
def State.engineDone (s : State) (x ch n : Nat) : State :=
  let v := s.coll x ch
  let es := v.engines.erase n
  s.setColl x ch { v with engines := es, done := es.isEmpty, live := !es.isEmpty }

/-- 2 KiB units of a buffer: address and bytes of each. -/
def bufUnits (addr elems : Nat) : List (Nat × Nat) :=
  (List.range (ceilDiv (2 * elems) 2048)).map (fun i => (addr + 2048 * i, min 2048 (2 * elems - 2048 * i)))

/-- The CRC-64 of each 2 KiB unit of a buffer (R398). -/
def State.unitDigests (s : State) (addr elems : Nat) : List W64 :=
  (bufUnits addr elems).map (fun u => crc64 (s.devRead u.1 u.2))

/-- The digest of each 1 MiB block: the CRC-64 of its 512 unit digests in ascending address (R398). -/
def blockDigests (l : List W64) : List W64 :=
  (chunks 512 l.length l).map (fun b => crc64 (b.flatMap (fun d => leBytes 8 d.toNat)))

/-- Whether a unit of a collective buffer differs from its mirror copy (R397); a poisoned unit takes part in no comparison (R384). -/
def State.mirrorDiffers (s : State) (x addr elems : Nat) : Bool :=
  let d := 2048 * (s.reg .errCtxMirror 0 x).toNat
  (bufUnits addr elems).any (fun u => !s.devPo u.1 u.2 && !s.devPo (u.1 + d) u.2 && s.devRead u.1 u.2 != s.devRead (u.1 + d) u.2)

/-- The digests sent to the twin: CTXCORES, STEPNO, then the block digests, in the collective class (R398; a COLL message of 8-byte words,
log entry 75: DESIGN CHOICE). -/
def State.sendTwin (s : State) (x ch p : Nat) (words : List W64) : State :=
  let b := words.flatMap (fun w => leBytes 8 w.toNat)
  (chunks 4096 b.length b).foldl (fun s c =>
    let r := s.chanHead x ch (s.fld .errCtxCfg 0 x 27 16) 4 0
    r.2.sendRouted p 1 (some x) (.slot x) r.1 c []) s

/-- A started collective runs: mirror comparison, twin exchange or referee comparison first, as the context's MODE asks, else its
engines are invoked (R372, R397 to R399). -/
def State.runColl (s : State) (x ch : Nat) : State :=
  let v := s.coll x ch
  let mode := (s.ctx x).redundancy.toNat % 16
  if mode = 5 then (if s.mirrorDiffers x v.addr v.elems then s.endBy x stSdc 0x0F else s.invoke x ch)
  else if mode = 6 then
    let words := BitVec.ofNat 64 (s.ctxCores x).length :: (s.ctx x).stepno.zeroExtend 64 :: blockDigests (s.unitDigests v.addr v.elems)
    (s.setColl x ch { v with gated := false, twinWait := true }).sendTwin x ch v.part words
  else if mode = 7 then s.setColl x ch { v with gated := false }
  else s.invoke x ch

/-- Whether the slot takes a commit comparison (R412). -/
def State.takesCmp (s : State) (x : Nat) : Bool :=
  (s.ctx x).ckptOk && (s.ctx x).regions.any (fun r => r.2.2) && decide (0 < s.fld .sepCkGroup 0 x 4 0)

/-- Whether the gate of R412 holds an LCOLL back. -/
def State.gateShut (s : State) (x : Nat) : Bool := s.takesCmp x && !((s.ctx x).cmpDone && (s.ctx x).agreed)

/-- LCOLL performed: a handle whose collective has not completed is refused (R379); the collective starts once the commit comparison of the
previous step has ended in agreement (R412). -/
def State.lcoll (s : State) (n x ch ev tag addr elems : Nat) : Option State :=
  let old := s.coll x ch
  if old.live && !old.done then none
  else
    let v : CollState := { live := true, part := n / 100, ev := ev, tag := tag, addr := addr, elems := elems, gated := s.gateShut x
                           links := (s.collCfg (12 * (n / 100)) ch).links }
    let s1 := s.setColl x ch v
    some (if v.gated then s1 else s1.runColl x ch)

/-- The collectives that waited for agreement start (R412). -/
def State.openGate (s : State) (x : Nat) : State :=
  if s.gateShut x then s
  else ((s.ctx x).colls.filter (fun e => e.2.gated)).foldl (fun s e => s.runColl x e.1) s

/-! ## The end of an invocation -/

/-- The running invocation of a link engine leaves it, and the next starts. -/
def State.dropInv (s : State) (n : Nat) : State :=
  ((s.setLink n { s.link n with inv := none }).setFld .wldStatus (400 + n) 0 0 0 0).nextInv n

/-- A collective program ends with another result than 0, or traps: the handle is abandoned, and the context ends (R372, R379). -/
def State.collFails (s : State) (n : Nat) : State :=
  match (s.link n).inv with
  | none => s
  | some i => if i.abandoned then s.dropInv n else (s.dropInv n).endBy i.slot stIllegal 0x0A

/-- An invocation that has returned 0 and whose commands have completed leaves its engine. -/
def State.collEnds (s : State) (n : Nat) : State :=
  match (s.link n).inv with
  | none => s
  | some i =>
    if !i.ended || !i.queue.isEmpty then s
    else if i.abandoned then s.dropInv n
    else (s.dropInv n).engineDone i.slot i.ch n

/-! ## Stages -/

/-- Chunk messages at the head of a list that cover elements `lo` to `hi`: those messages, and the rest; none while some are missing. -/
def takeChunk (x ch : Nat) : List CollMsg → Nat → Nat → Option (List CollMsg × List CollMsg)
  | l, lo, hi => if hi ≤ lo then some ([], l) else match l with
    | [] => none
    | g :: t =>
      if g.slot.val = x ∧ g.ch.val = ch then
        (if g.first = lo ∧ g.elems ≠ [] then (takeChunk x ch t (lo + g.elems.length) hi).map (fun r => (g :: r.1, r.2)) else none)
      else (takeChunk x ch t lo hi).map (fun r => (r.1, g :: r.2))

/-- Element `e` of a buffer. -/
def State.bufElem (s : State) (addr e : Nat) : Nat := s.devNum (addr + 2 * e) 2

/-- One addition of R374: FP32 with RNE, flush and NaN rule, rounded to BF16 with SR; the second part says whether bits were drawn (R165). -/
def stageAdd (r a b : Nat) : Nat × Bool :=
  let v := add32 (BitVec.ofNat 32 (a * 65536)) (BitVec.ofNat 32 (b * 65536))
  ((bf16.round .sr r false (f32v v)).1, decide (v.toNat % 65536 ≠ 0) && !isNan32 v)

/-- BF16 elements from `lo` as chunk messages to the next position, at most 2,048 in each (R357, R373). -/
def State.sendChunk (s : State) (n x ch tag stage lo : Nat) (vals : List Nat) : State :=
  (chunks 2048 vals.length vals).zipIdx.foldl (fun s p =>
    let r := s.chanHead x ch (s.fld .lnkStatus n 0 19 8) 4 (lo + 2048 * p.2)
    let h := { r.1 with hops := 1, route := [n], tag := tag, stage := stage }
    if r.2.linkUp n then r.2.sendOn n (message h 1 (some x) (.slot x) (p.1.flatMap (fun v => leBytes 2 v)) []) else r.2.lnkErr n 4) s

/-- A stage command at the head of an engine's queue (R372): operations 1 SEND, 2 ADD_SEND, 3 ADD_WRITE, 4 COPY_SEND, 5 COPY, 6 WAIT.
A command that needs a chunk not yet arrived waits; a poisoned unit read or received ends the context before anything is sent
(R383). -/
def stage (n op : Nat) (s : State) : State :=
  match (s.link n).inv with
  | none => s
  | some i => match i.queue with
    | [] => s
    | c :: t =>
      if c.op ≠ op then s
      else
        let x := i.slot
        let v := s.coll x i.ch
        let g := s.collCfg n i.ch
        let r := g.range v.elems i.ring c.dim c.chunk
        let next := g.link i.ring (2 * c.dim)
        let prev := g.link i.ring (2 * c.dim + 1)
        let ends := fun (s : State) => (s.setLink n { s.link n with inv := some { i with queue := t, completed := i.completed + 1 } }).collEnds n
        let poisoned := s.endBy x stPoison 0x08
        let len := r.2 - r.1
        let readsLocal := op == 1 || op == 2 || op == 3
        if op = 6 then ends s
        else if readsLocal && decide (0 < len) && s.devPo (v.addr + 2 * r.1) (2 * len) then poisoned
        else
          let loc := (List.range len).map (fun e => s.bufElem v.addr (r.1 + e))
          if op = 1 then ends (s.sendChunk next x i.ch v.tag c.stage r.1 loc)
          else match takeChunk x i.ch (s.link prev).chunks r.1 r.2 with
            | none => s
            | some q =>
              let got := (q.1.flatMap (fun m => m.elems)).map (fun e => e.toNat)
              let flits := (q.1.map (fun m => m.flits)).foldl (· + ·) 0
              if q.1.any (fun m => m.poison.any id) then poisoned
              else
                let s1 := (s.setLink prev { s.link prev with chunks := q.2 }).returnEntries prev 1 flits
                let sums := (got.zip loc).zipIdx.map (fun p =>
                  stageAdd (srBits (s.ctxSeed x) streamLink (s.ctx x).stepno.toNat v.tag c.stage (r.1 + p.2)) p.1.1 p.1.2)
                let out := if op = 2 ∨ op = 3 then sums.map (fun p => p.1) else got
                let s2 := if op = 2 ∨ op = 3 then s1.evalsUp 2 ((sums.filter (fun p => p.2)).length) else s1
                let w := if 3 ≤ op ∧ 0 < len then s2.performWrite x [{ addr := v.addr + 2 * r.1, data := out.flatMap (fun e => leBytes 2 e) }]
                         else (s2, false)
                if w.2 then w.1.endBy x stPage 0x08
                else ends (if op = 5 then w.1 else w.1.sendChunk next x i.ch v.tag c.stage r.1 out)

/-- STAGE_SEND: chunk c of the local buffer goes unchanged to the next position (R372). -/
def execStageSend (link : Fin 48) (s : State) : Host.Outcome State Fault Refusal := .next (stage link.val 1 s)
/-- STAGE_ADD_SEND: the received chunk and the local contribution added, rounded with DRAW = STAGE, sent on (R372, R374). -/
def execStageAddSend (link : Fin 48) (s : State) : Host.Outcome State Fault Refusal := .next (stage link.val 2 s)
/-- STAGE_ADD_WRITE: as ADD_SEND, and the result written locally (R372, R374). -/
def execStageAddWrite (link : Fin 48) (s : State) : Host.Outcome State Fault Refusal := .next (stage link.val 3 s)
/-- STAGE_COPY_SEND: the received chunk written locally and sent on unchanged (R372). -/
def execStageCopySend (link : Fin 48) (s : State) : Host.Outcome State Fault Refusal := .next (stage link.val 4 s)
/-- STAGE_COPY: the received chunk written locally (R372). -/
def execStageCopy (link : Fin 48) (s : State) : Host.Outcome State Fault Refusal := .next (stage link.val 5 s)
/-- STAGE_WAIT: every earlier command of the invocation has completed (R372). -/
def execStageWait (link : Fin 48) (s : State) : Host.Outcome State Fault Refusal := .next (stage link.val 6 s)

/-- COLL_CHUNK_RECEIVE: a chunk message from the previous position stands in the link's receive buffer (R374, R378). A message of a slot with
no bound context, or of an abandoned handle, is discarded (R370, R379); a poisoned flit of a live one ends the context (R383). -/
def execCollChunkReceive (link : Fin 48) (h : FlitHead) (g : CollMsg) (s : State) : Host.Outcome State Fault Refusal :=
  let n := link.val
  let k := g.flits
  recv n h k 1 s (fun s =>
    let x := g.slot.val
    let c := s.ctx x
    let v := s.coll x g.ch.val
    if c.st = .free ∨ c.st = .draining ∨ c.st = .halted ∨ v.abandoned then s.recvMsg n h k 1
    else if v.live && g.poison.any id then (s.recvMsg n h k 1).endBy x stPoison 0x08
    else
      let s1 := (s.recvHead n h).recvSeq n k
      (s1.setLink n { s1.link n with chunks := (s1.link n).chunks ++ [g] }).sendIdle n)

/-! ## Twin and referee -/

/-- Two lists of unit digests written to the arbitration area, 512 from each side (R398). -/
def State.writeLists (s : State) (x : Nat) (a b : List W64) : State :=
  let base := storeAddr (lowPart (s.ctx x).parts) (s.fld .errCtxArb 0 x 27 8 * 256)
  let bytes := fun (l : List W64) => (List.range 512).flatMap (fun i => leBytes 8 (l.getD i 0).toNat)
  (s.rawWrite base (bytes a)).rawWrite (base + 4096) (bytes b)

/-- TWIN_DIGEST_RECEIVE: the twin's CTXCORES, STEPNO and block digests: all equal, and the collective proceeds; a difference in the first
two ends the context; a differing block makes both engines exchange its unit digests, and when those arrive both lists are written
and the context ends with SDC_MISMATCH (R398). -/
def execTwinDigestReceive (slot : Fin 4) (ch : Fin 16) (digests : List W64) (s : State) : Host.Outcome State Fault Refusal :=
  let x := slot.val
  let v := s.coll x ch.val
  let c := s.ctx x
  if !v.live || !v.twinWait then .next s
  else if c.twin ≠ [] then .next ((s.writeLists x c.twin digests).endBy x stSdc 0x0F)
  else
    let units := s.unitDigests v.addr v.elems
    let mine := BitVec.ofNat 64 (s.ctxCores x).length :: c.stepno.zeroExtend 64 :: blockDigests units
    if digests = mine then .next (s.invoke x ch.val)
    else if digests.take 2 ≠ mine.take 2 then .next (s.endBy x stSdc 0x0F)
    else
      let b := ((List.range (max mine.length digests.length - 2)).find? (fun i => mine[i + 2]? != digests[i + 2]?)).getD 0
      let l := (units.drop (512 * b)).take 512
      .next ((s.setCtx x { c with twin := l }).sendTwin x ch.val v.part l)

/-- REFEREE_COMPARE: the referee's unit digests of the buffer of its LCOLL against both twins' lists at ERR_CTX_ARB; REF is written, and
REF 0 ends the context with TRIPLE_DISAGREE (R399; which block the lists cover, log entry 76: DEDUCED). -/
def execRefereeCompare (slot : Fin 4) (s : State) : Host.Outcome State Fault Refusal :=
  let x := slot.val
  let c := s.ctx x
  match c.colls.find? (fun e => e.2.live && !e.2.done && !e.2.gated) with
  | none => .next s
  | some e =>
    if c.redundancy.toNat % 16 ≠ 7 then .next s
    else
      let base := storeAddr (lowPart c.parts) (s.fld .errCtxArb 0 x 27 8 * 256)
      let units := s.unitDigests e.2.addr e.2.elems
      let blocks := chunks 512 units.length units
      let is := fun (a : Nat) => blocks.any (fun b => b.zipIdx.all (fun d => s.mem.num (a + 8 * d.2) 8 == d.1.toNat))
      let ref := bit (is base) + 2 * bit (is (base + 4096))
      let s1 := (s.setFld .errCtxStatus 0 x 17 16 ref).setFld .errCtxStatus 0 x 19 19 1
      let s2 := s1.setColl x e.1 { e.2 with live := false, done := true }
      .next (if ref = 0 then s2.endBy x stTriple 0x0F else s2)

end Sys2Proof.Machine
end

