-- ==== Sys2Proof/Machine/Release.lean ====
section
/-! DEFINITION. Peer copies and the release of held instructions (R257, R298, R299, R369, R370). -/

namespace Sys2Proof.Machine

/-! ## Peer copy -/

/-- A channel of a slot. -/
def State.chan (s : State) (x ch : Nat) : Chan := AMap.get {} ch (s.ctx x).chans
/-- The channel replaced. -/
def State.setChan (s : State) (x ch : Nat) (v : Chan) : State :=
  s.setCtx x { s.ctx x with chans := AMap.put {} ch v (s.ctx x).chans }

/-- Bytes that a list of runs holds. -/
def runsLen (l : List (Nat × Nat)) : Nat := (l.map (fun r => r.2)).foldl (· + ·) 0

/-- LSEND performed: PUT_REQ with the tile's length leaves, and LFENCE waits for its PUT_DONE (R369). -/
def State.lsend (s : State) (n x ch dst : Nat) (data : List Byte) (po : List Bool) : State :=
  let s1 := s.setCore n { s.core n with lsendOut := (s.core n).lsendOut + 1 }
  let s2 := s1.setCtx x { s1.ctx x with sending := (s1.ctx x).sending ++ [{ core := n, slot := x, ch := ch, dst := dst, data := data, po := po }] }
  s2.sendPut (n / 100) x ch dst 0 data.length [] []

/-- A PUT_REQ answered (R369, R370): PUT_GO for its length, or for the buffer's length only, and then the receiving context ends. -/
def State.answerPut (s : State) (x ch src len : Nat) : State :=
  let v := s.chan x ch
  let size := runsLen v.runs
  let s1 := s.sendPut (v.core / 100) x ch src 1 (min len size) [] []
  let s2 := s1.setChan x ch { s1.chan x ch with len := min len size }
  if size < len then s2.endBy x stPage 0x08 else s2

/-- LRECV performed: the buffer is posted, and a PUT_REQ that waits for it is answered; none while the posted buffer of the channel is not
yet full (R369, R370). -/
def State.lrecv (s : State) (n x ch src : Nat) (dev : Bool) (runs : List (Nat × Nat)) : Option State :=
  let v := s.chan x ch
  if v.posted && !v.full then none
  else
    let v1 := { v with posted := true, full := false, core := n, src := src, dev := dev, runs := runs, len := 0, got := 0 }
    match v.reqs.find? (fun q => q.1 == src) with
    | none => some (s.setChan x ch v1)
    | some q => some ((s.setChan x ch { v1 with reqs := v.reqs.erase q, mseq := q.2.2 + 1 }).answerPut x ch src q.2.1)

/-! ## Held instructions released -/

/-- What performing a held instruction does. -/
inductive RelRes where
  | done (s : State)
  | wait
  | fail (s : State) (code : Nat)

/-- A held instruction performed after its epoch has committed (R257, R299). -/
def State.performHeld (s : State) (n x : Nat) (word : BitVec 12) : Held → RelRes
  | .write dev ps =>
    if !dev then .done (s.localWrite n ps)
    else if ps.any (fun p => s.captureHolds p.addr) then .wait
    else
      let r := s.performWrite x ps
      if r.2 then .fail r.1 stPage else .done (r.1.addXfer n { kind := 2 })
  | .vatWrite ws => .done ((s.setCore n { s.core n with vwq := (s.core n).vwq ++ ws }).bump .vatCnt n 0 ws.length)
  | .mvw v => .done (s.sendTile n x v)
  | .collector p => match s.sendPartial n p with
    | some s1 => .done s1
    | none => .fail s stPage
  | .edit eng addr => .done (s.sendEdit n x eng addr word)
  | .copyT3 runs =>
    let r := s.t3Reads n true runs
    .done (r.1.addXfer n { kind := 3, dev := true, t3 := r.2 })
  | .lsend ch dst data po => .done (s.lsend n x ch dst data po)
  | .lrecv ch src dev runs => match s.lrecv n x ch src dev runs with
    | some s1 => .done s1
    | none => .wait
  | .lcoll ch ev tag addr elems => match s.lcoll n x ch ev tag addr elems with
    | some s1 => .done s1
    | none => .fail s stIllegal

/-- The addresses that a held write writes. -/
def Held.targets : Held → List Nat
  | .write _ ps => ps.map (fun p => p.addr)
  | _ => []

/-- The record of a status that a released instruction raises (R301). -/
def State.heldRec (s : State) (n code : Nat) (i : HeldIns) : StatusRec :=
  { status := code, part := n / 100, pcore := n % 100, lcore := (s.lcore n).getD 0, word := i.word, slot := i.slot, op := i.op
    epoch := i.tag, inEpoch := true, valid := true }

/-- Released instructions of a core performed in program order until one waits; one that fails ends the context. -/
def State.flushRel : Nat → State → Nat → Nat → State
  | 0, s, _, _ => s
  | f + 1, s, n, x => match (s.core n).rel with
    | [] => s
    | i :: t => match s.performHeld n x i.word i.h with
      | .wait => s.await i.h.targets
      | .fail s1 code => s1.endContext x (s1.heldRec n code i) 0x0B
      | .done s1 => State.flushRel f (s1.setCore n { s1.core n with rel := t }) n x

/-- Every released instruction of a core that can be performed, performed. -/
def State.release (s : State) (n : Nat) : State :=
  match s.coreSlot n with
  | none => s
  | some x => State.flushRel (s.core n).rel.length s n x

/-- The released instructions of every core of a context (after a channel has become free, or a piece has been captured). -/
def State.releaseAll (s : State) (x : Nat) : State := (s.ctxCores x).foldl (fun s n => s.release n) s

end Sys2Proof.Machine
end

