-- ==== Sys2Proof/Machine/Collector.lean ====
section
/-! DEFINITION. Vat-writes in the memory path and the reduction collector (R100, R105 to R110, R116 to R121, R340, R342, R344). -/

namespace Sys2Proof.Machine

/-! ## Vat-write -/

/-- The Vat-writes in flight that a core and the collector of its partition have issued, each in order of issue, the core's first. -/
def State.vwFlight (s : State) (n : Nat) : List (Bool × VatW) :=
  (s.core n).vwq.map (fun w => (false, w)) ++ (s.part (n / 100)).colVw.map (fun w => (true, w))

/-- A Vat-write taken out of flight; one of a core is acknowledged later (R109). -/
def State.vwTake (s : State) (n : Nat) (col : Bool) (w : VatW) : State :=
  if col then s.setPart (n / 100) { s.part (n / 100) with colVw := (s.part (n / 100)).colVw.erase w }
  else s.setCore n { s.core n with vwq := (s.core n).vwq.erase w, vwAck := (s.core n).vwAck + 1 }

/-- One value of a Vat-write: the stored word plus V, rounded with RNE or SR, subnormal results flushed (R28, R105). -/
def vwSum (sr : Bool) (bits : Nat) (m v : W32) : W32 :=
  BitVec.ofNat 32 (accAdd false (if sr then .sr else .rne) bits m.toNat (f32v v))

/-- Whether SR evaluates the Kermes function for a sum: it is inexact (R165). -/
def vwDraws (m v : W32) : Bool :=
  match FV.add (f32v m) (f32v v) with
  | .fin _ q => fp32.inexact q
  | _ => false

/-- The 16 bits for value `i` of a Vat-write to an address (R106, R162): the base die's copy of the Vat-write seed, the step, the region's
TAG and the offset of the value in the region over 4. -/
def State.vwBits (s : State) (st : Nat) (r : Region) (w : VatW) (i : Nat) : Nat :=
  srBits (s.stack st).vwSeed streamVatwrite w.step.toNat r.tag 0 ((w.addr - r.base) / 4 + i)

/-- The check of R342 that a Vat-write to an address from a source fails, by its bit of MEM_VWR_ERR; none where all pass. The source is a
partition and a logical core index, or 0x7F for the collector. -/
def State.vwCheck (s : State) (a part src : Nat) : Option Nat :=
  match s.regionAt a with
  | none => some 0
  | some (p, i) =>
    let r := s.region p i
    if !r.armed || r.draining then some 0
    else if r.ownerPart ≠ part ∨ r.ownerSrc ≠ src then some 1
    else if r.invalid then some 2
    else none

/-- A Vat-write applied by the base die of a stack (R105, R106, R344, R383). -/
def State.vwApply (s : State) (n : Nat) (col : Bool) (w : VatW) (p i st : Nat) : State :=
  let r := s.region p i
  let bad := s.mem.finding (w.addr / 64) == .bad
  let s := s.readUnit 3 w.addr
  let old := bytesWords (s.mem.read w.addr 64)
  let was := bad || s.mem.poAt w.addr || s.retired w.addr
  let sums := (old.zip w.vals).zipIdx.map (fun e => vwSum w.sr (if w.sr then s.vwBits st r w e.2 else 0) e.1.1 e.1.2)
  let drew := if w.sr then ((old.zip w.vals).filter (fun e => vwDraws e.1 e.2)).length else 0
  let po := w.po || was
  let s1 := (s.evalsUp 3 drew).putUnit (unitPiece w.addr (wordsBytes sums) po) (w.addr / 64) po 0
  let s2 := (s1.setStack st { s1.stack st with vatWrites := (s1.stack st).vatWrites + 1 }).charge (.slot w.slot) true w.addr
  if !po then s2
  else
    let s3 := (s2.noteUe st w.addr (if bad then 3 else if w.po then 5 else 6) 0).memErr st 2 0 w.addr
    (if col then s3 else s3.vatErr n 3 0 w.addr).tallyUp w.slot 1

/-- A Vat-write discarded: the bit of the failing check, the core's VW_REJECT, and PAGE_FAULT for the issuing context (R107, R342). -/
def State.vwReject (s : State) (n : Nat) (col : Bool) (w : VatW) (bit_ : Option Nat) : State :=
  let s1 := match bit_, locOf w.addr with
    | some b, .mem p _ => s.vwrErr p b w.addr
    | _, _ => s
  let s2 := if col then s1 else s1.vatErr n 2 0 w.addr
  s2.endBy w.slot stPage (if col then 0x0D else 0x03)

/-- VAT_WRITE: a Vat-write in flight reaches the memory path. Those of one source to one unit are applied in the order of issue (R108); one to
a unit that a save is still to capture waits (R415). A stack whose generator failed takes none: the Vat-write is discarded as one that fails a
check (R170, log entry 118: DEDUCED). -/
def execVatWrite (k : CoreId) (i : Nat) (s : State) : Host.Outcome State Fault Refusal :=
  let n := k.key
  let l := s.vwFlight n
  match l[i]? with
  | none => .next s
  | some (col, w) =>
    if (l.take i).any (fun e => e.1 == col && e.2.addr == w.addr) || s.captureHolds w.addr then .next (s.await [w.addr])
    else
      let s1 := s.vwTake n col w
      let src := if col then 0x7F else (s.lcore n).getD 0x7E
      match s.vwCheck w.addr (n / 100) src, s.regionAt w.addr, locOf w.addr with
      | some b, _, _ => .next (s1.vwReject n col w (some b))
      | none, some (p, e), .mem _ off =>
        if s.pinnedAt w.slot w.addr || s.vwDead (s.stackOf p off) then .next (s1.vwReject n col w none)
        else .next (s1.vwApply n col w p e (s.stackOf p off))
      | none, _, _ => .next s1

/-- VAT_WRITE_ACK: the acknowledgement of an applied or discarded Vat-write reaches its core (R109). -/
def execVatWriteAck (k : CoreId) (s : State) : Host.Outcome State Fault Refusal :=
  let c := s.core k.key
  .next (if c.vwAck = 0 then s else s.setCore k.key { c with vwAck := c.vwAck - 1 })

/-! ## The reduction collector -/

/-- The job that a descriptor opens, as its fields stand (R117). -/
def State.jobOf (s : State) (slot a : Nat) : Job :=
  let m := s.mem.num a 12
  { desc := a, members := (List.range 96).filter (fun i => natBit m i), units := s.mem.num (a + 12) 4, dest := s.mem.num (a + 16) 6
    kind := s.mem.num (a + 22) 1, job := s.mem.num (a + 23) 1, slot := slot }

/-- The first failing check of R117 on a descriptor, by its status. -/
def State.jobCheck (s : State) (p x : Nat) (j : Job) : Option Nat :=
  let q := s.part p
  if s.mem.readPo j.desc 64 then some stPoison
  else if 2 < j.kind ∨ !allZero (s.mem.read (j.desc + 24) 40) ∨ j.units = 0 ∨ 65536 < j.units ∨ 63 < j.job ∨ q.jobs.any (fun k => k.job == j.job) ∨
      j.members = [] ∨ j.members.any (fun c => decide (q.logical.length ≤ c)) ∨ j.dest % 64 ≠ 0 then some stIllegal
  else if !s.ctxMem x j.dest (64 * j.units) then some stPage
  else none

/-- The sum of a unit as far as its members' partials have come in order: sum and the members added (R118). -/
def Job.sum (j : Job) (u : Nat) : List W32 × Bool × Nat := AMap.get ([], false, 0) u j.sums

/-- Staged partials added while the next member's has come. -/
def Job.advance : Nat → Job → Nat → Job
  | 0, j, _ => j
  | f + 1, j, u =>
    let a := j.sum u
    match j.members[a.2.2]? with
    | none => j
    | some m => match j.staged.find? (fun e => e.1 == u && e.2.1 == m) with
      | none => j
      | some e =>
        let v := if a.2.2 = 0 then e.2.2.1 else List.zipWith add32 a.1 e.2.2.1
        Job.advance f { j with sums := AMap.put ([], false, 0) u (v, a.2.1 || e.2.2.2, a.2.2 + 1) j.sums, staged := j.staged.erase e } u

/-- The job replaced in its collector. -/
def State.putJob (s : State) (p : Nat) (j : Job) : State :=
  let q := s.part p
  s.setPart p { q with jobs := q.jobs.map (fun k => if k.desc = j.desc then j else k) }

/-- A unit whose last member has been added leaves the collector: written or Vat-written to DEST + 64u; a refused write closes the job
(R118, R121). -/
def State.jobWrite (s : State) (p : Nat) (j : Job) (u : Nat) : State :=
  let a := j.sum u
  let addr := j.dest + 64 * u
  let j1 := { j with sums := AMap.erase u j.sums, written := j.written ++ [u] }
  let q := s.part p
  let s1 := if j1.units ≤ j1.written.length then s.setPart p { q with jobs := q.jobs.filter (fun k => k.desc != j.desc) } else s.putJob p j1
  if j.kind = 0 then
    let r := s1.performWrite j.slot (unitPiece addr (wordsBytes a.1) a.2.1)
    if r.2 then r.1.endBy j.slot stPage 0x0D else r.1
  else
    let w : VatW := { addr := addr, vals := a.1, po := a.2.1, sr := j.kind == 2, step := (s.ctx j.slot).stepno, slot := j.slot }
    s1.setPart p { s1.part p with colVw := (s1.part p).colVw ++ [w] }

/-- A partial accepted by an open job (R118, R119, R121). -/
def State.jobAccept (s : State) (n p x : Nat) (j : Job) (m : Partial) : State :=
  let c := (s.lcore n).getD 96
  let a := j.sum m.unit
  let seen := j.written.contains m.unit || (j.members.take a.2.2).contains c || j.staged.any (fun e => e.1 == m.unit && e.2.1 == c)
  if !j.members.contains c ∨ j.units ≤ m.unit ∨ seen then s.endBy x stIllegal 0x0D
  else
    let j1 := { j with staged := j.staged ++ [(m.unit, c, m.data, m.po)] }
    let j2 := Job.advance j1.members.length j1 m.unit
    let s1 := s.putJob p j2
    if (j2.sum m.unit).2.2 = j2.members.length then s1.jobWrite p j2 m.unit else s1

/-- Whether the staging buffer of a partition's collector, 1 MiB of 64-byte partials, is full (R119). -/
def State.stagingFull (s : State) (p : Nat) : Bool :=
  decide (16384 ≤ ((s.part p).jobs.map (fun j => j.staged.length)).foldl (· + ·) 0)

/-- Whether a partial is the next of its unit, so that it is added and not staged (R118, R119). -/
def State.isNext (s : State) (n : Nat) (j : Job) (m : Partial) : Bool := j.members[(j.sum m.unit).2.2]? == s.lcore n

/-- COLLECTOR_PARTIAL: partial `i` in flight from a core reaches the collector of its partition; the first of a descriptor opens the job (R117
to R121). One whose unit would be written while a save must capture it waits (R415), and so does one that a full staging buffer cannot take
(R119). -/
def execCollectorPartial (k : CoreId) (i : Nat) (s : State) : Host.Outcome State Fault Refusal :=
  let n := k.key
  let p := n / 100
  let c := s.core n
  match c.parts[i]? with
  | none => .next s
  | some m =>
    let x := m.slot
    let s1 := s.setCore n { c with parts := c.parts.erase m }
    match (s.part p).jobs.find? (fun j => j.desc == m.desc) with
    | some j => .next (if s.captureHolds (j.dest + 64 * m.unit) || (s.stagingFull p && !s.isNext n j m) then s.await [j.dest + 64 * m.unit] else s1.jobAccept n p x j m)
    | none =>
      let j := s.jobOf x m.desc
      if 64 ≤ (s.part p).jobs.length then .next (s1.endBy x stIllegal 0x0D)
      else match s.jobCheck p x j with
        | some code => .next (s1.endBy x code 0x0D)
        | none =>
          if s.captureHolds (j.dest + 64 * m.unit) || (s.stagingFull p && !s.isNext n j m) then .next (s.await [j.dest + 64 * m.unit])
          else .next ((s1.setPart p { s1.part p with jobs := (s1.part p).jobs ++ [j] }).jobAccept n p x j m)

end Sys2Proof.Machine
end

