-- ==== Sys2Proof/Machine/Flags.lean ====
section
/-! DEFINITION. The flag computations of the block: comparisons into predicates, counted events of conversions, and the
error flags that a field of a record sets. -/

namespace Sys2Proof.Machine

/-- A predicate with every bit at one value (R280: every bit of PD). -/
def predAll (b : Bool) : W64 := if b then BitVec.allOnes 64 else 0

/-- The predicate whose bit `l` is `f l` for the lanes 0 to 63. -/
def predOf (f : Nat → Bool) : W64 := BitVec.ofNat 64 (((List.range 64).map (fun l => if f l then 2 ^ l else 0)).foldl (· + ·) 0)

/-- A VCMP condition on two FP32 words: 0 EQ, 1 NE, 2 LT, 3 LE, 4 unordered; a NaN operand is false except under 1 and 4
(R283). -/
def vcmp (fn : Nat) (a b : W32) : Bool :=
  let u := isNan32 a || isNan32 b
  let x := f32v a
  let y := f32v b
  if fn = 0 then !u && FV.eq x y
  else if fn = 1 then u || !FV.eq x y
  else if fn = 2 then !u && FV.lt x y
  else if fn = 3 then !u && (FV.lt x y || FV.eq x y)
  else u

/-- A VICMP condition on two signed words; no operand is unordered (R283). -/
def vicmp (fn : Nat) (a b : W32) : Bool :=
  if fn = 0 then a == b
  else if fn = 1 then a != b
  else if fn = 2 then a.slt b
  else if fn = 3 then a.sle b
  else false

/-- The larger of two FP32 words in the order of R174: a NaN gives the canonical NaN, and +0 is above −0. -/
def max32 (a b : W32) : W32 :=
  if isNan32 a || isNan32 b then nan32
  else if FV.lt (f32v a) (f32v b) then b
  else if FV.lt (f32v b) (f32v a) then a
  else if a = 0x80000000#32 then b else a

/-- The smaller of two FP32 words in the same order. -/
def min32 (a b : W32) : W32 :=
  if isNan32 a || isNan32 b then nan32
  else if FV.lt (f32v a) (f32v b) then a
  else if FV.lt (f32v b) (f32v a) then b
  else if a = 0x80000000#32 then a else b

/-- A 32-bit integer result: SAT 0 saturates to −2³¹ … 2³¹ − 1, SAT 1 wraps (R283). -/
def satW32 (wrap : Bool) (i : Int) : W32 :=
  if wrap then BitVec.ofInt 32 i
  else if i < -2 ^ 31 then 0x80000000#32
  else if i > 2 ^ 31 - 1 then 0x7FFFFFFF#32
  else BitVec.ofInt 32 i

/-- A count saturated at its field's largest value (R137). -/
def satCount (w n : Nat) : Nat := min n (2 ^ w - 1)

end Sys2Proof.Machine
end

