-- ==== Sys2Proof/Machine/Scalar.lean ====
section
/-! DEFINITION. The C slot: scalar, predicate, branch, control and descriptor instructions (R279 to R281). -/

namespace Sys2Proof.Machine

/-- The operand fields that a C-slot opcode does not use are zero (R275). -/
def cOk (c : CSlot) (rd ra rb pd pa pb tgt imm : Bool) : Bool :=
  hdrOk c.i false false false false false && (rd || c.rd == 0) && (ra || c.ra == 0) && (rb || c.rb == 0) &&
    (pd || c.pd == 0) && (pa || c.pa == 0) && (pb || c.pb == 0) && (tgt || c.tgt == 0) && (imm || c.imm == 0)

/-- A C-slot command. -/
def cCmd (c : CSlot) (op : Nat) (k : Cls) (legal : Bool) (body : State → Nat → Nat → SlotRes) : Slot := slotCmd c.i 0 op k false legal body

/-- RD ← f RA RB; a poisoned source poisons the result (R280, R382). -/
def cBin (c : CSlot) (op : Nat) (f : W64 → W64 → W64) : Slot :=
  cCmd c op .a (cOk c true true true false false false false false)
    (fun s n _ =>
      let a := (s.core n).sreg c.ra.val
      let b := (s.core n).sreg c.rb.val
      .done s [.s c.rd.val (f a.1 b.1) (a.2 || b.2)] none)

/-- RD ← f RA IMM (R280). -/
def cImm (c : CSlot) (op : Nat) (f : W64 → W64 → W64) : Slot :=
  cCmd c op .a (cOk c true true false false false false false true)
    (fun s n _ =>
      let a := (s.core n).sreg c.ra.val
      .done s [.s c.rd.val (f a.1 c.imm) a.2] none)

/-- Every bit of PD ← f RA RB (R280); a poisoned operand poisons the predicate (R382). -/
def cCmp (c : CSlot) (op : Nat) (f : W64 → W64 → Bool) : Slot :=
  cCmd c op .a (cOk c false true true true false false false false)
    (fun s n _ =>
      let a := (s.core n).sreg c.ra.val
      let b := (s.core n).sreg c.rb.val
      .done s [.p c.pd.val (predAll (f a.1 b.1)) (a.2 || b.2)] none)

/-- Every bit of PD ← f RA IMM (R280). -/
def cCmpi (c : CSlot) (op : Nat) (f : W64 → W64 → Bool) : Slot :=
  cCmd c op .a (cOk c false true false true false false false true)
    (fun s n _ =>
      let a := (s.core n).sreg c.ra.val
      .done s [.p c.pd.val (predAll (f a.1 c.imm)) a.2] none)

/-- PD ← f PA PB over the VL bits (R280). -/
def cPred (c : CSlot) (op : Nat) (f : W64 → W64 → W64) : Slot :=
  cCmd c op .a (cOk c false false false true true true false false)
    (fun s n _ =>
      let a := (s.core n).preg c.pa.val
      let b := (s.core n).preg c.pb.val
      .done s [.p c.pd.val (f a.1 b.1) (a.2 || b.2)] none)

/-- ADD. -/
def slotAdd (c : CSlot) : Slot := cBin c 0x01 (· + ·)
/-- SUB. -/
def slotSub (c : CSlot) : Slot := cBin c 0x02 (· - ·)
/-- AND. -/
def slotAnd (c : CSlot) : Slot := cBin c 0x03 (· &&& ·)
/-- OR. -/
def slotOr (c : CSlot) : Slot := cBin c 0x04 (· ||| ·)
/-- XOR. -/
def slotXor (c : CSlot) : Slot := cBin c 0x05 (· ^^^ ·)
/-- SHL: shifts use bits 5:0 of their amount. -/
def slotShl (c : CSlot) : Slot := cBin c 0x06 (fun a b => a <<< (b.toNat % 64))
/-- SHR. -/
def slotShr (c : CSlot) : Slot := cBin c 0x07 (fun a b => a >>> (b.toNat % 64))
/-- SAR. -/
def slotSar (c : CSlot) : Slot := cBin c 0x08 (fun a b => a.sshiftRight (b.toNat % 64))
/-- MUL: the low 64 bits. -/
def slotMul (c : CSlot) : Slot := cBin c 0x09 (· * ·)
/-- MULHU: the high 64 bits of the unsigned product. -/
def slotMulhu (c : CSlot) : Slot :=
  cBin c 0x0A (fun a b => BitVec.ofNat 64 (a.toNat * b.toNat / 2 ^ 64))
/-- MIN, signed. -/
def slotMin (c : CSlot) : Slot := cBin c 0x0B (fun a b => if a.slt b then a else b)
/-- MAX, signed. -/
def slotMax (c : CSlot) : Slot := cBin c 0x0C (fun a b => if a.slt b then b else a)
/-- ADDI. -/
def slotAddi (c : CSlot) : Slot := cImm c 0x10 (· + ·)
/-- ANDI. -/
def slotAndi (c : CSlot) : Slot := cImm c 0x11 (· &&& ·)
/-- ORI. -/
def slotOri (c : CSlot) : Slot := cImm c 0x12 (· ||| ·)
/-- XORI. -/
def slotXori (c : CSlot) : Slot := cImm c 0x13 (· ^^^ ·)
/-- SHLI. -/
def slotShli (c : CSlot) : Slot := cImm c 0x14 (fun a b => a <<< (b.toNat % 64))
/-- SHRI. -/
def slotShri (c : CSlot) : Slot := cImm c 0x15 (fun a b => a >>> (b.toNat % 64))

/-- MOVI: RD ← IMM. -/
def slotMovi (c : CSlot) : Slot :=
  cCmd c 0x16 .a (cOk c true false false false false false false true)
    (fun s _ _ => .done s [.s c.rd.val c.imm false] none)

/-- CMP.EQ. -/
def slotCmpEq (c : CSlot) : Slot := cCmp c 0x18 (fun a b => a == b)
/-- CMP.NE. -/
def slotCmpNe (c : CSlot) : Slot := cCmp c 0x19 (fun a b => a != b)
/-- CMP.LT, signed. -/
def slotCmpLt (c : CSlot) : Slot := cCmp c 0x1A (fun a b => a.slt b)
/-- CMP.LTU, unsigned. -/
def slotCmpLtu (c : CSlot) : Slot := cCmp c 0x1B (fun a b => a.ult b)
/-- CMPI.EQ. -/
def slotCmpiEq (c : CSlot) : Slot := cCmpi c 0x1C (fun a b => a == b)
/-- CMPI.LT, signed. -/
def slotCmpiLt (c : CSlot) : Slot := cCmpi c 0x1D (fun a b => a.slt b)
/-- PAND. -/
def slotPand (c : CSlot) : Slot := cPred c 0x20 (· &&& ·)
/-- POR. -/
def slotPor (c : CSlot) : Slot := cPred c 0x21 (· ||| ·)
/-- PXOR. -/
def slotPxor (c : CSlot) : Slot := cPred c 0x22 (· ^^^ ·)

/-- PNOT: PD ← not PA. -/
def slotPnot (c : CSlot) : Slot :=
  cCmd c 0x23 .a (cOk c false false false true true false false false)
    (fun s n _ =>
      let a := (s.core n).preg c.pa.val
      .done s [.p c.pd.val (~~~a.1) a.2] none)

/-- PSET: every bit of PD ← IMM[0]; another bit of IMM is unused and must be zero. -/
def slotPset (c : CSlot) : Slot :=
  cCmd c 0x24 .a (cOk c false false false true false false false true && decide (c.imm.toNat < 2))
    (fun s _ _ => .done s [.p c.pd.val (predAll (c.imm.getLsbD 0)) false] none)

/-- JMP: PC ← TGT. -/
def slotJmp (c : CSlot) : Slot :=
  cCmd c 0x28 .a (cOk c false false false false false false true false)
    (fun s _ _ => .done s [] (some c.tgt))

/-- JR: PC ← RA[11:0]; a poisoned target is consumed (R300). -/
def slotJr (c : CSlot) : Slot :=
  cCmd c 0x29 .a (cOk c false true false false false false false false)
    (fun s n _ =>
      let a := (s.core n).sreg c.ra.val
      if a.2 then .status stPoison false else .done s [] (some (a.1.setWidth 12)))

/-- CALL: RD ← PC + 1; PC ← TGT. -/
def slotCall (c : CSlot) : Slot :=
  cCmd c 0x2A .a (cOk c true false false false false false true false)
    (fun s n _ => .done s [.s c.rd.val (((s.core n).pc + 1).setWidth 64) false] (some c.tgt))

/-- LOOP: RD ← RD − 1; PC ← TGT when the new RD is not 0; a poisoned count is consumed (R300). RD is s0: s0 reads zero and
ignores the write, and the new value, −1, is not 0. -/
def slotLoop (c : CSlot) : Slot :=
  cCmd c 0x2B .a (cOk c true false false false false false true false)
    (fun s n _ =>
      let a := (s.core n).sreg c.rd.val
      if a.2 then .status stPoison false
      else .done s [.s c.rd.val (a.1 - 1) false] (if a.1 - 1 = 0 then none else some c.tgt))

/-- The value of a control register (R247, R280), and whether a free value was drawn for it: the tag of an epoch that
does not exist (log entry 33: DESIGN CHOICE). -/
def State.controlReg (s : State) (n x i : Nat) : W64 × Bool :=
  let c := s.core n
  let tag : Option Nat → Nat × Bool := fun t => match t with
    | some t => (t, false)
    | none => ((Config.freeValue 2 s.free).toNat, true)
  if i = 0 then (64, false)
  else if i = 1 then (BitVec.ofNat 64 ((s.lcore n).getD 0), false)
  else if i = 2 then (BitVec.ofNat 64 (s.ctxCore x n), false)
  else if i = 3 then (BitVec.ofNat 64 (s.ctxCores x).length, false)
  else if i = 4 then ((s.ctx x).stepno.setWidth 64, false)
  else if i = 5 then (BitVec.ofNat 64 ((tag c.cur).1 + 4 * bit (!c.epochs.isEmpty)), (tag c.cur).2)
  else if i = 6 then
    let t := tag (c.epochs.head?.map (fun e => e.tag))
    (BitVec.ofNat 64 t.1, t.2)
  else (c.level, false)

/-- CRD: RD ← control register IMM[3:0]; a reserved number and a non-zero unused bit of IMM are refused. -/
def slotCrd (c : CSlot) : Slot :=
  cCmd c 0x30 .a (cOk c true false false false false false false true && decide (c.imm.toNat < 8))
    (fun s n x =>
      let v := s.controlReg n x c.imm.toNat
      .done (if v.2 then s.draw else s) [.s c.rd.val v.1 false] none)

/-- CWR: LEVELSEL ← RA; any other control register is refused. -/
def slotCwr (c : CSlot) : Slot :=
  cCmd c 0x31 .a (cOk c false true false false false false false true && c.imm == 7)
    (fun s n _ => .done s [.level ((s.core n).sreg c.ra.val).1] none)

/-- A layer record is named: the end-of-step policy runs over the layers that the context has named since BIND (log
entry 34). -/
def State.nameLayer (s : State) (x i : Nat) : State :=
  let c := s.ctx x
  if c.layers.contains i then s else s.setCtx x { c with layers := c.layers ++ [i] }

/-- A poisoned record: MOR_ERR.REC_UE is set, and the context ends (R300, R380). -/
def recPoison (s : State) (n : Nat) : State :=
  (s.orReg .morErr n 0 1).errLog { scope := 1, source := 0x04, part := n / 100, inst := n % 100 }

/-- CLVL: LEVELSEL ← LEVEL of the layer record at index IMM[15:0] (R145); in reference mode every layer runs at level 2 (R204). -/
def slotClvl (c : CSlot) : Slot :=
  cCmd c 0x32 .a (cOk c false false false false false false false true && decide (c.imm.toNat < 2 ^ 16))
    (fun s n x =>
      let a := s.recAddr n c.imm.toNat
      if !s.ctxRange x a 64 then .status stPage false
      else if s.devPo a 64 then .status stPoison false
      else .done (s.nameLayer x c.imm.toNat) [.level (if (s.ctx x).refmode then 2 else BitVec.ofNat 64 (s.devNum (a + 2) 1 % 4))] none)

/-- The operand-store offset RA + IMM, modulo 2⁶⁴. -/
def State.cAddr (s : State) (n : Nat) (c : CSlot) : W64 × Bool :=
  let a := (s.core n).sreg c.ra.val
  (a.1 + c.imm, a.2)

/-- TLD: the descriptor register ← 32 bytes of the operand store, 32-byte aligned (R280, R300). -/
def slotTld (c : CSlot) : Slot :=
  cCmd c 0x34 .a (cOk c true true false false false false false true && decide (c.rd.val < 32))
    (fun s n _ =>
      let a := s.cAddr n c
      if a.2 then .status stPoison false
      else if a.1.toNat % 32 ≠ 0 then .status stAlign true
      else if 0x400000 ≤ a.1.toNat then .status stPage false
      else
        let m := (s.core n).loc
        .done s [.t c.rd.val (BitVec.ofNat 256 (m.num a.1.toNat 32)) (m.readPo a.1.toNat 32)] none)

/-- TST: 32 bytes of the operand store ← the descriptor register, at once: of the C slot, R299 puts STS alone in class Q. -/
def slotTst (c : CSlot) : Slot :=
  cCmd c 0x35 .a (cOk c true true false false false false false true && decide (c.rd.val < 32))
    (fun s n _ =>
      let a := s.cAddr n c
      if a.2 then .status stPoison false
      else if a.1.toNat % 32 ≠ 0 then .status stAlign true
      else if 0x400000 ≤ a.1.toNat then .status stPage false
      else
        let k := s.core n
        let d := k.treg c.rd.val
        .done (s.setCore n { k with loc := k.loc.write [{ addr := a.1.toNat, data := leBytes 32 d.1.toNat, po := d.2 }] }) [] none)

/-- TADDR: ADDR of the descriptor ← ADDR + RA, modulo 2⁴⁸. -/
def slotTaddr (c : CSlot) : Slot :=
  cCmd c 0x36 .a (cOk c true true false false false false false false && decide (c.rd.val < 32))
    (fun s n _ =>
      let d := (s.core n).treg c.rd.val
      let a := (s.core n).sreg c.ra.val
      let v := d.1.toNat - natBits d.1.toNat 47 0 + (natBits d.1.toNat 47 0 + a.1.toNat) % 2 ^ 48
      .done s [.t c.rd.val (BitVec.ofNat 256 v) (d.2 || a.2)] none)

/-- TORG: ROW0 ← ROW0 + RA[19:0] and COL0 ← COL0 + RB[19:0], each modulo 2²⁰. -/
def slotTorg (c : CSlot) : Slot :=
  cCmd c 0x37 .a (cOk c true true true false false false false false && decide (c.rd.val < 32))
    (fun s n _ =>
      let d := (s.core n).treg c.rd.val
      let a := (s.core n).sreg c.ra.val
      let b := (s.core n).sreg c.rb.val
      let v := d.1.toNat
      let r := (natBits v 195 176 + a.1.toNat) % 2 ^ 20
      let q := (natBits v 215 196 + b.1.toNat) % 2 ^ 20
      let w := v - natBits v 195 176 * 2 ^ 176 - natBits v 215 196 * 2 ^ 196 + r * 2 ^ 176 + q * 2 ^ 196
      .done s [.t c.rd.val (BitVec.ofNat 256 w) (d.2 || a.2 || b.2)] none)

/-- LDS: RD ← 8 bytes of the operand store, 8-byte aligned; a poisoned unit poisons RD (R382). -/
def slotLds (c : CSlot) : Slot :=
  cCmd c 0x38 .a (cOk c true true false false false false false true)
    (fun s n _ =>
      let a := s.cAddr n c
      if a.2 then .status stPoison false
      else if a.1.toNat % 8 ≠ 0 then .status stAlign true
      else if 0x400000 ≤ a.1.toNat then .status stPage false
      else
        let m := (s.core n).loc
        .done s [.s c.rd.val (BitVec.ofNat 64 (m.num a.1.toNat 8)) (m.readPo a.1.toNat 8)] none)

/-- STS: 8 bytes of the operand store ← the register named by RD. The operand store is a speculative region (log entry
35), so the write is performed at once. -/
def slotSts (c : CSlot) : Slot :=
  cCmd c 0x39 .q (cOk c true true false false false false false true)
    (fun s n x =>
      let a := s.cAddr n c
      if a.2 then .status stPoison false
      else if a.1.toNat % 8 ≠ 0 then .status stAlign true
      else if 0x400000 ≤ a.1.toNat then .status stPage false
      else
        let k := s.core n
        let d := k.sreg c.rd.val
        storeDone (s.store n x 0 0x39 false [{ addr := a.1.toNat, data := leBytes 8 d.1.toNat, po := d.2 }]) [])

/-- The next tag in rotation that is not open (R254). -/
def freeTag (open_ : List Nat) (t : Nat) : Nat :=
  ((List.range 4).map (fun i => (t + i) % 4)).find? (fun k => !open_.contains k) |>.getD (t % 4)

/-- CSPEC: opens an epoch for the layer run IMM[15:0], micro-batch IMM[23:16], with the register snapshot and the restart
address TGT (R254). It waits while three epochs are open (R255), and while a save at an instruction boundary is requested
(R263). The snapshot is taken as the registers stand before the wide instruction (log entry 36: DEDUCED). -/
def slotCspec (c : CSlot) : Slot :=
  cCmd c 0x3C .a (cOk c false false false false false false true true && decide (c.imm.toNat < 2 ^ 24))
    (fun s n x =>
      let k := s.core n
      if 3 ≤ k.epochs.length then .wait .stall
      else if (match (s.ctx x).save with
        | some q => q.instr
        | none => false) then .wait .stall
      else
        let t := freeTag (k.epochs.map (fun e => e.tag)) k.nextTag
        let e : Epoch := { tag := t, run := { layer := c.imm.extractLsb' 0 16, mb := c.imm.extractLsb' 16 8 }, restart := c.tgt,
                           snap := { s := k.s, p := k.p, v := k.v, t := k.t, level := k.level } }
        .done ((s.setCore n { k with epochs := k.epochs ++ [e], cur := some t, nextTag := (t + 1) % 4 }).setCtx x { s.ctx x with forward := true }) [] none)

/-- CCOMMIT: ends the instructions of the current epoch (R254); with none current it does nothing. -/
def slotCcommit (c : CSlot) : Slot :=
  cCmd c 0x3D .a (cOk c false false false false false false false false)
    (fun s n _ =>
      let k := s.core n
      .done (s.setCore n { k with cur := none, epochs := k.epochs.map (fun e =>
        if some e.tag = k.cur then { e with ccommit := some s.tim.now } else e) }) [] none)

/-- CCOMMIT.STEP: the core has ended the step; after this wide instruction it issues nothing until the step commit (R260). -/
def slotCcommitStep (c : CSlot) : Slot :=
  cCmd c 0x3E .n (cOk c false false false false false false false false)
    (fun s n _ => .done (s.setCore n { s.core n with wait := .step }) [] none)

/-- HALT: the core has ended its program; with the end of its wide instruction the last core's HALT ends the program (R251). -/
def slotHalt (c : CSlot) : Slot :=
  cCmd c 0x3F .n (cOk c false false false false false false false false)
    (fun s n _ => .done (s.setCore n { s.core n with halted := true }) [] none)

end Sys2Proof.Machine
end

