-- ==== Sys2Proof/Machine/Mordant.lean ====
section
/-! DEFINITION. The T slot: the Mordant unit (R52, R123 to R143, R146, R193, R292, R293). -/

namespace Sys2Proof.Machine

/-! ## Records -/

/-- The fields of a tensor record that hold the totals of a step, cleared (R138, R139: CUR_AMAX to ERR_MAX). -/
def State.clearRec (s : State) (n i : Nat) : State := s.rawWrite (s.recAddr n i + 20) (List.replicate 32 0)

/-- The scale history of a tensor record emptied (R151). -/
def State.emptyHist (s : State) (n i : Nat) : State :=
  let a := s.recAddr n i
  s.rawWrite (a + 3) (BitVec.ofNat 8 (s.devNum (a + 3) 1 % 16) :: List.replicate 16 255#8)

/-- The start of a step for a layer record with RECAL set: the histories of X_TREC and Y_TREC are emptied, and RECAL is cleared (R151, log
entry 34). -/
def State.recal (s : State) (n i : Nat) : State :=
  let a := s.recAddr n i
  let f := s.devNum (a + 4) 1
  if !natBit f 1 then s
  else ((s.emptyHist n (s.devNum (a + 10) 2)).emptyHist n (s.devNum (a + 12) 2)).rawWrite (a + 4) (leBytes 1 (f - 2))

/-- A tensor record named by its context: one named for the first time begins its totals at zero (R138, log entry 34: DEDUCED). -/
def State.nameRec (s : State) (x n i : Nat) : State :=
  let c := s.ctx x
  if c.trecs.contains i then s else (s.setCtx x { c with trecs := c.trecs ++ [i] }).clearRec n i

/-- A T-slot instruction begins: the first of a step recalibrates the layers with RECAL set, and clears the totals of the tensor records, here of those that the context has
named since BIND and of each other record when it is first named (R138, log entry 34: DEDUCED). -/
def State.tBegin (s : State) (n x : Nat) (recs : List Nat) : State :=
  let c := s.ctx x
  let s1 := if c.tActive then s else c.layers.foldl (fun s i => s.recal n i) (c.trecs.foldl (fun s i => s.clearRec n i) (s.setCtx x { c with tActive := true }))
  recs.foldl (fun s i => s.nameRec x n i) s1

/-- The tensor records that descriptors name. -/
def recsOf (l : List TD) : List Nat := (l.filter (fun t => t.trv)).map (fun t => t.trec)

/-- A status where a record lies outside the context's memory or reads poisoned (R300). -/
def State.recChk (s : State) (x n i : Nat) : Option SlotRes :=
  let a := s.recAddr n i
  if !s.ctxRange x a 64 then some (.status stPage false)
  else if s.devPo a 64 then some (.faultIn (recPoison s n) stPoison)
  else none

/-! ## Slots -/

/-- The fields of a T-slot opcode: those that it does not use are zero (R275, R292). -/
def tOk (t : TSlot) (ts td inv gran lrec sa trn rnd sat : Bool) : Bool :=
  hdrOk t.i rnd sat false false false && decide (t.i.rnd.val ≤ 4) && (ts || t.ts == 0) && (td || t.td == 0) && (inv || !t.inv) &&
    (gran || t.gran == 0) && (lrec || t.lrec == 0) && (sa || t.sa == 0) && (trn || !t.trn)

/-- A T-slot command. -/
def tCmd (t : TSlot) (op : Nat) (k : Cls) (legal : Bool) (body : State → Nat → Nat → SlotRes) : Slot :=
  slotCmd t.i 5 op k false legal (fun s n x => body (s.demand n 7) n x)

/-- The FP32 word of an exact value: RO, as an inner conversion of a chain (R50). -/
def toF32 (v : FV) : W32 := f32r .ro false v

/-! ## Rotation -/

/-- The constant c_n of R127. -/
def rotConst (n : Nat) : W32 :=
  if n = 32 then 0x3E3504F3#32 else if n = 64 then 0x3E000000#32 else if n = 128 then 0x3DB504F3#32 else 0x3D800000#32

/-- One butterfly stage of R127 with distance h. -/
def butterfly (h : Nat) (y : List W32) : List W32 :=
  y.zipIdx.map (fun e =>
    if e.2 / h % 2 = 0 then add32 e.1 (y.getD (e.2 + h) 0) else add32 (y.getD (e.2 - h) 0) (neg32 e.1))

/-- The stages h = 1, 2, 4, … below n. -/
def butterflies : Nat → Nat → Nat → List W32 → List W32
  | 0, _, _, y => y
  | f + 1, n, h, y => if h < n then butterflies f n (2 * h) (butterfly h y) else y

/-- The signs of D applied (R128). -/
def rotSigns (seed : Nat) (y : List W32) : List W32 := y.zipIdx.map (fun e => if rotationSign seed e.2 then neg32 e.1 else e.1)

/-- The rotation of one block (R127). -/
def rotate (n seed : Nat) (x : List W32) : List W32 := (butterflies 9 n 1 (rotSigns seed x)).map (fun v => mul32 (rotConst n) v)

/-- The inverse rotation of one block (R127). -/
def unrotate (n seed : Nat) (x : List W32) : List W32 := rotSigns seed (butterflies 9 n 1 (x.map (fun v => mul32 (rotConst n) v)))

/-- A row rotated block by block; a poisoned element poisons its block (R382). -/
def rotateRow (inv : Bool) (n seed : Nat) (row : List (W32 × Bool)) : List (W32 × Bool) :=
  (chunks n row.length row).flatMap (fun b =>
    let v := b.map (fun e => e.1)
    let po := b.any (fun e => e.2)
    (if inv then unrotate n seed v else rotate n seed v).map (fun w => (w, po)))

/-! ## TQZ -/

/-- An element that TQZ quantises: its value in the domain of the lake, its poison and its 16 Kermes bits. -/
structure QElem where
  v : FV
  po : Bool
  bits : Nat

/-- The scale code 2^(e − 127) for an exponent, clamped (R35). -/
def scaleCode (e : Int) : Nat := (max (-127) (min 127 e) + 127).toNat

/-- The largest magnitude of a list, 0 for none. -/
def amaxOf (l : List FV) : Mag :=
  l.foldl (fun m v => match v with
    | .fin _ q => if Mag.lt m q then q else m
    | _ => m) (Mag.dyadic 0 0)

/-- emax of R35. -/
def lakeEmax (fmt : Nat) : Int := if fmt = 4 then 8 else if fmt = 5 then 15 else if fmt = 8 then 2 else 0

/-- The in-band code of a value under a scale exponent and zero point (R34, R47, R51, R52, R130). A tie of UINT8Z under RNE goes to the
even code, the zero point counted in (log entry 112: DEDUCED from R51). -/
def inBand (fmt : Nat) (mode : Rnd) (r : Nat) (xe : Int) (z : Nat) (v : FV) : ConvR :=
  match v with
  | .nan => { code := ((FFmt.ofCode fmt).map FFmt.nanCode).getD 0, nan := true }
  | .inf s => if fmt = 5 then { code := e5m2.infCode s } else { code := e4m3.maxCode s, sat := true }
  | .fin s m =>
    let at_ : Int → Mag := fun f => { m with exp := m.exp - xe + f }
    let frac : Mag → Bool := fun q => (q.scaled 0).1 % (q.scaled 0).2 != 0
    if fmt = 6 then
      let o := satInt false 6 8 (roundInt mode r s (at_ 6))
      { code := o.1, sat := o.2, drew := mode == .sr && frac (at_ 6) }
    else if fmt = 9 then
      let o := satInt false 9 4 (roundInt mode r s (at_ 2))
      { code := o.1, sat := o.2, drew := mode == .sr && frac (at_ 2) }
    else if fmt = 7 then
      let t := (at_ 7).scaled 0
      let odd : Int := ((t.1 / t.2 + (1 - t.1 / t.2 % 2) : Nat) : Int)
      let i := (if mode = .rne ∧ z % 2 = 1 ∧ 2 * (t.1 % t.2) = t.2 then (if s then -odd else odd)
        else roundInt mode r s (at_ 7)) + z
      { code := (max 0 (min 255 i)).toNat, sat := decide (255 < i), drew := mode == .sr && frac (at_ 7) }
    else if fmt = 10 then
      let t := (at_ 1).scaled 0
      let md := if mode = .rne then .rna else mode
      let n := if t.1 < t.2 then 0 else roundQuot md r (t.1 - t.2) (2 * t.2)
      { code := if s then 1 - min n 1 else 2 + min n 1, sat := decide (1 < n)
        drew := mode == .sr && decide (t.2 ≤ t.1) && (t.1 - t.2) % (2 * t.2) != 0 }
    else if fmt = 11 then
      let t := (at_ 0).scaled 0
      let n := roundQuot mode r t.1 t.2
      { code := if n = 0 then 0 else if s then 2 else 1, sat := decide (1 < n), drew := mode == .sr && frac (at_ 0) }
    else match FFmt.ofCode fmt with
      | some f =>
        let o := f.round mode r true (.fin s (at_ 0))
        { code := o.1, sat := o.2, drew := mode == .sr && f.inexact (at_ 0) }
      | none => { code := 0 }

/-- Whether an in-band code stands for zero (R136, UFL). -/
def zeroCode (fmt z c : Nat) : Bool :=
  if fmt = 7 then c == z else if fmt = 10 then false else if fmt = 4 ∨ fmt = 5 then c % 128 == 0 else if fmt = 8 then c % 8 == 0 else c == 0

/-- The candidates of a block (R133): places of the elements whose magnitude exceeds OUT_MULT × S_b. `fe`: the exponent of S_b where
the sum of magnitudes is infinite, which the manual leaves open (log entry 57: DESIGN CHOICE). -/
def candidates (mult : Nat) (fe : Int) (els : List QElem) : List Nat :=
  let fin := els.filter (fun e => e.v.isFin)
  if mult = 0 ∨ fin = [] then []
  else
    let sum := (fin.map (fun e => (f32r .rne false e.v.abs))).foldl add32k 0
    let a := div32 sum (f32r .rne false (FV.ofInt fin.length 0))
    match f32v a with
    | .nan => []
    | .inf _ => pick fe
    | .fin _ m => if m.num = 0 then [] else pick m.floorLog2
where
  /-- the places above the threshold for an exponent of S_b -/
  pick (e : Int) : List Nat :=
    (els.zipIdx.filter (fun q => match q.1.v with
      | .fin _ m => Mag.lt (Mag.dyadic mult (e - 4)) m
      | _ => false)).map (fun q => q.2)

/-- A block quantised: scale and zero point, codes, slots (place in the lake, BF16 code), counts, Kermes evaluations, and whether
free values stand in it. -/
structure QBlock where
  scale : Nat
  z : Nat
  codes : List Nat
  slots : List (Nat × Nat)
  d : Delta
  drew : Nat
  free : Bool

/-- A block of a lake quantised (R30, R35, R41, R52, R129, R130, R133, R134). `room`: slots that remain; `fr`: the number of the first free
value of the block. A NaN block takes its slots and counts its overflow as any other block does; its in-band codes, which no rule gives
(R33), are free among the codes that the device produces, and count no saturation and no underflow (log entry 57: DESIGN CHOICE). -/
def quantBlock (t : TD) (mode : Rnd) (base room fr : Nat) (els : List QElem) : QBlock :=
  let bad := els.any (fun e => !e.v.isFin) && !(t.fmt == 4 || t.fmt == 5)
  let cand := candidates t.outMult ((Config.freeValue 8 (fr + 41)).toNat - 127) els
  let fits := decide (cand.length ≤ room)
  let ext := if fits then cand else []
  let keep := (els.zipIdx.filter (fun e => !ext.contains e.2)).map (fun e => e.1.v)
  let amax := amaxOf keep
  let lo := els.foldl (fun (m : FV) e => if e.v.isFin && FV.lt e.v m then e.v else m) (.fin false (Mag.dyadic 0 0))
  let hi := els.foldl (fun (m : FV) e => if e.v.isFin && FV.lt m e.v then e.v else m) (.fin false (Mag.dyadic 0 0))
  let span := match FV.add hi (FV.neg lo) with
    | .fin _ m => m
    | _ => Mag.dyadic 0 0
  let mag := if t.fmt = 7 then span else amax
  let scale := if bad then 255 else if mag.num = 0 then 0 else scaleCode (mag.floorLog2 - lakeEmax t.fmt)
  let xe : Int := (scale : Int) - 127
  let z := if t.fmt ≠ 7 then 0 else if bad then (Config.freeValue 8 (fr + 40)).toNat else match lo with
    | .fin _ m => min 255 (roundInt .rne 0 false { m with exp := m.exp + 7 - xe }).toNat
    | _ => 0
  let res := els.zipIdx.map (fun e =>
    if ext.contains e.2 then
      let o := bf16.round mode e.1.bits true e.1.v
      let dr := mode == .sr && (match e.1.v with
        | .fin _ m => bf16.inexact m
        | _ => false)
      (({ code := 0, sat := o.2, drew := dr } : ConvR), some o.1, e.1)
    else if bad then ({ code := producedCode t.fmt (Config.freeValue 8 (fr + e.2)).toNat }, none, e.1)
    else (inBand t.fmt mode e.1.bits xe z e.1.v, none, e.1))
  let live := res.filter (fun e => !e.2.2.po)
  { scale := scale, z := z, codes := res.map (fun e => e.1.code)
    slots := res.zipIdx.filterMap (fun e => e.1.2.1.map (fun v => (base + e.2, v)))
    drew := (res.filter (fun e => e.1.drew)).length
    free := bad
    d := { sat := (live.filter (fun e => e.1.sat)).length
           nan := if bad then bit (els.any (fun e => !e.v.isFin && !e.po)) else (live.filter (fun e => e.1.nan)).length
           ovf := bit (!fits && els.any (fun e => !e.po))
           ufl := if bad then 0
             else (live.filter (fun e => e.2.1.isNone && e.2.2.v.isFin && !e.2.2.v.isZero && zeroCode t.fmt z e.1.code)).length
           elems := live.length } }

/-- The blocks of a lake in ascending order, the slots that remain passing on (R134). -/
def quantBlocks (t : TD) (mode : Rnd) : Nat → Nat → Nat → Nat → List QElem → List QBlock
  | 0, _, _, _, _ => []
  | m + 1, b, room, fr, els =>
    let bs := blkElems t.block
    let q := quantBlock t mode (b * bs) room fr (els.take bs)
    q :: quantBlocks t mode m (b + 1) (room - q.slots.length) (fr + 48) (els.drop bs)

/-- The bytes of a lake (R37 to R41). -/
def packLake (t : TD) (po : Bool) (scales zs codes : List Nat) (slots : List (Nat × Nat)) : List Byte :=
  let paired := lakePaired t.fmt t.block
  let nb := scales.length
  let head := t.fmt + 16 * bit t.block + 32 * bit (t.fmt == 7) + 64 * bit t.rot + 128 * bit po
  let code := fun i => codes.getD i 0
  let offs := (slotOffs t.fmt t.block).zipIdx
  (List.range (lakeBytes t.fmt t.block)).map (fun i =>
    BitVec.ofNat 8 (
      if i = 0 ∨ (paired ∧ i = 64) then head
      else if i ≤ nb then scales.getD (i - 1) 0
      else if t.fmt = 7 ∧ i ≤ 2 * nb then zs.getD (i - 1 - nb) 0
      else match offs.find? (fun o => decide (o.1 ≤ i ∧ i < o.1 + 3)) with
        | some o => match slots[o.2]? with
          | some e => if i = o.1 then e.1 else if i = o.1 + 1 then e.2 % 256 else e.2 / 256
          | none => if i = o.1 then 255 else 0
        | none =>
          let p := if paired ∧ 64 < i then 48 + (i - 65) else i - payOff t.fmt t.block
          if t.fmt < 8 then code p
          else if t.fmt < 10 then code (2 * p) + 16 * code (2 * p + 1)
          else code (4 * p) + 4 * code (4 * p + 1) + 16 * code (4 * p + 2) + 64 * code (4 * p + 3)))

/-- A lake quantised: its bytes, whether it is poisoned, its counts, evaluations, and whether free values stand in it. -/
structure QLake where
  bytes : List Byte
  po : Bool
  d : Delta
  drew : Nat
  free : Bool

/-- A lake quantised from the real elements that it holds. -/
def quantLake (t : TD) (mode : Rnd) (fr : Nat) (els : List QElem) : QLake :=
  let n := lakeElems t.fmt t.block
  let bs := blkElems t.block
  let q := quantBlocks t mode (n / bs) 0 (slotOffs t.fmt t.block).length fr els
  let po := els.any (fun e => e.po)
  { bytes := packLake t po (q.map (fun b => b.scale)) (q.map (fun b => b.z))
      (q.flatMap (fun b => b.codes ++ List.replicate (bs - b.codes.length) 0)) (q.flatMap (fun b => b.slots))
    po := po
    d := (q.map (fun b => b.d)).foldl Delta.add {}
    drew := (q.map (fun b => b.drew)).foldl (· + ·) 0
    free := q.any (fun b => b.free) }

/-- The FP32 pattern of the largest finite magnitude among elements that are not poisoned (R135, R382). -/
def amaxWord (l : List (FV × Bool)) : W32 :=
  f32r .rne false (.fin false (amaxOf ((l.filter (fun e => !e.2)).map (fun e => e.1))))

/-- TQZ: a plain tile quantised into lakes (R123 to R136). -/
def slotTqz (t : TSlot) : Slot :=
  tCmd t 0x01 .q (tOk t true true false false false false true false true) (fun s0 n x =>
    let c := s0.core n
    let a := c.treg t.ts.val
    let b := c.treg t.td.val
    let src := tdOf a.1
    let dst := tdOf b.1
    let need1 := if t.trn then decide (dst.rows ≤ src.cols) && decide (dst.cols ≤ src.rows)
                 else decide (dst.rows ≤ src.rows) && decide (dst.cols ≤ src.cols)
    if a.2 || b.2 then .status stPoison false
    else match firstChk [src.plainOk, dst.lakeOk, need ((src.fmt == 0 || src.fmt == 2 || src.fmt == 3) && dst.trv && need1 &&
        decide (dst.rnd ≤ 4) && dst.rnd != 3)] with
      | some e => .status e true
      | none =>
        let rc := if t.trn then (dst.cols, dst.rows) else (dst.rows, dst.cols)
        if !s0.runsOk x src.space (src.spans rc.1 rc.2) then .status stPage false
        else if !s0.runsOk x dst.space (dst.lakeSpans dst.rows dst.cols) then .status stPage false
        else match (if dst.rnd = 4 then s0.recChk x n dst.trec else none) with
          | some e => e
          | none =>
            let s := s0.tBegin n x (recsOf [src, dst])
            let mode := Rnd.ofCodeD dst.rnd
            let tensor := if dst.rnd = 4 then s.tensorId n dst else 0
            let N := lakeElems dst.fmt dst.block
            let nl := ceilDiv dst.cols N
            let rows := (List.range dst.rows).map (fun r => (List.range dst.cols).map (fun k =>
              if t.trn then s.elemV n src k r else s.elemV n src r k))
            let dom := rows.map (fun row =>
              if dst.rot then (rotateRow false dst.rotSize dst.rotSeed (row.map (fun e => (f32r .rne false e.1, e.2)))).map (fun e => (f32v e.1, e.2))
              else row)
            let lakes := dom.zipIdx.map (fun r =>
              let els := r.1.zipIdx.map (fun e => ({ v := e.1.1, po := e.1.2
                                                     bits := if dst.rnd = 4 then s.convBits x tensor (dst.row0 + r.2) (dst.col0 + e.2) else 0 } : QElem))
              (chunks N els.length els).zipIdx.map (fun l => quantLake dst mode (s.free + (r.2 * nl + l.2) * 1024) l.1))
            let all := lakes.flatMap (fun l => l)
            let d : Delta := { (all.map (fun l => l.d)).foldl Delta.add {} with amax := amaxWord (rows.flatMap (fun r => r)) }
            let ps := lakes.zipIdx.flatMap (fun r => r.1.zipIdx.map (fun l =>
              ({ addr := dst.addr + r.2 * (64 * dst.stride) + l.2 * lakeBytes dst.fmt dst.block, data := l.1.bytes, po := l.1.po } : Piece)))
            let s1 := s.evalsUp 0 ((all.map (fun l => l.drew)).foldl (· + ·) 0 + if dst.rot then dst.rotSize else 0)
            let s2 := if all.any (fun l => l.free) then s1.drawN (dst.rows * nl * 1024) else s1
            match s2.countAll n [(src, {}), (dst, d)] with
            | none => cfFull s0 n
            | some s3 => storeDone (s3.store n x 5 0x01 dst.space ps) [])

/-! ## TDQ, TROT, TCV -/

/-- A lake row as values: of every position, with the poison of its lake. -/
def LakeRow.values (r : LakeRow) (cols : Nat) : List (FV × Bool) :=
  (List.range cols).map (fun k => ((r.lake k).value r.bs (k % r.n), (r.lake k).poisoned))

/-- Elements of a destination converted from values, by the fields of a T-slot instruction: codes with poison, and the counts. -/
def State.convertRows (s : State) (x n : Nat) (dst : TD) (rnd : Nat) (satAll wrap : Bool) (rows : List (List (FV × Bool))) :
    List (List (Nat × Bool)) × Delta × Nat :=
  let tensor := if rnd = 4 then s.tensorId n dst else 0
  let q := rows.zipIdx.map (fun r => r.1.zipIdx.map (fun e =>
    let bits := if rnd = 4 then s.convBits x tensor (dst.row0 + r.2) (dst.col0 + e.2) else 0
    (convert dst.fmt (Rnd.ofCodeD rnd) bits satAll wrap e.1.1, e.1)))
  let live := (q.flatMap (fun r => r)).filter (fun e => !e.2.2)
  (q.map (fun r => r.map (fun e => (e.1.code, e.2.2))),
    { sat := (live.filter (fun e => e.1.sat)).length, nan := (live.filter (fun e => e.1.nan)).length
      ufl := (live.filter (fun e => e.2.1.isFin && !e.2.1.isZero && (plainValue dst.fmt e.1.code).isZero)).length
      elems := live.length },
    ((q.flatMap (fun r => r)).filter (fun e => e.1.drew)).length)

/-- A record that the rounding of a destination reads: its TENSOR_ID under SR (R162). -/
def State.idChk (s : State) (x n rnd : Nat) (t : TD) : Option SlotRes := if rnd = 4 ∧ t.trv then s.recChk x n t.trec else none

/-- TDQ: lakes widened into a plain tile, with the inverse rotation under INV (R193, R293). -/
def slotTdq (t : TSlot) : Slot :=
  tCmd t 0x02 .q (tOk t true true true false false false true true false) (fun s0 n x =>
    let c := s0.core n
    let a := c.treg t.ts.val
    let b := c.treg t.td.val
    let src := tdOf a.1
    let dst := tdOf b.1
    let rk := if t.trn then (dst.cols, dst.rows) else (dst.rows, dst.cols)
    if a.2 || b.2 then .status stPoison false
    else match firstChk [src.lakeOk, dst.plainOk, need (decide (dst.fmt < 4) && src.trv && decide (rk.1 ≤ src.rows) && decide (rk.2 ≤ src.cols) &&
        (!t.inv || src.rot))] with
      | some e => .status e true
      | none =>
        if !s0.runsOk x src.space (src.lakeSpans rk.1 src.cols) then .status stPage false
        else if !s0.runsOk x dst.space (dst.spans dst.rows dst.cols) then .status stPage false
        else match s0.idChk x n t.i.rnd.val dst with
          | some e => e
          | none =>
            let s := s0.tBegin n x (recsOf [src, dst])
            let lr := (List.range rk.1).map (fun r => s.lakeRow n src r 0 src.cols)
            let vals := lr.map (fun r =>
              let v := r.values src.cols
              if t.inv then (rotateRow true src.rotSize src.rotSeed (v.map (fun e => (toF32 e.1, e.2)))).map (fun e => (f32v e.1, e.2)) else v)
            let get := fun r k => (vals.getD r []).getD k (.nan, false)
            let rows := (List.range dst.rows).map (fun i => (List.range dst.cols).map (fun q => if t.trn then get q i else get i q))
            let o := s.convertRows x n dst t.i.rnd.val false false rows
            let k := (lr.map LakeRow.nans).foldl (· + ·) 0
            let w := (lr.flatMap (fun r => ((r.values src.cols).take rk.2).filter (fun e => !e.2))).length
            match (s.evalsUp 0 (o.2.2 + if t.inv then src.rotSize else 0)).countAll n
                [(src, { nan := k, elems := w }), (dst, { o.2.1 with elems := 0 })] with
            | none => cfFull s0 n
            | some s1 => storeDone (s1.putTile n x 5 0x02 dst o.1) [])

/-- TROT: the rotation of an FP32 tile, or under INV its inverse (R127, R293). -/
def slotTrot (t : TSlot) : Slot :=
  tCmd t 0x03 .q (tOk t true true true false false false false true false) (fun s0 n x =>
    let c := s0.core n
    let a := c.treg t.ts.val
    let b := c.treg t.td.val
    let src := tdOf a.1
    let dst := tdOf b.1
    let rot := if t.inv then src else dst
    if a.2 || b.2 then .status stPoison false
    else match firstChk [src.plainOk, dst.plainOk, need (src.fmt == 0 && dst.fmt == 0 && rot.rot && decide (dst.rows ≤ src.rows) &&
        decide (dst.cols ≤ src.cols))] with
      | some e => .status e true
      | none =>
        let K := if t.inv then src.cols else dst.cols
        if !s0.runsOk x src.space (src.spans dst.rows K) then .status stPage false
        else if !s0.runsOk x dst.space (dst.spans dst.rows dst.cols) then .status stPage false
        else
          let s := (s0.tBegin n x (recsOf [src, dst])).evalsUp 0 rot.rotSize
          let rows := (List.range dst.rows).map (fun i =>
            ((rotateRow t.inv rot.rotSize rot.rotSeed ((List.range K).map (fun q =>
              let e := s.elem n src i q
              (BitVec.ofNat 32 e.1, e.2)))).take dst.cols))
          let nans := ((rows.flatMap (fun r => r)).filter (fun e => isNan32 e.1 && !e.2)).length
          match s.countAll n [(src, {}), (dst, { nan := nans })] with
          | none => cfFull s0 n
          | some s1 => storeDone (s1.putTile n x 5 0x03 dst (rows.map (fun r => r.map (fun e => (e.1.toNat, e.2))))) [])

/-- The exponent t of the delayed tensor scale (R132), from the record at an address. An HLEN outside 1 to 16 counts as the nearer of the two
(log entry 126: DESIGN CHOICE); where every entry of the window is empty, INIT_EXP stands (log entry 127: DESIGN CHOICE). -/
def State.delayedExp (s : State) (a fmt : Nat) : Int :=
  let hlen := max 1 (min 16 (s.devNum (a + 2) 1))
  let b := s.devNum (a + 3) 1
  let hptr := b % 16
  let init := s.devNum (a + 52) 1
  let initE : Int := if 128 ≤ init then (init : Int) - 256 else init
  let es := ((List.range hlen).map (fun i => s.devNum (a + 4 + (hptr + 15 - i) % 16) 1)).filter (fun e => e != 255)
  if b / 16 = 0 ∨ es = [] then initE
  else ((es.foldl max 0 : Nat) : Int) - 127 - (if fmt = 4 then 8 else if fmt = 5 then 15 else if fmt = 6 then 6 else 7)

/-- TCV: a conversion between plain formats, with the delayed tensor scale where the destination has DELAYED set (R132). T_EXP takes the low 8
bits of an exponent below −128 (log entry 128: DESIGN CHOICE). -/
def slotTcv (t : TSlot) : Slot :=
  tCmd t 0x04 .q (tOk t true true false false false false false true true) (fun s0 n x =>
    let c := s0.core n
    let a := c.treg t.ts.val
    let b := c.treg t.td.val
    let src := tdOf a.1
    let dst := tdOf b.1
    if a.2 || b.2 then .status stPoison false
    else match firstChk [src.plainOk, dst.plainOk, need (decide (dst.rows ≤ src.rows) && decide (dst.cols ≤ src.cols) &&
        roOk t.i.rnd.val dst.fmt && (!dst.delayed || (dst.trv && decide (4 ≤ dst.fmt))))] with
      | some e => .status e true
      | none =>
        if !s0.runsOk x src.space (src.spans dst.rows dst.cols) then .status stPage false
        else if !s0.runsOk x dst.space (dst.spans dst.rows dst.cols) then .status stPage false
        else match (if dst.delayed then s0.recChk x n dst.trec else s0.idChk x n t.i.rnd.val dst) with
          | some e => e
          | none =>
            let s := s0.tBegin n x (recsOf [src, dst])
            let ra := s.recAddr n dst.trec
            let e := if dst.delayed then s.delayedExp ra dst.fmt else 0
            let sc : FV → FV := fun v => match v with
              | .fin g m => .fin g { m with exp := m.exp - e }
              | v => v
            let rows := (List.range dst.rows).map (fun i => (List.range dst.cols).map (fun q =>
              let v := s.elemV n src i q
              (sc v.1, v.2)))
            let o := s.convertRows x n dst t.i.rnd.val dst.delayed t.i.sat rows
            let s1 := if dst.delayed then s.rawWrite (ra + 53) [BitVec.ofInt 8 e] else s
            match (s1.evalsUp 0 o.2.2).countAll n [(src, {}), (dst, o.2.1)] with
            | none => cfFull s0 n
            | some s2 => storeDone (s2.putTile n x 5 0x04 dst o.1) [])

/-! ## TSTAT -/

/-- The FP32 word and poison of the largest magnitude of a group: poisoned elements take no part, and poison the result (R382). -/
def amaxOut (l : List (FV × Bool)) : W32 × Bool := (amaxWord l, l.any (fun e => e.2))

/-- TSTAT.AMAX: the largest magnitudes of the blocks of every row, of every row, and of the tile, as GRAN selects, one after another
as FP32 words from SA (R135, R293, log entry 58: DEDUCED). -/
def slotTstatAmax (t : TSlot) : Slot :=
  tCmd t 0x05 .a (tOk t true false false true false true false false false) (fun s0 n x =>
    let c := s0.core n
    let a := c.treg t.ts.val
    let sa := c.sreg t.sa.val
    let src := tdOf a.1
    if a.2 || sa.2 then .status stPoison false
    else match firstChk [if src.lake then src.lakeOk else src.plainOk, need src.trv, align (sa.1.toNat % 128 == 0)] with
      | some e => .status e true
      | none =>
        if !s0.runsOk x src.space (if src.lake then src.lakeSpans src.rows src.cols else src.spans src.rows src.cols) then .status stPage false
        else
          let s := s0.tBegin n x (recsOf [src])
          let lr := if src.lake then (List.range src.rows).map (fun r => s.lakeRow n src r 0 src.cols) else []
          let rows := if src.lake then lr.map (fun r => r.values src.cols)
            else (List.range src.rows).map (fun i => (List.range src.cols).map (fun q => s.elemV n src i q))
          let bs := blkElems src.block
          let blocks := rows.flatMap (fun r => (chunks bs r.length r).map amaxOut)
          let out := (if natBit t.gran.val 0 then blocks else []) ++ (if natBit t.gran.val 1 then rows.map amaxOut else []) ++
            (if natBit t.gran.val 2 then [amaxOut (rows.flatMap (fun r => r))] else [])
          if out.length * 4 + sa.1.toNat > 0x400000 then .status stPage false
          else
            let ps := out.zipIdx.map (fun e => ({ addr := sa.1.toNat + 4 * e.2, data := leBytes 4 e.1.1.toNat, po := e.1.2 } : Piece))
            match (s.localWrite n ps).countFor n src true { nan := (lr.map LakeRow.nans).foldl (· + ·) 0
                                                            amax := amaxWord (rows.flatMap (fun r => r)) } with
            | none => cfFull s0 n
            | some s1 => .done s1 [] none)

/-- e² and w² of R143 over pairs of words. -/
def chkSums (l : List (W32 × W32)) : W32 × W32 :=
  l.foldl (fun a e =>
    let d := sub32k e.1 e.2
    (add32k a.1 (mul32k d d), add32k a.2 (mul32k e.2 e.2))) (0, 0)

/-- The ratio e² / w² of R143. -/
def chkRatio (e2 w2 : W32) : W32 :=
  if (f32v w2).isZero then (if (f32v e2).isZero then 0 else inf32) else div32 e2 w2

/-- TSTAT.CHK: the oldest filled sample buffer compared with the wide tile TS, and freed (R143, R289). -/
def slotTstatChk (t : TSlot) : Slot :=
  tCmd t 0x05 .a (tOk t true false false false true false false false false) (fun s0 n x =>
    let c := s0.core n
    let a := c.treg t.ts.val
    let src := tdOf a.1
    if a.2 then .status stPoison false
    else match firstChk [src.plainOk, need (src.trv && decide (32 ≤ src.rows) && decide (32 ≤ src.cols))] with
      | some e => .status e true
      | none => match c.samples with
        | [] => .status stIllegal true
        | b :: rest =>
          if !s0.runsOk x src.space (src.spans 32 32) then .status stPage false
          else match s0.recChk x n t.lrec.toNat with
            | some e => e
            | none =>
              let s := (s0.tBegin n x (recsOf [src])).nameLayer x t.lrec.toNat
              let ra := s.recAddr n t.lrec.toNat
              let s1 := s.setCore n { s.core n with samples := rest }
              let wide := (List.range 32).flatMap (fun i => (List.range 32).map (fun q => s.elemV n src i q))
              if wide.any (fun e => e.2) || b.elems.any (fun e => e.2) then
                match s1.countFor n src true {} with
                | none => cfFull s0 n
                | some s2 => .done ((s2.orReg .morErr n 0 8).errLog { scope := 0, source := 0x04, part := n / 100, inst := n % 100 }) [] none
              else
                let q := chkSums ((b.elems.map (fun e => e.1)).zip (wide.map (fun e => f32r .rne false e.1)))
                let tol := BitVec.ofNat 32 (s.devNum (ra + (if s.devNum (ra + 2) 1 % 4 = 0 then 24 else 28)) 4)
                let lim := mul32k (mul32k tol tol) q.2
                let fail := isNan32 q.1 || isNan32 q.2 || (!isNan32 lim && FV.lt (f32v lim) (f32v q.1))
                let s2 := (s1.bump .morCnt n 3 1).bump .morCnt n 4 (bit fail)
                match s2.countFor n src true { checked := 1, failed := bit fail, errMax := chkRatio q.1 q.2 } with
                | none => cfFull s0 n
                | some s3 => .done s3 [] none)

/-- The deltas of a tensor in the current epoch. -/
def Core.deltaOf (c : Core) (trec : Nat) : Delta :=
  ((c.cf.find? (fun e => e.trec == trec && e.tag == c.cur)).map (fun e => e.d)).getD {}

/-- TSTAT.FIN: the deltas of the run for W_TREC, X_TREC and Y_TREC leave for the verdict core (R146, R293); it waits while the digest
log holds entries (R395). A second one in an epoch sends nothing (log entry 56: DEDUCED). -/
def slotTstatFin (t : TSlot) : Slot :=
  tCmd t 0x05 .a (tOk t false false false false true false false false false) (fun s0 n x =>
    let c := s0.core n
    match c.epochs.find? (fun e => some e.tag == c.cur) with
    | none => .status stIllegal true
    | some e =>
      if !c.digests.isEmpty then .wait .stall
      else match s0.recChk x n t.lrec.toNat with
        | some r => r
        | none =>
          let ra := s0.recAddr n t.lrec.toNat
          let w := s0.devNum (ra + 8) 2
          let xr := s0.devNum (ra + 10) 2
          let y := s0.devNum (ra + 12) 2
          let s := (s0.tBegin n x [w, xr, y]).nameLayer x t.lrec.toNat
          if e.finSent then .done s [] none
          else
            let m : FinMsg := { run := e.run, ctxcore := s.ctxCore x n, w := c.deltaOf w, x := c.deltaOf xr, y := c.deltaOf y, lrec := t.lrec.toNat }
            .done (s.setCore n { c with fins := c.fins ++ [m]
                                        epochs := c.epochs.map (fun q => if q = e then { q with finSent := true } else q) }) [] none)

end Sys2Proof.Machine
end

