-- ==== Sys2Proof/Machine/Weld.lean ====
section
/-! DEFINITION. Weld sequencers: the instructions, the invocations of link engines, and policy programs run to their end
(R266 to R272, R372). -/

namespace Sys2Proof.Machine

/-! ## Instructions -/

/-- A Weld instruction (R268, R269). -/
inductive WOp where
  /-- two-operand arithmetic, by opcode 0x00 to 0x0D -/
  | alu (op : Nat) (rd ra rb : Nat)
  /-- arithmetic with an immediate, by opcode 0x10 to 0x15 -/
  | imm (op : Nat) (rd ra : Nat) (imm : BitVec 14)
  | lui (rd : Nat) (imm : BitVec 22)
  | ld (rd ra : Nat) (imm : BitVec 14)
  | st (rd ra : Nat) (imm : BitVec 14)
  | ldx (rd ra : Nat) (imm : BitVec 14)
  | stx (rd ra : Nat) (imm : BitVec 14)
  /-- branches, by opcode 0x20 to 0x24 -/
  | br (op : Nat) (ra rb : Nat) (off : BitVec 14)
  | jal (imm : BitVec 22)
  | jr (ra : Nat) (imm : BitVec 14)
  | ret
  | trap
  deriving DecidableEq, Repr

/-- The instruction of a word; none for a reserved opcode. -/
def WOp.decode (w : W32) : Option WOp :=
  let op := bitsOf w 31 26
  let a := bitsOf w 25 22
  let b := bitsOf w 21 18
  let c := bitsOf w 17 14
  let i : BitVec 14 := w.extractLsb' 0 14
  let u : BitVec 22 := w.extractLsb' 0 22
  if op < 0x0E then some (.alu op a b c)
  else if 0x10 ≤ op ∧ op ≤ 0x15 then some (.imm op a b i)
  else if op = 0x16 then some (.lui a u)
  else if op = 0x18 then some (.ld a b i)
  else if op = 0x19 then some (.st a b i)
  else if op = 0x1A then some (.ldx a b i)
  else if op = 0x1B then some (.stx a b i)
  else if 0x20 ≤ op ∧ op ≤ 0x24 then some (.br op a b i)
  else if op = 0x28 then some (.jal u)
  else if op = 0x29 then some (.jr b i)
  else if op = 0x2A then some .ret
  else if op = 0x3F then some .trap
  else none

/-- The result of a two-operand operation (R269). -/
def weldAlu (op : Nat) (a b : W32) : W32 :=
  let sh := b.toNat % 32
  match op with
  | 0x00 => a + b
  | 0x01 => a - b
  | 0x02 => a &&& b
  | 0x03 => a ||| b
  | 0x04 => a ^^^ b
  | 0x05 => a <<< sh
  | 0x06 => a >>> sh
  | 0x07 => a.sshiftRight sh
  | 0x08 => a * b
  | 0x09 => BitVec.ofNat 32 (a.toNat * b.toNat / 2 ^ 32)
  | 0x0A => if a.slt b then 1 else 0
  | 0x0B => if a.ult b then 1 else 0
  | 0x0C => if a.slt b then a else b
  | _ => if a.slt b then b else a

/-- The result of an operation with an immediate: signed for ADDI, zero-extended for ANDI, ORI and XORI, bits 4:0 for the shifts
(R268, R269). -/
def weldImm (op : Nat) (a : W32) (i : BitVec 14) : W32 :=
  match op with
  | 0x10 => a + i.signExtend 32
  | 0x11 => a &&& i.zeroExtend 32
  | 0x12 => a ||| i.zeroExtend 32
  | 0x13 => a ^^^ i.zeroExtend 32
  | 0x14 => a <<< (i.toNat % 32)
  | _ => a >>> (i.toNat % 32)

/-- Whether a branch is taken (R269). -/
def weldTaken (op : Nat) (a b : W32) : Bool :=
  match op with
  | 0x20 => a == b
  | 0x21 => a != b
  | 0x22 => a.slt b
  | 0x23 => !a.slt b
  | _ => a.ult b

/-- Register `r`; w0 reads zero (R266). -/
def Weld.reg (w : Weld) (r : Nat) : W32 := if r = 0 then 0 else AMap.get 0 r w.w
/-- A register written. -/
def Weld.setReg (w : Weld) (r : Nat) (v : W32) : Weld := if r = 0 then w else { w with w := AMap.put 0 r v w.w }

/-- What an instruction does: it goes on, stores into the I/O space, returns, or traps with a cause (R270). -/
inductive WRes where
  | go (w : Weld)
  | store (w : Weld) (off : Nat) (v : W32)
  | ret
  | trap (cause : Nat)

/-- One instruction; `io` reads the I/O space, none outside it (R267 to R270). -/
def Weld.run1 (w : Weld) (io : Nat → Option W32) (op : WOp) : WRes :=
  let next : Weld := { w with pc := w.pc + 1, count := w.count + 1 }
  match op with
  | .alu o rd ra rb => .go (next.setReg rd (weldAlu o (w.reg ra) (w.reg rb)))
  | .imm o rd ra i => .go (next.setReg rd (weldImm o (w.reg ra) i))
  | .lui rd i => .go (next.setReg rd (i.zeroExtend 32 <<< 10))
  | .ld rd ra i =>
    let a := (w.reg ra + i.signExtend 32).toNat
    if a % 4 = 0 ∧ a < 4096 then .go (next.setReg rd (AMap.get 0 (a / 4) w.data)) else .trap 3
  | .st rd ra i =>
    let a := (w.reg ra + i.signExtend 32).toNat
    if a % 4 = 0 ∧ a < 4096 then .go { next with data := AMap.put 0 (a / 4) (w.reg rd) w.data } else .trap 3
  | .ldx rd ra i =>
    let a := (w.reg ra + i.signExtend 32).toNat
    if a % 4 ≠ 0 then .trap 4
    else match io a with
      | some v => .go (next.setReg rd v)
      | none => .trap 4
  | .stx rd ra i =>
    let a := (w.reg ra + i.signExtend 32).toNat
    if a % 4 ≠ 0 ∨ (io a).isNone then .trap 4 else .store next a (w.reg rd)
  | .br o ra rb off => .go (if weldTaken o (w.reg ra) (w.reg rb) then { next with pc := w.pc + 1 + off.extractLsb' 0 12 } else next)
  | .jal i => .go ({ next with pc := i.extractLsb' 0 12 }.setReg 15 ((w.pc + 1).zeroExtend 32))
  | .jr ra i => .go { next with pc := (w.reg ra + i.signExtend 32).extractLsb' 0 12 }
  | .ret => .ret
  | .trap => .trap 1

/-! ## Traps -/

/-- A trap recorded: cause and PC in WLD_STATUS, counted (R270). -/
def State.weldTrapped (s : State) (k cause : Nat) (pc : BitVec 12) : State :=
  let s1 := (s.setFld .wldStatus k 0 7 4 cause).setFld .wldStatus k 0 19 8 pc.toNat
  s1.bump .wldCnt k 2 1

/-- The instruction budget of a sequencer (R271). -/
def weldBudget (k : Nat) : Nat := if k < 400 ∨ (448 ≤ k ∧ k < 496) then 2048 else 2 ^ 24

/-! ## The I/O space of a link engine -/

/-- The word of the I/O space of the running invocation of link engine `n` at an offset; none outside it (R372). What
a word that only writes reads as is a free value (log entry 72: DESIGN CHOICE). -/
def State.linkIo (s : State) (n : Nat) (a : Nat) : Option W32 :=
  match (s.link n).inv with
  | none => none
  | some i =>
    let v := s.coll i.slot i.ch
    let g := s.collCfg n i.ch
    let sl := g.slice v.elems i.ring
    let w := fun (k : Nat) => some (BitVec.ofNat 32 k)
    if a < 0x100 then w (s.mem.num (s.collAddr n i.ch + a) 4)
    else if a = 0x100 then w i.ch
    else if a = 0x104 then w v.tag
    else if a = 0x108 then w (v.addr % 2 ^ 32)
    else if a = 0x10C then w (v.addr / 2 ^ 32)
    else if a = 0x110 then w v.elems
    else if a = 0x114 then w i.ring
    else if a = 0x118 then w sl.1
    else if a = 0x11C then w sl.2
    else if a = 0x120 ∨ a = 0x124 ∨ a = 0x128 then some (Config.freeValue 32 s.free)
    else if a = 0x12C then w i.completed
    else if a = 0x130 then w (bit i.abandoned)
    else none

/-! ## One command -/

/-- A Weld instruction of an invocation ends it by a trap. -/
def State.weldTrapAt (s : State) (k cause : Nat) : State :=
  let s1 := s.weldTrapped k cause (s.weld k).pc
  if 400 ≤ k ∧ k < 448 then s1.collFails (k - 400) else s1.setFld .wldStatus k 0 0 0 0

/-- Whether a store of a link engine's program issues a command with a reserved OP, which traps (R372). -/
def State.linkStoreTraps (s : State) (n a : Nat) : Bool :=
  match (s.link n).inv with
  | none => false
  | some i => a == 0x128 && (bitsOf i.r120 3 0 == 0 || decide (6 < bitsOf i.r120 3 0))

/-- A store of a link engine's program into its I/O space: the command words, and the issue of a command (R372). A store to a word that only
reads changes nothing (log entry 72: DESIGN CHOICE). -/
def State.linkStore (s : State) (n a : Nat) (v : W32) : State :=
  match (s.link n).inv with
  | none => s
  | some i =>
    if a = 0x120 then s.setLink n { s.link n with inv := some { i with r120 := v } }
    else if a = 0x124 then s.setLink n { s.link n with inv := some { i with r124 := v } }
    else if a = 0x128 then
      if i.abandoned then s
      else
        let c : StageCmd := { op := bitsOf i.r120 3 0, dim := bitsOf i.r120 4 4, stage := bitsOf i.r120 15 8, chunk := i.r124.toNat }
        s.setLink n { s.link n with inv := some { i with queue := i.queue ++ [c] } }
    else s

/-- An instruction of the running invocation of a sequencer (R267, R269, R270). Without an invocation, or with the budget used up, nothing
runs. -/
def weldDo (k : Nat) (op : WOp) (s : State) : State :=
  let w := s.weld k
  if !natBit (s.reg .wldStatus k 0).toNat 0 ∨ weldBudget k ≤ w.count then s
  else
    let s1 := (s.bump .wldCnt k 1 1).draw
    match w.run1 (if 400 ≤ k ∧ k < 448 then s.linkIo (k - 400) else fun _ => none) op with
    | .go w1 => s1.setWeld k w1
    | .store w1 a v =>
      if 400 ≤ k ∧ k < 448 then
        (if s.linkStoreTraps (k - 400) a then s1.weldTrapAt k 4 else (s1.setWeld k w1).linkStore (k - 400) a v)
      else s1.setWeld k w1
    | .trap c => s1.weldTrapAt k c
    | .ret =>
      if 400 ≤ k ∧ k < 448 then
        (if w.reg 1 ≠ 0 then s1.collFails (k - 400)
        else match (s1.link (k - 400)).inv with
          | none => s1
          | some i =>
            let s2 := (s1.setLink (k - 400) { s1.link (k - 400) with inv := some { i with ended := true } }).setFld .wldStatus k 0 0 0 0
            s2.collEnds (k - 400))
      else s1.setFld .wldStatus k 0 0 0 0

/-- A command that runs one instruction. -/
def weldCmd (w : WeldId) (op : WOp) (s : State) : Host.Outcome State Fault Refusal := .next (weldDo w.key op s)

/-- ADD: rd ← ra + rb. -/
def execWeldAdd (a : WeldA) (s : State) : Host.Outcome State Fault Refusal := weldCmd a.w (.alu 0x00 a.rd.val a.ra.val a.rb.val) s
/-- SUB: rd ← ra − rb. -/
def execWeldSub (a : WeldA) (s : State) : Host.Outcome State Fault Refusal := weldCmd a.w (.alu 0x01 a.rd.val a.ra.val a.rb.val) s
/-- AND. -/
def execWeldAnd (a : WeldA) (s : State) : Host.Outcome State Fault Refusal := weldCmd a.w (.alu 0x02 a.rd.val a.ra.val a.rb.val) s
/-- OR. -/
def execWeldOr (a : WeldA) (s : State) : Host.Outcome State Fault Refusal := weldCmd a.w (.alu 0x03 a.rd.val a.ra.val a.rb.val) s
/-- XOR. -/
def execWeldXor (a : WeldA) (s : State) : Host.Outcome State Fault Refusal := weldCmd a.w (.alu 0x04 a.rd.val a.ra.val a.rb.val) s
/-- SHL: shift by rb[4:0]. -/
def execWeldShl (a : WeldA) (s : State) : Host.Outcome State Fault Refusal := weldCmd a.w (.alu 0x05 a.rd.val a.ra.val a.rb.val) s
/-- SHR: logical shift by rb[4:0]. -/
def execWeldShr (a : WeldA) (s : State) : Host.Outcome State Fault Refusal := weldCmd a.w (.alu 0x06 a.rd.val a.ra.val a.rb.val) s
/-- SAR: arithmetic shift by rb[4:0]. -/
def execWeldSar (a : WeldA) (s : State) : Host.Outcome State Fault Refusal := weldCmd a.w (.alu 0x07 a.rd.val a.ra.val a.rb.val) s
/-- MUL: low 32 bits of ra × rb. -/
def execWeldMul (a : WeldA) (s : State) : Host.Outcome State Fault Refusal := weldCmd a.w (.alu 0x08 a.rd.val a.ra.val a.rb.val) s
/-- MULHU: high 32 bits of the unsigned product. -/
def execWeldMulhu (a : WeldA) (s : State) : Host.Outcome State Fault Refusal := weldCmd a.w (.alu 0x09 a.rd.val a.ra.val a.rb.val) s
/-- SLT: signed comparison. -/
def execWeldSlt (a : WeldA) (s : State) : Host.Outcome State Fault Refusal := weldCmd a.w (.alu 0x0A a.rd.val a.ra.val a.rb.val) s
/-- SLTU: unsigned comparison. -/
def execWeldSltu (a : WeldA) (s : State) : Host.Outcome State Fault Refusal := weldCmd a.w (.alu 0x0B a.rd.val a.ra.val a.rb.val) s
/-- MIN: signed minimum. -/
def execWeldMin (a : WeldA) (s : State) : Host.Outcome State Fault Refusal := weldCmd a.w (.alu 0x0C a.rd.val a.ra.val a.rb.val) s
/-- MAX: signed maximum. -/
def execWeldMax (a : WeldA) (s : State) : Host.Outcome State Fault Refusal := weldCmd a.w (.alu 0x0D a.rd.val a.ra.val a.rb.val) s
/-- ADDI: rd ← ra + imm. -/
def execWeldAddi (a : WeldI) (s : State) : Host.Outcome State Fault Refusal := weldCmd a.w (.imm 0x10 a.rd.val a.ra.val a.imm) s
/-- ANDI. -/
def execWeldAndi (a : WeldI) (s : State) : Host.Outcome State Fault Refusal := weldCmd a.w (.imm 0x11 a.rd.val a.ra.val a.imm) s
/-- ORI. -/
def execWeldOri (a : WeldI) (s : State) : Host.Outcome State Fault Refusal := weldCmd a.w (.imm 0x12 a.rd.val a.ra.val a.imm) s
/-- XORI. -/
def execWeldXori (a : WeldI) (s : State) : Host.Outcome State Fault Refusal := weldCmd a.w (.imm 0x13 a.rd.val a.ra.val a.imm) s
/-- SHLI: shift by imm[4:0]. -/
def execWeldShli (a : WeldI) (s : State) : Host.Outcome State Fault Refusal := weldCmd a.w (.imm 0x14 a.rd.val a.ra.val a.imm) s
/-- SHRI: logical shift by imm[4:0]. -/
def execWeldShri (a : WeldI) (s : State) : Host.Outcome State Fault Refusal := weldCmd a.w (.imm 0x15 a.rd.val a.ra.val a.imm) s
/-- LUI: rd ← imm22 << 10. -/
def execWeldLui (a : WeldU) (s : State) : Host.Outcome State Fault Refusal := weldCmd a.w (.lui a.rd.val a.imm) s
/-- LD: rd ← data word at ra + imm. -/
def execWeldLd (a : WeldI) (s : State) : Host.Outcome State Fault Refusal := weldCmd a.w (.ld a.rd.val a.ra.val a.imm) s
/-- ST: data word at ra + imm ← rd. -/
def execWeldSt (a : WeldI) (s : State) : Host.Outcome State Fault Refusal := weldCmd a.w (.st a.rd.val a.ra.val a.imm) s
/-- LDX: rd ← I/O word at ra + imm. -/
def execWeldLdx (a : WeldI) (s : State) : Host.Outcome State Fault Refusal := weldCmd a.w (.ldx a.rd.val a.ra.val a.imm) s
/-- STX: I/O word at ra + imm ← rd. -/
def execWeldStx (a : WeldI) (s : State) : Host.Outcome State Fault Refusal := weldCmd a.w (.stx a.rd.val a.ra.val a.imm) s
/-- BEQ. -/
def execWeldBeq (a : WeldB) (s : State) : Host.Outcome State Fault Refusal := weldCmd a.w (.br 0x20 a.ra.val a.rb.val a.off) s
/-- BNE. -/
def execWeldBne (a : WeldB) (s : State) : Host.Outcome State Fault Refusal := weldCmd a.w (.br 0x21 a.ra.val a.rb.val a.off) s
/-- BLT: signed. -/
def execWeldBlt (a : WeldB) (s : State) : Host.Outcome State Fault Refusal := weldCmd a.w (.br 0x22 a.ra.val a.rb.val a.off) s
/-- BGE: signed. -/
def execWeldBge (a : WeldB) (s : State) : Host.Outcome State Fault Refusal := weldCmd a.w (.br 0x23 a.ra.val a.rb.val a.off) s
/-- BLTU: unsigned. -/
def execWeldBltu (a : WeldB) (s : State) : Host.Outcome State Fault Refusal := weldCmd a.w (.br 0x24 a.ra.val a.rb.val a.off) s
/-- JAL: w15 ← PC + 1; PC ← imm22[11:0]. -/
def execWeldJal (a : WeldU) (s : State) : Host.Outcome State Fault Refusal := weldCmd a.w (.jal a.imm) s
/-- JR: PC ← (ra + imm)[11:0]. -/
def execWeldJr (a : WeldI) (s : State) : Host.Outcome State Fault Refusal := weldCmd a.w (.jr a.ra.val a.imm) s
/-- RET: end of the invocation, with its result in w1. -/
def execWeldRet (a : WeldA) (s : State) : Host.Outcome State Fault Refusal := weldCmd a.w .ret s
/-- TRAP: trap with cause 1. -/
def execWeldTrap (a : WeldA) (s : State) : Host.Outcome State Fault Refusal := weldCmd a.w .trap s

/-- WELD_BUDGET_TRAP: an invocation that has reached its budget without RET traps with cause 5 (R271). -/
def execWeldBudgetTrap (w : WeldId) (s : State) : Host.Outcome State Fault Refusal :=
  let k := w.key
  if natBit (s.reg .wldStatus k 0).toNat 0 ∧ weldBudget k ≤ (s.weld k).count then .next (s.weldTrapAt k 5) else .next s

/-- The running invocation of a sequencer goes on by the instruction at its PC in program memory: a reserved opcode traps with cause 2, and an
instruction beyond the budget with cause 5 (R267, R270, R271). -/
def State.weldIssue (s : State) (k : Nat) : State :=
  let w := s.weld k
  if !natBit (s.reg .wldStatus k 0).toNat 0 then s
  else if weldBudget k ≤ w.count then s.weldTrapAt k 5
  else match WOp.decode (AMap.get 0 w.pc.toNat w.prog) with
    | none => (s.bump .wldCnt k 1 1).weldTrapAt k 2
    | some op => weldDo k op s

/-! ## Policy programs -/

/-- How a policy program ends: with w1 and the I/O words it leaves, or with a trap. -/
inductive WEnd where
  | ret (w : Weld) (io : AMap W32)
  | trap (w : Weld) (cause : Nat)

/-- A loaded program run from where a sequencer stands, with the instructions left in its budget. `inSpace` says which offsets lie in the I/O
space, `mask` which bits of a word a store changes. -/
def Weld.runProgram (inSpace : Nat → Bool) (mask : Nat → W32) : Nat → Weld → AMap W32 → WEnd
  | 0, w, _ => .trap w 5
  | f + 1, w, io =>
    match WOp.decode (AMap.get 0 w.pc.toNat w.prog) with
    | none => .trap w 2
    | some op =>
      match w.run1 (fun a => if inSpace a then some (AMap.get 0 (a / 4) io) else none) op with
      | .go w1 => Weld.runProgram inSpace mask f w1 io
      | .store w1 a v =>
        let m := mask a
        Weld.runProgram inSpace mask f w1 (AMap.put 0 (a / 4) ((AMap.get 0 (a / 4) io &&& ~~~m) ||| (v &&& m)) io)
      | .ret => .ret w io
      | .trap c => .trap w c

/-- An invocation of a policy program at an entry point (R267, R271): the result with the I/O words, none after a trap or while RUN is
clear. -/
def State.policyRun (s : State) (k entry : Nat) (inSpace : Nat → Bool) (mask : Nat → W32) (io : AMap W32) :
    State × Option (W32 × AMap W32) :=
  if !natBit (s.reg .wldCtrl k 0).toNat 0 then (s, none)
  else
    let w : Weld := { s.weld k with w := [], pc := BitVec.ofNat 12 entry, count := 0 }
    let s1 := s.bump .wldCnt k 0 1
    match Weld.runProgram inSpace mask (weldBudget k) w io with
    | .ret w1 io1 => ((s1.setWeld k w1).bump .wldCnt k 1 (w1.count + 1), some (w1.reg 1, io1))
    | .trap w1 c => (((s1.setWeld k w1).bump .wldCnt k 1 w1.count).weldTrapped k c w1.pc, none)

/-! ## Loading -/

/-- The partition of a sequencer's host unit. -/
def weldPart (k : Nat) : Nat :=
  if k < 400 then k / 100 else if k < 448 then (k - 400) / 12 else if k < 496 then (k - 448) / 12 else (k - 496) % 4

/-- Whether a write to a sequencer's program is let through (R272): FW clear, RUN clear, the lock open; and whether it is ignored with
LOAD_IGNORED because a context is bound to the partition. -/
def State.weldOpen (s : State) (k : Nat) : Bool :=
  s.blkOpen .wld k && !natBit (s.reg .wldStatus k 0).toNat 2 && !natBit (s.reg .wldCtrl k 0).toNat 0 && s.lockOpen .wld k

/-- The sequencers that a LOAD fills: with BCAST set on a Mordant sequencer, every Mordant sequencer of the partition (R272). -/
def State.loadTargets (s : State) (k : Nat) : List Nat :=
  if k < 400 ∧ natBit (s.reg .wldCtrl k 0).toNat 2 then (List.range 100).map (fun i => 100 * (k / 100) + i) else [k]

/-- A write that would change the program of a sequencer of no firmware, while a context is bound to its partition (R272). -/
def State.loadBarred (s : State) (k : Nat) : Bool :=
  s.blkOpen .wld k && !natBit (s.reg .wldStatus k 0).toNat 2 && (s.partSlot (weldPart k)).isSome

/-- A LOAD_IGNORED recorded. -/
def State.loadIgnored (s : State) (k : Nat) : State := s.orReg .wldStatus k 0 8

/-- A write of WLD_CTRL.LOAD = 1 starts the copy of a 16 KiB image (R272). -/
def State.startLoad (s : State) (k : Nat) : State :=
  if s.loadBarred k then s.loadIgnored k
  else if !s.weldOpen k then s
  else s.orReg .wldStatus k 0 2

/-- WLD_LOAD (R272). -/
def execWldLoad (w : WeldId) (s : State) : Host.Outcome State Fault Refusal := .next (s.startLoad w.key)

/-- WLD_LOAD_DONE: the image at WLD_LOAD_LO and HI stands in program memory, that of every Mordant sequencer of the partition with BCAST set
(R272). -/
def execWldLoadDone (w : WeldId) (s : State) : Host.Outcome State Fault Refusal :=
  let k := w.key
  if !natBit (s.reg .wldStatus k 0).toNat 1 then .next s
  else
    let a := s.fld .wldLoadHi k 0 15 0 * 2 ^ 32 + s.fld .wldLoadLo k 0 31 6 * 64
    let prog := (List.range 4096).foldr (fun i m =>
      let v : W32 := BitVec.ofNat 32 (s.devNum (a + 4 * i) 4)
      if v = 0 then m else (i, v) :: m) []
    let s1 := (s.loadTargets k).foldl (fun s t => s.setWeld t { s.weld t with prog := prog }) s
    .next (s1.setFld .wldStatus k 0 1 1 0)

/-- A write of WLD_CTRL.CLR_DATA = 1: the data memory is zeroed. Ignored while FW is set (R272). -/
def State.clearData (s : State) (k : Nat) : State :=
  if !s.blkOpen .wld k ∨ natBit (s.reg .wldStatus k 0).toNat 2 then s else s.setWeld k { s.weld k with data := [] }

/-- CLR_DATA (R272). -/
def execClrData (w : WeldId) (s : State) : Host.Outcome State Fault Refusal := .next (s.clearData w.key)

/-- A write of WLD_PROG_DATA: the selected program word is stored, and WLD_PROG_IDX advances (R272). -/
def State.wrProgData (s : State) (k : Nat) (v : W32) : State :=
  if s.loadBarred k then s.loadIgnored k
  else if !s.weldOpen k then s
  else
    let i := s.fld .wldProgIdx k 0 11 0
    let m := s.weld k
    (s.setWeld k { m with prog := AMap.put 0 i v m.prog }).setReg .wldProgIdx k 0 (BitVec.ofNat 32 ((i + 1) % 4096))

/-- WLD_PROG_DATA_WRITE (R272). -/
def execWldProgDataWrite (w : WeldId) (v : W32) (s : State) : Host.Outcome State Fault Refusal := .next (s.wrProgData w.key v)

end Sys2Proof.Machine
end

