-- ==== Sys2Proof/Machine/Verdict.lean ====
section
/-! DEFINITION. Verdicts: the deltas and digests that a verdict core receives, the fallback policy, the comparison of digests and its
arbitration (R144 to R154, R384, R395, R396, R400, R401). -/

namespace Sys2Proof.Machine

/-! ## What the verdict core receives -/

/-- The verdict core of a layer: index LAYER_ID modulo the enabled logical cores of the context (R146). -/
def State.verdictCore (s : State) (x layer : Nat) : Option Nat :=
  let l := s.ctxCores x
  l[layer % l.length]?

/-- FIN_DELTAS_RECEIVE: the oldest deltas on their way from a core reach the verdict core (R146). -/
def execFinDeltasReceive (k : CoreId) (s : State) : Host.Outcome State Fault Refusal :=
  let n := k.key
  let c := s.core n
  match s.coreSlot n, c.fins with
  | some x, m :: t => .next ((s.setCore n { c with fins := t }).setCtx x { s.ctx x with fins := (s.ctx x).fins ++ [m] })
  | _, _ => .next s

/-- Whether a further digest of an identity is one too many (R396): a second from one core, or a third outside arbitration. -/
def Ctx.digestRefused (c : Ctx) (d : DigestEntry) : Bool :=
  let same := c.digs.filter (fun e => e.run == d.run && e.tile == d.tile)
  let listed := c.arb.state == 1 && c.arb.run == d.run && c.arb.tiles.contains d.tile
  same.any (fun e => e.core == d.core) || decide ((if listed then 3 else 2) ≤ same.length)

/-- SHADOW_DIGEST_RECEIVE: the oldest entry of a core's digest log reaches the layer's verdict core (R395, R396). -/
def execShadowDigestReceive (k : CoreId) (s : State) : Host.Outcome State Fault Refusal :=
  let n := k.key
  let c := s.core n
  match s.coreSlot n, c.digests with
  | some x, d :: t =>
    let s1 := s.setCore n { c with digests := t }
    if (s.ctx x).digestRefused d then .next (s1.endBy x stIllegal 0x0F)
    else .next (s1.setCtx x { s1.ctx x with digs := (s1.ctx x).digs ++ [d] })
  | _, _ => .next s

/-! ## The policy -/

/-- The outcome that the device acts on where a policy answers RERUN(l) for a layer record (R149). -/
def rerunAs (b : List Byte) (l : Nat) : Verdict :=
  let level := leField b 2 2 % 4
  if level = 2 ∨ l ≤ level ∨ 2 < l ∨ natBit (leField b 4 4) 0 then .exhausted else .rerun l

/-- The default policy on a layer record and the summed deltas (R152). -/
def policyDefault (b : List Byte) (d : Delta) : Verdict :=
  let level := leField b 2 2 % 4
  let nan := leField b 20 21 < d.nan
  let sat := leField b 16 17 * d.elems < d.sat * 2 ^ 20
  let ovf := leField b 18 19 * d.elems < d.ovf * 2 ^ 20
  let bad := leField b 22 23 < d.failed
  let tol := f32v (BitVec.ofNat 32 (if level = 0 then leField b 24 27 else leField b 28 31))
  let far := FV.lt (FV.mul (FV.ofInt 16 0) (FV.mul tol tol)) (f32v d.errMax)
  if !(nan ∨ sat ∨ ovf ∨ bad) then .pass
  else if level = 2 then .exhausted
  else if natBit (leField b 4 4) 0 then (if nan then .exhausted else .accept)
  else if nan ∨ far ∨ level = 1 then rerunAs b 2
  else rerunAs b (level + 1)

/-- The default end-of-step routine (R152): the layer record after it. -/
def endOfStepDefault (b : List Byte) : List Byte :=
  let level := leField b 2 2 % 4
  let base := leField b 3 3 % 4
  let clean := min (leField b 6 7 + 1) 65535
  let put := fun (base clean flags : Nat) =>
    b.take 3 ++ [BitVec.ofNat 8 (leField b 3 3 / 4 * 4 + base), BitVec.ofNat 8 flags] ++ (b.drop 5).take 1 ++ leBytes 2 clean ++ b.drop 8
  let flags := leField b 4 4
  if natBit flags 2 then put level 0 (flags / 4 * 4 + 2 + flags % 2)
  else if 0 < base ∧ leField b 14 15 ≤ clean then put (base - 1) 0 flags
  else put base clean flags

/-- The I/O space of a Mordant policy (R154). -/
def morSpace (a : Nat) : Bool := decide (a < 0x68) || (decide (0x80 ≤ a) && decide (a < 0x140))

/-- The bits that a policy's write to a word changes (R153, R154). -/
def morMask (a : Nat) : W32 :=
  if a = 0 then 0x03000000#32 else if a = 4 then 0xFFFF0002#32 else if a = 0xC then 0xFFFF0000#32
  else if 0x10 ≤ a ∧ a < 0x20 then 0xFFFFFFFF#32 else 0

/-- Words placed in an I/O space from a byte offset. -/
def putWords (io : AMap W32) (off : Nat) (l : List W32) : AMap W32 :=
  l.zipIdx.foldl (fun m e => AMap.put 0 (off / 4 + e.2) e.1 m) io

/-- The I/O words of a policy invocation: layer record, summed deltas, run, tensor records (R154). -/
def State.morIo (s : State) (n : Nat) (b : List Byte) (d : Delta) (info : Nat) : AMap W32 :=
  let w : Nat → W32 := BitVec.ofNat 32
  let rec_ := fun (i : Nat) => bytesWords (s.devRead (s.recAddr n i) 64)
  let io := putWords [] 0 (bytesWords b)
  let io1 := putWords io 0x40 [w d.sat, w d.nan, w d.ovf, w d.ufl, w d.elems, w d.checked, w d.failed, d.errMax, d.amax, w info]
  putWords (putWords (putWords io1 0x80 (rec_ (leField b 8 9))) 0xC0 (rec_ (leField b 10 11))) 0x100 (rec_ (leField b 12 13))

/-- The layer record of an I/O space. -/
def ioRecord (io : AMap W32) : List Byte := wordsBytes ((List.range 16).map (fun i => AMap.get 0 i io))

/-- The outcome that the result word of a loaded policy names, `none` where another bit is set (R154). -/
def loadedOutcome (b : List Byte) (r : W32) : Option Verdict :=
  let v := r.toNat
  let l := v / 4 % 4
  if v % 4 = 2 then (if v < 16 then some (rerunAs b l) else none)
  else if 4 ≤ v then none
  else if v = 0 then some .pass else if v = 1 then some .accept else some .exhausted

/-- A policy fault recorded by the core. -/
def State.policyFault (s : State) (n : Nat) : State := s.orReg .morErr n 0 2

/-- The decision of core `n` on a layer record, and the record as the policy leaves it: the loaded policy where MOR_CTRL.POLICY is set, the
default policy otherwise or where the loaded one is abandoned (R152 to R154). -/
def State.polDecide (s : State) (n : Nat) (b : List Byte) (d : Delta) (redye : Bool) (mb : Nat) : State × Verdict × List Byte :=
  if !natBit (s.reg .morCtrl n 0).toNat 0 then (s, policyDefault b d, b)
  else
    let r := s.policyRun n (bit redye) morSpace morMask (s.morIo n b d (mb + 256 * bit redye))
    match r.2 with
    | none => (r.1.policyFault n, policyDefault b d, b)
    | some (w1, io) => match loadedOutcome b w1 with
      | none => (r.1.policyFault n, policyDefault b d, b)
      | some v => (r.1, v, ioRecord io)

/-- The end-of-step routine of core `n` on a layer record (R152 to R154). -/
def State.polDecideEnd (s : State) (n : Nat) (b : List Byte) : State × List Byte :=
  if !natBit (s.reg .morCtrl n 0).toNat 0 then (s, endOfStepDefault b)
  else
    let r := s.policyRun n 2 morSpace morMask (s.morIo n b {} 0)
    match r.2 with
    | none => (r.1.policyFault n, endOfStepDefault b)
    | some (_, io) => (r.1, ioRecord io)

/-! ## Acting on a verdict -/

/-- MOR_LAST_VERDICT and the verdict counters of a verdict core. -/
def State.noteVerdict (s : State) (n layer level : Nat) (v : Verdict) (redye : Bool) : State :=
  let o := match v with
    | .pass => (0, level)
    | .accept => (1, level)
    | .rerun l => (2, l)
    | .exhausted => (3, level)
  let s1 := s.setReg .morLastVerdict n 0 (BitVec.ofNat 32 (layer + level * 2 ^ 16 + o.1 * 2 ^ 18 + o.2 * 2 ^ 20 + bit redye * 2 ^ 22))
  let s2 := s1.bump .morCnt n 5 1
  if o.1 = 2 then s2.bump .morCnt n 6 1 else if o.1 = 3 then s2.bump .morCnt n 7 1 else s2

/-- A layer record after RERUN(l): LEVEL ← l, RERUN_USED and FELL_BACK set, FALLBACKS + 1 saturating (R148). -/
def rerunRecord (b : List Byte) (l : Nat) : List Byte :=
  let f := leField b 4 4
  b.take 2 ++ [BitVec.ofNat 8 (leField b 2 2 / 4 * 4 + l)] ++ (b.drop 3).take 1 ++ [BitVec.ofNat 8 f ||| 5#8] ++ (b.drop 5).take 27 ++
  leBytes 4 (min (leField b 32 35 + 1) (2 ^ 32 - 1)) ++ b.drop 36

/-- The verdict of a run reaches every core that holds its epoch, and its counter-file entries are freed (R137, R146). -/
def State.broadcast (s : State) (x : Nat) (run : Run) (v : Verdict) : State :=
  s.mapCores (s.ctxCores x) (fun c =>
    let tags := (c.epochs.filter (fun e => e.run == run)).map (fun e => some e.tag)
    { c with epochs := c.epochs.map (fun e => if e.run = run then { e with verdict := some v } else e)
             cf := c.cf.map (fun e => if tags.contains e.tag then { e with judged := true } else e) })

/-- The verdict core's deltas and digests of a run, used up. -/
def State.dropRun (s : State) (x : Nat) (run : Run) : State :=
  let c := s.ctx x
  s.setCtx x { c with fins := c.fins.filter (fun f => f.run != run), digs := c.digs.filter (fun d => d.run != run) }

/-- A record that a verdict needs and cannot read: outside the context's memory, or poisoned (R300, MOR_ERR.REC_UE). -/
def State.recBad (s : State) (x n i : Nat) : Option State :=
  let a := s.recAddr n i
  if !s.ctxRange x a 64 then some (s.endBy x stPage 0x04)
  else if s.devPo a 64 then some ((recPoison s n).endBy x stPoison 0x04)
  else none

/-- A layer record with a LEVEL. -/
def withLevel (b : List Byte) (l : Nat) : List Byte := b.take 2 ++ [BitVec.ofNat 8 (leField b 2 2 / 4 * 4 + l % 4)] ++ b.drop 3

/-- The decision of a context's core on a run: in reference mode that of a run at level 2, whatever LEVEL the record holds, which it keeps (R204,
R205). -/
def State.ctxDecide (s : State) (x n : Nat) (b : List Byte) (d : Delta) (mb : Nat) : State × Verdict × List Byte :=
  if (s.ctx x).refmode then
    let r := s.polDecide n (withLevel b 2) d false mb
    (r.1, r.2.1, withLevel r.2.2 (leField b 2 2))
  else s.polDecide n b d false mb

/-- The level at which a run goes (R144, R204). -/
def State.runLevel (s : State) (x : Nat) (b : List Byte) : Nat := if (s.ctx x).refmode then 2 else leField b 2 2 % 4

/-- The policy's verdict on a run, at its verdict core `n`, with layer record `i` (R148 to R154). -/
def State.judge (s : State) (x n i : Nat) (run : Run) (d : Delta) : State :=
  match s.recBad x n i with
  | some s1 => s1
  | none =>
    let a := s.recAddr n i
    let b := s.devRead a 64
    let r := s.ctxDecide x n b d run.mb.toNat
    let v := r.2.1
    let s1 := (r.1.noteVerdict n run.layer.toNat (s.runLevel x b) v false).dropRun x run
    match v with
    | .pass | .accept => (s1.rawWrite a r.2.2).broadcast x run v
    | .rerun l => ((s1.rawWrite a (rerunRecord r.2.2 l)).abortRun x run).fallback x run l
    | .exhausted => (s1.rawWrite a r.2.2).endBy x stExhausted 0x04

/-! ## Comparison and arbitration -/

/-- What the digests of one identity show. -/
inductive Cmp where
  | agree | differ | skipped
  deriving DecidableEq, Repr

/-- The digests of a tile of a run. -/
def digsOf (l : List DigestEntry) (run : Run) (t : Nat) : List DigestEntry := l.filter (fun d => d.run == run && d.tile == t)

/-- Two digests of an identity compared: a missing one is a disagreement, and a poisoned one takes part in no comparison (R384, R396). -/
def cmpPair : List DigestEntry → Cmp
  | [] => .skipped
  | [a] => if a.po then .skipped else .differ
  | a :: b :: _ => if a.po || b.po then .skipped else if a.digest = b.digest then .agree else .differ

/-- The tiles of a run that have a digest, in ascending order. -/
def tilesOf (l : List DigestEntry) (run : Run) : List Nat :=
  (((l.filter (fun d => d.run == run)).map (fun d => d.tile)).eraseDups).mergeSort (fun a b => decide (a ≤ b))

/-- The physical core of a context core index. -/
def State.ctxPhys (s : State) (x i : Nat) : Nat := (s.ctxCores x).getD i 0

/-- A core becomes SUSPECT, and FAILED when that is the third time since power-on reset (R388, R391); logged with scope 5. -/
def State.suspectCore (s : State) (n : Nat) : State :=
  let old := s.coreState n
  if old = .suspect ∨ old = .failed ∨ old = .fused then s
  else
    let c := s.core n
    let s1 := (s.setCore n { c with suspect := c.suspect + 1, owed := 3 }).setCoreState n (if 3 ≤ c.suspect + 1 then .failed else .suspect)
    s1.errLog { scope := 5, source := 0x0E, part := n / 100, inst := n % 100 }

/-- The arbitration record written (R400). -/
def State.writeArb (s : State) (x : Nat) : State :=
  let r := (s.ctx x).arb
  let base := storeAddr (lowPart (s.ctx x).parts) (s.fld .errCtxArb 0 x 27 8 * 256)
  s.rawWrite base (leBytes 1 r.state ++ [0] ++ leBytes 2 r.run.layer.toNat ++ leBytes 1 r.run.mb.toNat ++ leBytes 1 r.tiles.length ++
    leBytes 2 r.x ++ leBytes 2 r.y ++ leBytes 2 r.z ++ List.replicate 52 0 ++ r.tiles.flatMap (fun t => leBytes 4 (t % 2 ^ 24)))

/-- STATE ← n of the arbitration record. -/
def State.arbState (s : State) (x n : Nat) : State :=
  let c := s.ctx x
  if c.arb.state = 0 then s
  else
    let base := storeAddr (lowPart c.parts) (s.fld .errCtxArb 0 x 27 8 * 256)
    (s.setCtx x { c with arb := if n = 0 then {} else { c.arb with state := n } }).rawWrite base (leBytes 1 n)

/-- ADDR of a DISAGREE or VOTE record (R406). -/
def arbAddr (run : Run) (t : Nat) : Nat := run.layer.toNat + run.mb.toNat * 2 ^ 16 + t % 2 ^ 24 * 2 ^ 24

/-- Tiles of a run poisoned where their cores have written them (R400). -/
def State.poisonTiles (s : State) (x : Nat) (run : Run) (tiles : List Nat) : State :=
  s.mapCores (s.ctxCores x) (fun c =>
    let us := (c.selTiles.filter (fun e => e.1 == run && tiles.contains e.2.1)).flatMap (fun e => e.2.2)
    { c with loc := us.foldl (fun m r => (List.range ((r.1 + r.2 - 1) / 64 + 1 - r.1 / 64)).foldl (fun m i => m.setPo (r.1 / 64 + i) true) m) c.loc })

/-- A disagreement found with no arbitration open: arbitrated, or the context ends (R400). The primary is the core of lower index (log entry
79). -/
def State.arbitrate (s : State) (x : Nat) (run : Run) (tiles : List Nat) : State :=
  let c := s.ctx x
  let ds := digsOf c.digs run (tiles.headD 0)
  let c0 := (ds.map (fun d => d.core)).foldl min ((ds.headD { run := run, tile := 0, digest := 0 }).core)
  let c1 := match ds with
    | _ :: _ :: _ => (ds.map (fun d => d.core)).foldl max 0
    | _ => (Config.freeValue 16 s.free).toNat
  let s0 := match ds with
    | _ :: _ :: _ => s
    | _ => s.draw
  let z := (List.range (s.ctxCores x).length).find? (fun i => i != c0 && i != c1 && s.coreState (s.ctxPhys x i) != .suspect &&
    s.coreState (s.ctxPhys x i) != .failed)
  match z with
  | none => s0.endBy x stSdc 0x0F
  | some z =>
    if 32 < tiles.length ∨ (s.ctxCores x).length < 3 then s0.endBy x stSdc 0x0F
    else
      let first := tiles.map (fun t =>
        let v := fun (i : Nat) => (((digsOf c.digs run t).find? (fun d => d.core == i)).map (fun d => d.digest)).getD 0
        (t, v c0, v c1))
      let s1 := ((s0.poisonTiles x run tiles).abortRun x run).dropRun x run
      let arb : Arb := { state := 1, run := run, x := c0, y := c1, z := z, tiles := tiles, first := first }
      (s1.setCtx x { s1.ctx x with arb := arb, arbs := min 255 ((s1.ctx x).arbs + 1) }).writeArb x

/-- A tile's rerun as R401 judges it: 0 X = Y, 1 Y = Z alone, 2 X = Z alone, 3 all differ; a missing digest equals no other. The majority
value stands beside it. -/
def voteOf (dx dy dz : Option W64) : Nat × Option W64 :=
  if dx.isSome && dx == dy then (0, dx)
  else if dx.isSome && dx == dz then (2, dx)
  else if dy.isSome && dy == dz then (1, dy)
  else (3, none)

/-- A vote on one tile: cores whose rerun or first digest differs from the majority value become SUSPECT; logged with scope 7 (R401). -/
def State.vote (s : State) (x : Nat) (r : Arb) (e : Nat × W64 × W64) : State × Nat :=
  let ds := digsOf (s.ctx x).digs r.run e.1
  let v := fun (i : Nat) => (ds.find? (fun d => d.core == i)).map (fun d => d.digest)
  let q := voteOf (v r.x) (v r.y) (v r.z)
  let code := if q.1 = 3 then 3 else if q.1 = 1 then 1 else 0
  let s1 := s.errLog { scope := 7, source := 0x0F, slot := some x, addr := arbAddr r.run e.1
                       detail := r.x + r.y * 2 ^ 16 + r.z * 2 ^ 32 + code * 2 ^ 48 }
  match q.2 with
  | none => (s1, 3)
  | some m =>
    let bad := (if v r.x != some m || e.2.1 != m then [r.x] else []) ++ (if v r.y != some m || e.2.2 != m then [r.y] else []) ++
      (if v r.z != some m then [r.z] else [])
    (bad.foldl (fun s i => s.suspectCore (s.ctxPhys x i)) (s1.bump .errCnt 0 4 1), q.1)

/-- The comparison of every identity of a run but the listed ones, before its verdict (R396): the tiles that disagree, with the comparisons
counted and the disagreements logged. -/
def State.compare (s : State) (x : Nat) (run : Run) (skip : List Nat) : State × List Nat :=
  let l := (s.ctx x).digs
  let res := ((tilesOf l run).filter (fun t => !skip.contains t)).map (fun t => (t, cmpPair (digsOf l run t)))
  let bad := (res.filter (fun e => e.2 == .differ)).map (fun e => e.1)
  let pairs := (res.filter (fun e => e.2 != .skipped && decide (2 ≤ (digsOf l run e.1).length))).length
  let s1 := (s.bump .errCnt 0 2 pairs).bump .errCnt 0 3 bad.length
  (bad.foldl (fun s t => s.errLog { scope := 6, source := 0x0F, slot := some x, addr := arbAddr run t }) s1, bad)

/-- Whether every participant's deltas of a run are held: those of every core with an open epoch of it (R146, log entry 78: DEDUCED). -/
def State.runReady (s : State) (x : Nat) (run : Run) : Bool :=
  let c := s.ctx x
  c.fins.any (fun f => f.run == run) &&
    (s.ctxCores x).all (fun n => (s.core n).epochs.all (fun e => e.run != run || e.verdict.isSome ||
      c.fins.any (fun f => f.run == run && f.ctxcore == s.ctxCore x n)))

/-- Whether a run comes before another at its verdict core (R147). -/
def Run.before (a b : Run) : Bool :=
  decide (a.mb.toNat < b.mb.toNat) || (a.mb == b.mb && decide (a.layer.toNat < b.layer.toNat))

/-- VERDICT: the verdict core compares the digests of a run whose deltas it holds, arbitrates, or runs the policy and acts on its outcome
(R146 to R149, R396, R400, R401). -/
def execVerdict (slot : Fin 4) (run : Run) (s : State) : Host.Outcome State Fault Refusal :=
  let x := slot.val
  let c := s.ctx x
  match c.fins.find? (fun f => f.run == run), s.verdictCore x run.layer.toNat with
  | some f, some n =>
    let earlier := c.fins.any (fun g => Run.before g.run run && s.verdictCore x g.run.layer.toNat == some n && s.runReady x g.run)
    if c.st ≠ .running ∨ !s.runReady x run ∨ earlier then .next s
    else
      let d := (c.fins.filter (fun g => g.run == run)).foldl (fun a g => ((a.add g.w).add g.x).add g.y) {}
      let inArb := c.arb.state ≠ 0 ∧ c.arb.run = run
      let q := s.compare x run (if inArb then c.arb.tiles else [])
      if q.2 ≠ [] then
        .next (if c.arb.state = 0 then q.1.arbitrate x run q.2 else q.1.endBy x stSdc 0x0F)
      else if !inArb then .next (q.1.judge x n f.lrec run d)
      else if c.arb.state = 1 then
        let vs := (c.arb.first.filter (fun e => (digsOf c.digs run e.1).all (fun g => !g.po))).foldl (fun (a : State × List Nat) e =>
          let v := a.1.vote x c.arb e
          (v.1, a.2 ++ [v.2])) (q.1, [])
        if vs.2.contains 3 then .next (vs.1.endBy x stTriple 0x0F)
        else if vs.2.contains 1 then
          let s1 := (vs.1.abortRun x run).dropRun x run
          .next (s1.arbState x 2)
        else .next ((vs.1.arbState x 0).judge x n f.lrec run d)
      else
        let bad := c.arb.tiles.any (fun t => cmpPair (digsOf c.digs run t) != .agree && cmpPair (digsOf c.digs run t) != .skipped)
        .next (if bad then q.1.endBy x stSdc 0x0F else (q.1.arbState x 0).judge x n f.lrec run d)
  | _, _ => .next s

/-! ## Re-dye verdicts -/

/-- Counts added to a tensor record's totals, saturating; maxima taken (R137, R139, R146). A record that no T-slot instruction has named is
named here, and its totals begin at zero with its first counts (R138, log entry 34: DEDUCED). -/
def State.addTotals (s0 : State) (x n trec : Nat) (d : Delta) : State :=
  let s := s0.nameRec x n trec
  let a := s.recAddr n trec
  let v := fun (o k : Nat) => s.devNum (a + o) k
  let sat := fun (o add : Nat) => leBytes 4 (min (v o 4 + add) (2 ^ 32 - 1))
  let sat2 := fun (o add : Nat) => leBytes 2 (min (v o 2 + add) 65535)
  let top := fun (o : Nat) (w : W32) => leBytes 4 (max (v o 4) w.toNat)
  s.rawWrite (a + 20) (top 20 d.amax ++ sat 24 d.sat ++ sat 28 d.nan ++ sat 32 d.ovf ++ sat 36 d.ufl ++ sat 40 d.elems ++
    sat2 44 d.checked ++ sat2 46 d.failed ++ top 48 d.errMax)

/-- REDYE_VERDICT: the verdict core of a layer judges the re-dye deltas of its weight tensor, those counted outside any epoch, before the
first run of the step; RERUN(l) sets LEVEL, and counts as the layer's fallback (R150). In reference mode none is taken (R204). -/
def execRedyeVerdict (slot : Fin 4) (lrec : BitVec 16) (s : State) : Host.Outcome State Fault Refusal :=
  let x := slot.val
  let c := s.ctx x
  let i := lrec.toNat
  match (s.ctxCores x).head? with
  | none => .next s
  | some n0 =>
    if c.st ≠ .running ∨ c.refmode = true ∨ c.forward = true ∨ c.redyed.contains i then .next s
    else match s.recBad x n0 i with
      | some s1 => .next s1
      | none =>
        let b0 := s.devRead (s.recAddr n0 i) 64
        let layer := leField b0 0 1
        let n := (s.verdictCore x layer).getD n0
        let w := leField b0 8 9
        let mine := fun (e : CfEntry) => e.trec == w && e.tag.isNone
        let d := ((s.ctxCores x).flatMap (fun n => ((s.core n).cf.filter mine).map (fun e => e.d))).foldl Delta.add {}
        match s.recBad x n w with
        | some s1 => .next s1
        | none =>
          let s1 := ((s.nameLayer x i).addTotals x n w d).mapCores (s.ctxCores x) (fun c => { c with cf := c.cf.filter (fun e => !mine e) })
          let s2 := s1.setCtx x { s1.ctx x with redyed := c.redyed ++ [i] }
          let a := s2.recAddr n i
          let b := s2.devRead a 64
          let r := s2.polDecide n b d true 0
          let s3 := r.1.noteVerdict n layer (leField b 2 2 % 4) r.2.1 true
          match r.2.1 with
          | .pass | .accept => .next (s3.rawWrite a r.2.2)
          | .rerun l => .next ((s3.rawWrite a (rerunRecord r.2.2 l)).fallbackRedye x layer l)
          | .exhausted => .next ((s3.rawWrite a r.2.2).endBy x stExhausted 0x04)

end Sys2Proof.Machine
end

