-- ==== Sys2Proof/Machine/Spares.lean ====
section
/-! DEFINITION. Spare cores: substitution at a step boundary, rotation, withdrawal and return (R5, R329, R388, R390, R391, R425, R426). -/

namespace Sys2Proof.Machine

/-- The lowest physical core of a partition in a core state. Which of several SPARE cores is taken is open (log entry 81: DESIGN CHOICE). -/
def State.coreIn (s : State) (p : Nat) (t : CoreState) : Option Nat :=
  ((List.range 100).find? (fun i => s.coreState (100 * p + i) == t)).map (fun i => 100 * p + i)

/-- The replacement cause SPARES of a partition (R425). -/
def State.sparesCheck (s : State) (p : Nat) : State :=
  let is := fun (t : CoreState) => (s.coreIn p t).isSome
  if is .failed && !is .spare && !is .testing && !is .suspect then s.replaceCause 1 (2 ^ p) else s

/-- The logical list of a partition replaced. -/
def State.setLogical (s : State) (p : Nat) (l : List Nat) : State := s.setPart p { s.part p with logical := l }

/-- Core `new` takes the logical index of core `old`, with instruction memory, the Mordant Weld memories and the place in the program
(R390, log entry 81: DESIGN CHOICE); `old` takes state `t`, unless it is SUSPECT or FAILED already. -/
def State.substitute (s : State) (p old new : Nat) (t : CoreState) : State :=
  let q := s.part p
  let a := s.core old
  let s1 := s.setLogical p (q.logical.map (fun i => if i = old % 100 then new % 100 else i))
  let s2 := s1.setCore new { s1.core new with imem := a.imem, badWords := [], pc := a.pc, nextTag := a.nextTag, wait := a.wait, halted := a.halted }
  let s3 := s2.setWeld new { s2.weld new with prog := (s2.weld old).prog, data := (s2.weld old).data }
  let s4 := s3.setCoreState new .inService
  let keep := s4.coreState old = .suspect ∨ s4.coreState old = .failed
  let s5 := if keep then s4 else s4.setCoreState old t
  s5.setCore old { s5.core old with wait := .none, halted := false, testReq := false }

/-- A core leaves its logical index with no SPARE free: the core of the highest index takes it, and the enabled logical cores fall by one
(R329, R426); the admitted programs are rechecked (R325). -/
def State.withdrawCore (s : State) (p old : Nat) (t : CoreState) : State :=
  let q := s.part p
  let i := q.logical.idxOf (old % 100)
  let last := q.logical.getLastD 0
  let l := (q.logical.map (fun k => if k = old % 100 then last else k)).dropLast
  let l := if i + 1 = q.logical.length then q.logical.dropLast else l
  let s1 := s.setPart p { q with logical := l, withdrawn := if s.coreState old = .failed then q.withdrawn else q.withdrawn ++ [old % 100] }
  let keep := s1.coreState old = .suspect ∨ s1.coreState old = .failed
  let s2 := if keep then s1 else s1.setCoreState old t
  (s2.setCore old { s2.core old with wait := .none, halted := false, testReq := false }).recheck

/-- A core of a partition leaves service: a SPARE takes its index, else it is withdrawn. -/
def State.retireCore (s : State) (p old : Nat) (t : CoreState) : State :=
  match s.coreIn p .spare with
  | some new => s.substitute p old new t
  | none => s.withdrawCore p old t

/-- Withdrawn cores whose test has ended take a logical index again, the next above those in service (R329). -/
def State.returnCores (s : State) (p : Nat) : State :=
  let back := (s.part p).withdrawn.filter (fun i => s.coreState (100 * p + i) == .spare)
  back.foldl (fun s i =>
    let q := s.part p
    (s.setPart p { q with logical := q.logical ++ [i], withdrawn := q.withdrawn.erase i }).setCoreState (100 * p + i) .inService) s

/-- The IN_SERVICE core of a partition whose last passed test is the oldest, the lowest logical index among equals. -/
def State.oldestTested (s : State) (p : Nat) : Option Nat :=
  let l := ((s.part p).logical.map (fun i => 100 * p + i)).filter (fun n => s.coreState n == .inService)
  match l with
  | [] => none
  | n :: t => some (t.foldl (fun a b => if (s.core b).lastTest.toNat < (s.core a).lastTest.toNat then b else a) n)

/-- What a step boundary does to the cores of one partition: cores withdrawn return, SUSPECT and FAILED cores leave, requested tests are
served, and with ROTATE_EN a SPARE takes the index of the core tested longest ago (R329, R390, R391, R426). -/
def State.boundaryPart (s : State) (p : Nat) : State :=
  let s1 := s.returnCores p
  let mine := fun (s : State) (f : Nat → Bool) => ((s.part p).logical.map (fun i => 100 * p + i)).filter f
  let bad := mine s1 (fun n => s1.coreState n == .suspect || s1.coreState n == .failed)
  let s2 := bad.foldl (fun s n => s.retireCore p n .suspect) s1
  let req := mine s2 (fun n => (s2.core n).testReq)
  let s3 := req.foldl (fun s n => s.retireCore p n .testing) s2
  if !natBit (s3.reg .errCtrl 0 0).toNat 1 ∨ req ≠ [] then s3
  else match s3.coreIn p .spare, s3.oldestTested p with
    | some new, some old => s3.substitute p old new .testing
    | _, _ => s3

/-! ## Calibrations -/

/-- The resource that a calibration takes: class, partition, INDEX (R318). -/
def Calib.res : Calibration → Nat × Nat × Nat
  | .link n => (0x05, n.val / 12, n.val % 12)
  | .stack st _ _ => (0x03, st.val / 5, st.val % 5)

/-- The length of a calibration. -/
def Calib.length : Calibration → Nat
  | .link _ => Config.calibrationNs 0
  | .stack _ _ _ => Config.calibrationNs 1

/-- Whether no admitted record of a resource is active in the next `len` nanoseconds (R329). -/
def State.resourceFree (s : State) (cls p idx len : Nat) : Bool :=
  let now := s.tim.now.toNat
  !(s.others none).any (fun r => r.cls == cls && r.p == p && r.idx % 64 == idx && decide (r.lo < now + max 1 len ∧ now < r.hi))

/-- Whether a calibration is served now: no program of the context that owns the resource is running, or the resource is free for its length
(R329). -/
def State.calibReady (s : State) (c : Calibration) : Bool :=
  let r := Calib.res c
  (match s.partSlot r.2.1 with
    | none => true
    | some x => (s.ctx x).running.isNone) || s.resourceFree r.1 r.2.1 r.2.2 (Calib.length c)

/-- A calibration run: on a stack, bad lanes are steered onto spares and pseudo-channels beyond repair retired, with a replacement cause; the recheck
of R325 follows (R329, R340, R425). -/
def State.calibrate (s : State) (c : Calibration) : State :=
  match c with
  | .link _ => s.recheck
  | .stack st lanes pcs =>
    let t := st.val
    let s1 := if lanes = [] then s else
      (s.memErr t 6 0 0).setFld .memRepair t 0 31 24 (min 255 (s.fld .memRepair t 0 31 24 + lanes.length))
    let fresh := pcs.filter (fun i => decide (i < 64) && !natBit (s.reg64 .memRetiredLo .memRetiredHi t 0) i)
    if fresh = [] then s1.recheck
    else
      let s2 := fresh.foldl (fun s i =>
        if i < 32 then s.orReg .memRetiredLo t 0 (BitVec.ofNat 32 (2 ^ i)) else s.orReg .memRetiredHi t 0 (BitVec.ofNat 32 (2 ^ (i - 32)))) s1
      ((s2.memErr t 7 0 0).replaceCause 3 0).recheck

/-- The held calibrations whose interval has come run (R329). -/
def State.serveCalib (s : State) : State :=
  s.calib.foldl (fun s c => if s.calibReady c then { s with calib := s.calib.erase c }.calibrate c else s) s

/-- The calibrations held for the resources of a context run at its step boundary, each resource withdrawn for the length (R325, R329). -/
def State.boundaryCalib (s : State) (x : Nat) : State :=
  (s.calib.filter (fun c => natBit (s.ctx x).parts.toNat (Calib.res c).2.1)).foldl (fun s c =>
    let r := Calib.res c
    { s with calib := s.calib.erase c, away := s.away ++ [(r.1, r.2.1, r.2.2, s.tim.now.toNat + Calib.length c)] }.calibrate c) s

/-- The step boundary of a context, partition by partition. -/
def State.boundaryCores (s : State) (x : Nat) : State :=
  ((partsOf (s.ctx x).parts).foldl (fun s p => (s.boundaryPart p).sparesCheck p) s).boundaryCalib x

/-- Service outside a program: what a boundary does but rotation, for a partition whose context runs no program (R329). -/
def State.idleCores (s : State) (p : Nat) : State :=
  let s1 := s.returnCores p
  let bad := ((s1.part p).logical.map (fun i => 100 * p + i)).filter (fun n =>
    s1.coreState n == .suspect || s1.coreState n == .failed || (s1.core n).testReq)
  (bad.foldl (fun s n => s.retireCore p n .testing) s1).sparesCheck p

end Sys2Proof.Machine
end

