-- ==== Sys2Proof/Machine/Commit.lean ====
section
/-! DEFINITION. Epoch commit and abort, the step commit, the commit comparison and the end of a drain (R101, R131, R149, R151, R252, R255
to R260, R383, R390, R402, R409 to R412). -/

namespace Sys2Proof.Machine

/-! ## Epochs -/

/-- EPOCH_ISSUE_LIMIT: 4 ms after the CCOMMIT of its oldest open epoch a core stops issue until that epoch resolves (R255). -/
def execEpochIssueLimit (k : CoreId) (s : State) : Host.Outcome State Fault Refusal :=
  let c := s.core k.key
  match c.epochs.head? with
  | none => .next s
  | some e => match e.ccommit with
    | none => .next s
    | some t =>
      let idle := match c.wait with
        | .none | .stall | .write _ => true
        | _ => false
      .next (if idle = true ∧ t.toNat + 4000000 ≤ s.tim.now.toNat then s.setCore k.key { c with wait := .limit } else s)

/-- What is left of a core when its oldest epoch has committed: its tag is free, its Vat undo records and snapshot are gone, and bank sets,
samples and walks that it opened belong to no epoch (R102, R256). -/
def Core.closeEpoch (c : Core) (e : Epoch) (rest : List Epoch) : Core :=
  let un : Option Nat → Option Nat := fun t => if t = some e.tag then none else t
  { c with
    epochs := rest
    wait := if c.wait = .limit then .none else c.wait
    rel := c.rel ++ e.held.map (fun h => { h with tag := e.tag })
    woaSets := c.woaSets.map (fun b => { b with epoch := un b.epoch })
    madSets := c.madSets.map (fun b => { b with epoch := un b.epoch })
    samples := c.samples.map (fun b => { b with tag := un b.tag })
    walks := c.walks.map (fun w => { w with tag := un w.tag })
    xfers := c.xfers.map (fun t => { t with tag := un t.tag })
    cf := c.cf.filter (fun q => q.tag != some e.tag)
    selTiles := c.selTiles.filter (fun d => d.1 != e.run) }

/-- Counter-file entries of a core added to the committed totals (R137). -/
def State.addEntries (s : State) (x n : Nat) (l : List CfEntry) : State := l.foldl (fun s q => s.addTotals x n q.trec q.d) s

/-- EPOCH_COMMIT: the oldest epoch of a core, closed by its CCOMMIT and passed by its verdict, commits: its deltas join the totals, and what
it held is released (R256). -/
def execEpochCommit (k : CoreId) (s : State) : Host.Outcome State Fault Refusal :=
  let n := k.key
  let c := s.core n
  match c.epochs with
  | [] => .next s
  | e :: rest =>
    if e.ccommit.isNone ∨ ¬(e.verdict = some .pass ∨ e.verdict = some .accept) then .next s
    else
      let mine := c.cf.filter (fun q => q.tag == some e.tag)
      let s1 := match s.coreSlot n with
        | some x => s.addEntries x n mine
        | none => s
      .next ((s1.setCore n (c.closeEpoch e rest)).release n)

/-- EPOCH_ABORT: the epoch of a run and every younger one abort on every core of the context (R258). -/
def execEpochAbort (slot : Fin 4) (run : Run) (s : State) : Host.Outcome State Fault Refusal := .next (s.abortRun slot.val run)

/-! ## Commit checksums -/

/-- The shards of a slot's checksum set, as the address of each (R409): CK regions are whole shards. -/
def shardAddrs (l : List (Nat × Nat × Bool)) : List Nat :=
  (l.filter (fun r => r.2.2)).flatMap (fun r => (List.range (r.2.1 / 2 ^ 26)).map (fun i => r.1 + i * 2 ^ 26))

/-- The checksum of each shard: the running value where every unit has been written once by the count, else the CRC-64 of its contents
(R409, R410). -/
def State.shardSums (s : State) (x : Nat) : List W64 :=
  (shardAddrs (s.ctx x).regions).zipIdx.map (fun a =>
    let e := AMap.get (0, 0) a.2 (s.ctx x).shards
    if e.2 = 2 ^ 20 then e.1 else crc64 (s.mem.read a.1 (2 ^ 26)))

/-- The shards that are read at order 6, since their units have not been written once each by the count (R410). -/
def State.shardReads (s : State) (x : Nat) : List (Nat × Nat) :=
  ((shardAddrs (s.ctx x).regions).zipIdx.filter (fun a => (AMap.get (0, 0) a.2 (s.ctx x).shards).2 != 2 ^ 20)).map (fun a => (a.1, 2 ^ 26))

/-- The members of a slot's check group, without this device (R411). -/
def State.ckGroup (s : State) (x : Nat) : List Nat :=
  let a := storeAddr (lowPart (s.ctx x).parts) (s.fld .sepCkGroup 0 x 27 8 * 256)
  ((List.range (s.fld .sepCkGroup 0 x 4 0)).map (fun i => s.mem.num (a + 2 * i) 2 % 4096)).filter (fun d => d != s.devId)

/-- SEP_CK_STATUS: DONE, AGREED, REPORTED; SHARD is kept as given. -/
def State.ckStatus (s : State) (x : Nat) (done agreed : Bool) (reported shard : Nat) (nocmp : Bool) : State :=
  s.setReg .sepCkStatus 0 x (BitVec.ofNat 32 (bit done + 2 * bit agreed + reported % 32 * 4 + shard % 65536 * 128 + bit nocmp * 2 ^ 23))

/-- A message of 8-byte words to the members of a check group, in 4 KiB pieces (R411). -/
def State.sendGroup (s : State) (x tc : Nat) (dst : List Nat) (words : List W64) : State :=
  let b := words.flatMap (fun w => leBytes 8 w.toNat)
  dst.foldl (fun s d => (chunks 4096 b.length b).foldl (fun s c =>
    let r := s.chanHead x 0 d 5 0
    r.2.sendRouted (lowPart (s.ctx x).parts) tc (some x) .sepia r.1 c []) s) s

/-- The comparison of a slot's last commit ended in agreement (R411, R412). -/
def State.cmpAgree (s : State) (x reported shard : Nat) : State :=
  let s0 := s.setCtx x { s.ctx x with cmpDone := true, agreed := true, cmpVote := none, digests := [], shardLists := [] }
  let s1 := match s0.sep.save with
    | some v => if v.slot = x ∧ v.stepno = (s0.ctx x).stepno then s0.setSep { s0.sep with save := some { v with agreed := some reported } } else s0
    | none => s0
  (s1.ckStatus x true true reported shard false).openGate x

/-- The digests held for the slot's last commit. -/
def Ctx.reports (c : Ctx) : List (Nat × W64) :=
  match c.ownDigest with
  | none => []
  | some (n, _) => (c.digests.filter (fun d => d.2.1 == n)).map (fun d => (d.1, d.2.2))

/-- The comparison among the members that reported: agreement where every digest equals this device's, else the shard lists are exchanged
(R411). -/
def State.cmpDecide (s : State) (x : Nat) : State :=
  let c := s.ctx x
  match c.ownDigest with
  | none => s
  | some (_, own) =>
    let l := c.reports
    let s1 := s.bump .sepCnt 0 6 l.length
    if l.all (fun d => d.2 == own) then s1.cmpAgree x (l.length + 1) 0
    else
      let s2 := (s1.bump .sepCnt 0 7 1).setCtx x { s1.ctx x with cmpVote := some (l.map (fun d => d.1)) }
      s2.sendGroup x 2 (l.map (fun d => d.1)) (s2.shardSums x)

/-- The commit digest computed and sent at order 6 (R409 to R411): one over a shard that reads poisoned takes part in no comparison (R384, log entry
138). -/
def State.commitDigest (s : State) (x : Nat) : State :=
  let c := s.ctx x
  if !c.ckptOk then (s.setCtx x { c with cmpDone := true, agreed := true, ownDigest := none }).ckStatus x false false 0 0 true
  else
    let rs := s.shardReads x
    let s := (s.demandReads rs).chargeRuns .sepia rs
    let sums := s.shardSums x
    let own := crc64 (sums.flatMap (fun w => leBytes 8 w.toNat))
    let s1 := (s.setReg .sepCkDigestLo 0 x (own.extractLsb' 0 32)).setReg .sepCkDigestHi 0 x (own.extractLsb' 32 32)
    let s2 := s1.setCtx x { s1.ctx x with shards := [], ownDigest := some (c.stepno, own), cmpStart := s.tim.now, cmpVote := none, shardLists := [] }
    if !s2.takesCmp x || rs.any (fun r => s2.mem.readPo r.1 r.2) then (s2.setCtx x { s2.ctx x with cmpDone := true, agreed := true }).ckStatus x false false 0 0 true
    else
      let c2 := s2.ctx x
      let s3 := (s2.setCtx x { c2 with cmpDone := false, agreed := false, digests := c2.digests.filter (fun d => d.2.1 == c.stepno) }).ckStatus x false false 0 0 false
      let s4 := s3.sendGroup x 3 (s3.ckGroup x) [c.stepno.zeroExtend 64, own]
      if (s4.ckGroup x).all (fun m => ((s4.ctx x).reports).any (fun d => d.1 == m)) then s4.cmpDecide x else s4

/-- COMMIT_DIGEST_RECEIVE: a check-group member's (STEPNO, commit digest); with the last one the comparison is decided (R411). -/
def execCommitDigestReceive (slot : Fin 4) (member : BitVec 12) (step : W32) (digest : W64) (s : State) : Host.Outcome State Fault Refusal :=
  let x := slot.val
  let c := s.ctx x
  let m := member.toNat
  if c.st = .free ∨ !(s.ckGroup x).contains m ∨ c.cmpVote.isSome then .next s
  else
    let s1 := s.setCtx x { c with digests := c.digests.filter (fun d => !(d.1 == m && d.2.1 == step)) ++ [(m, step, digest)] }
    let all := (s.ckGroup x).all (fun g => ((s1.ctx x).reports).any (fun d => d.1 == g))
    .next (if !c.cmpDone ∧ all then s1.cmpDecide x else s1)

/-- CHECK_GROUP_TIMEOUT: 1 ms after order 6 the members still silent are excluded, and the rest decide (R411). -/
def execCheckGroupTimeout (slot : Fin 4) (s : State) : Host.Outcome State Fault Refusal :=
  let x := slot.val
  let c := s.ctx x
  if c.cmpDone ∨ c.cmpVote.isSome ∨ s.tim.now.toNat < c.cmpStart.toNat + 1000000 then .next s
  else
    let silent := (s.ckGroup x).filter (fun g => !(c.reports).any (fun d => d.1 == g))
    .next ((silent.foldl (fun s g => s.errLog { scope := 0, source := 0x0F, slot := some x, inst := g }) s).cmpDecide x)

/-- The value that a strict majority of reports holds (R402). -/
def strictMajority (l : List W64) : Option W64 := l.find? (fun v => decide (l.length < 2 * (l.filter (fun w => w == v)).length))

/-- The first place at which two lists differ. -/
def firstDiffer : List W64 → List W64 → Nat → Option Nat
  | a :: s, b :: t, i => if a = b then firstDiffer s t (i + 1) else some i
  | [], [], _ => none
  | _, _, i => some i

/-- SHARD_LIST_RECEIVE: a member's shard list after a difference; with the last one the replicas decide by strict majority of the commit
digests (R402, R411). -/
def execShardListReceive (slot : Fin 4) (member : BitVec 12) (digests : List W64) (s : State) : Host.Outcome State Fault Refusal :=
  let x := slot.val
  let c := s.ctx x
  match c.cmpVote, c.ownDigest with
  | some ms, some (_, own) =>
    if !ms.contains member.toNat ∨ c.shardLists.any (fun l => l.1 == member.toNat) then .next s
    else
      let lists := c.shardLists ++ [(member.toNat, digests)]
      let s1 := s.setCtx x { c with shardLists := lists }
      if lists.length < ms.length then .next s1
      else
        let mine := s1.shardSums x
        let shard := (lists.filterMap (fun l => firstDiffer mine l.2 0)).foldl min 65535
        let s2 := s1.errLog { scope := 6, source := 0x0F, slot := some x, detail := shard }
        let values := own :: (c.reports).map (fun d => d.2)
        let s3 := s2.setCtx x { s2.ctx x with cmpDone := true, cmpVote := none }
        match strictMajority values with
        | none => .next ((s3.ckStatus x true false values.length shard false).endBy x stTriple 0x0F)
        | some v =>
          if v = own then .next (s3.cmpAgree x values.length shard)
          else .next ((s3.ckStatus x true false values.length shard false).endBy x stSdc 0x0F)
  | _, _ => .next s

/-! ## Step commit -/

/-- The layer records that a context has named, in ascending LAYER_ID (R260). -/
def State.layersInOrder (s : State) (x n : Nat) : List Nat :=
  ((s.ctx x).layers).mergeSort (fun a b => decide (s.devNum (s.recAddr n a) 2 ≤ s.devNum (s.recAddr n b) 2))

/-- The layer record as the step leaves it: RERUN_USED and FELL_BACK clear, LEVEL at BASE_LEVEL (R149); with every layer fallen back, RECAL
set (R151). -/
def closeLayer (b : List Byte) (recal : Bool) : List Byte :=
  let f := leField b 4 4
  let f1 := f - f % 2 - natBits f 2 2 * 4
  let f2 := if recal ∧ !natBit f1 1 then f1 + 2 else f1
  b.take 2 ++ [BitVec.ofNat 8 (leField b 2 2 / 4 * 4 + leField b 3 3 % 4)] ++ (b.drop 3).take 1 ++ [BitVec.ofNat 8 f2] ++ b.drop 5

/-- Orders 3 and 4 for one layer: the end-of-step policy of its verdict core, then the record's update. -/
def State.endLayer (s : State) (x i : Nat) (allFell : Bool) : State :=
  let n0 := s.ctxPhys x 0
  let layer := s.devNum (s.recAddr n0 i) 2
  let n := (s.verdictCore x layer).getD n0
  let a := s.recAddr n i
  let b := s.devRead a 64
  let r := s.polDecideEnd n b
  r.1.rawWrite a (closeLayer r.2 (allFell && natBit (leField b 4 4) 2))

/-- The scale history of a tensor record advanced by the step's amax (R131). -/
def State.pushHist (s : State) (n i : Nat) : State :=
  let a := s.recAddr n i
  let v := match f32v (BitVec.ofNat 32 (s.devNum (a + 20) 4)) with
    | .fin _ m => if m.num = 0 then 0 else (max 0 (min 254 (m.floorLog2 + 127))).toNat
    | _ => 254
  let h := s.devNum (a + 3) 1
  let s1 := s.rawWrite (a + 4 + h % 16) (leBytes 1 v)
  s1.rawWrite (a + 3) (leBytes 1 ((h + 1) % 16 + min 15 (h / 16 + 1) * 16))

/-- The dirty Vat tiles of a core sent in ascending index, and the Vat emptied (R101). -/
def State.sendDirty (s : State) (x n : Nat) : State :=
  let c := s.core n
  let d := (c.vat.filter (fun e => e.2.dirty)).map (fun e => e.1)
  let ws := d.flatMap (fun v => c.vatWrites v x (s.ctx x).stepno)
  let s1 := s.setCore n { c with vwq := c.vwq ++ ws, vat := [] }
  (s1.bump .vatCnt n 0 ws.length).bump .vatCnt n 2 d.length

/-- Whether a core has ended its step and waits for the step commit (R260). -/
def Core.atStep (c : Core) : Bool :=
  match c.wait with
  | .step | .stepLat _ => true
  | _ => false

/-- The core goes on after the step commit; a LAT of the same wide instruction still holds it (R260, R312). -/
def Core.afterStep (c : Core) : Core :=
  { c with wait := match c.wait with
    | .step => .none
    | .stepLat t => .lat t
    | w => w }

/-- Whether every core of a context stands at its CCOMMIT.STEP with nothing held, released or being written (order 1 of R260). -/
def State.stepReached (s : State) (x : Nat) : Bool :=
  (s.ctxCores x).all (fun n =>
    let c := s.core n
    c.atStep && c.epochs.isEmpty && c.rel.isEmpty && c.parts.isEmpty && c.xfers.all (fun t => t.kind != 2 && t.kind != 3))

/-- Whether a Vat-write of a context is in flight. -/
def State.vatBusy (s : State) (x : Nat) : Bool :=
  (s.ctxCores x).any (fun n => (s.core n).vwq.any (fun w => w.slot == x)) ||
    (partsOf (s.ctx x).parts).any (fun p => (s.part p).colVw.any (fun w => w.slot == x))

/-- A slot whose save starts at the next step boundary (R263, R413). -/
def State.saveDue (s : State) (x : Nat) : Bool :=
  (match (s.ctx x).save with
    | some q => !q.instr
    | none => false) ||
  ((s.ctx x).savePending && natBit (s.reg .sepDescHi 0 x).toNat 16 && (s.ctx x).ckptOk && s.sep.save.isNone)

/-- Whether a core of a context has an open bank set, so that no saveable boundary can follow while issue waits (R79, R262). -/
def State.setsOpen (s : State) (x : Nat) : Bool :=
  (s.ctxCores x).any (fun n => !(s.core n).woaSets.isEmpty || !(s.core n).madSets.isEmpty)

/-- Whether a context stands at a saveable boundary: no core has an open bank set, an open epoch, a walk, an open collector job or an
unacknowledged Vat-write (R262). -/
def State.saveable (s : State) (x : Nat) : Bool :=
  !s.setsOpen x && (s.ctxCores x).all (fun n =>
    let c := s.core n
    c.word.isEmpty && c.epochs.isEmpty && c.rel.isEmpty && c.walks.isEmpty && c.parts.isEmpty && c.vwAck == 0) &&
    !s.vatBusy x && (partsOf (s.ctx x).parts).all (fun p => !(s.part p).jobs.any (fun j => j.slot == x))

/-- Issue resumes after CCOMMIT.STEP on every core (order 7 of R260), unless a save is due and a step boundary follows the commit. -/
def State.resume (s : State) (x : Nat) : State :=
  if s.saveDue x && !s.setsOpen x then s.setCtx x { s.ctx x with boundary := true }
  else
    (s.setCtx x { s.ctx x with boundary := false }).mapCores (s.ctxCores x) Core.afterStep

/-- STEP_COMMIT: once every core has reached CCOMMIT.STEP, dirty Vat tiles are sent; when every Vat-write is applied, the commit gate, the
end-of-step policy, the records, STEPNO, the commit digest and the step boundary follow (R260). -/
def execStepCommit (slot : Fin 4) (s : State) : Host.Outcome State Fault Refusal :=
  let x := slot.val
  let c := s.ctx x
  if c.st ≠ .running ∨ c.boundary ∨ !s.stepReached x then .next s
  else if (s.ctxCores x).any (fun n => !(s.core n).vat.isEmpty) then .next ((s.ctxCores x).foldl (fun s n => s.sendDirty x n) s)
  else if s.vatBusy x then .next s
  else if c.tally ≠ 0 then .next (s.endBy x stPoison 0x07)
  else
    let n0 := s.ctxPhys x 0
    let open_ := (s.ctxCores x).flatMap (fun n => ((s.core n).cf.filter (fun e => e.tag.isNone)).map (fun e => e.trec))
    match (c.layers ++ c.trecs ++ open_).findSome? (fun i => s.recBad x n0 i) with
    | some s1 => .next s1
    | none =>
      let s1 := (s.ctxCores x).foldl (fun s n => (s.addEntries x n ((s.core n).cf.filter (fun e => e.tag.isNone))).setCore n
        { s.core n with cf := (s.core n).cf.filter (fun e => e.tag.isSome) }) s
      let fell := fun (i : Nat) => natBit (s1.devNum (s1.recAddr n0 i + 4) 1) 2
      let allFell := !c.layers.isEmpty && c.layers.all fell
      let s2 := (s1.layersInOrder x n0).foldl (fun s i => s.endLayer x i allFell) s1
      let s3 := (s2.ctx x).trecs.foldl (fun s i => s.pushHist n0 i) s2
      let c3 := s3.ctx x
      let s4 := s3.setCtx x { c3 with stepno := c3.stepno + 1, tally := 0, tActive := false, redyed := [], forward := false, replayed := false }
      let s5 := (s4.commitDigest x).boundaryCores x
      .next (s5.resume x)

/-! ## Replay -/

/-- The cores of a context that are SUSPECT. -/
def State.suspects (s : State) (x : Nat) : List Nat := (s.ctxCores x).filter (fun n => s.coreState n == .suspect)

/-- The number of cores of a partition in a core state. -/
def State.countIn (s : State) (p : Nat) (t : CoreState) : Nat :=
  ((List.range 100).filter (fun i => s.coreState (100 * p + i) == t)).length

/-- Whether a unit of a slot's pin list is poisoned (R404, log entry 92: DEDUCED). -/
def State.pinsPoisoned (s : State) (x : Nat) : Bool :=
  (List.range 16).any (fun i =>
    let e := storeAddr (lowPart (s.ctx x).parts) (s.fld .errCtxPin 0 x 27 8 * 256) + 16 * i
    s.mem.poison.any (fun u => u.2 && decide (s.mem.num e 8 < 64 * u.1 + 64 ∧ 64 * u.1 < s.mem.num e 8 + s.mem.num (e + 8) 8)))

/-- Whether a HALTED context replays its step: REPLAY set, a status that replays, no replay of the step before, and a SPARE for each
SUSPECT core (R405). -/
def State.replays (s : State) (x : Nat) : Bool :=
  let c := s.ctx x
  c.st == .halted && natBit (s.reg .errCtxCfg 0 x).toNat 4 && !c.replayed && c.replayCert.isSome &&
    (c.status == stSdc || c.status == 0x0C || (c.status == stPoison && !s.pinsPoisoned x)) &&
    (partsOf c.parts).all (fun p => decide (((s.suspects x).filter (fun n => n / 100 == p)).length ≤ s.countIn p .spare))

/-- DRAIN_COMPLETE: a draining context with no Vat-write left in flight is HALTED, and MSI-X vector 16 + p is raised for its lowest
partition (R252); of one that replays its step neither status nor cores are served until the replay is decided (R405). -/
def execDrainComplete (slot : Fin 4) (s : State) : Host.Outcome State Fault Refusal :=
  let x := slot.val
  let c := s.ctx x
  if c.st ≠ .draining ∨ s.vatBusy x then .next s
  else
    let s1 := s.setCtx x { c with st := .halted }
    if s1.replays x then .next s1.recheck
    else
      let s2 := (s1.setCtx x { s1.ctx x with replayCert := none }).event (lowPart c.parts)
      .next ((partsOf c.parts).foldl (fun s p => s.idleCores p) s2).recheck

end Sys2Proof.Machine
end

