-- ==== Sys2Proof/Machine/SaveImage.lean ====
section
/-! DEFINITION. Save images: what they hold, their bytes in the host's buffer, and how one is loaded (R262 to R265). -/

namespace Sys2Proof

/-- The bytes of a part of a save image by its number: 0 the header, then a part for each core, then one for each partition. The manual gives
what a part holds and no layout. Log entry 80. -/
opaque Config.imagePart : Machine.Image → Nat → List (BitVec 8)

end Sys2Proof

namespace Sys2Proof.Machine

/-! ## Bytes -/

/-- The lengths of the parts of an image after its header. -/
def Image.partLens (i : Image) : List Nat :=
  (List.range (i.cores.length + i.stores.length)).map (fun k => (Config.imagePart { i with lens := [] } (k + 1)).length)

/-- A part with the CRC-64 of its bytes (R264). -/
def sealPart (b : List Byte) : List Byte := b ++ leBytes 8 (crc64 b).toNat

/-- The header of an image, with its CRC. -/
def Image.header (i : Image) : List Byte := sealPart (Config.imagePart i 0)

/-- The parts of an image after its header, each with its CRC. -/
def Image.body (i : Image) : List Byte :=
  (List.range i.lens.length).flatMap (fun k => sealPart (Config.imagePart { i with lens := [] } (k + 1)))

/-! ## Writing -/

/-- The per-core part of an image (R264). -/
def State.coreImg (s : State) (n : Nat) : CoreImg :=
  let c := s.core n
  { s := c.s, p := c.p, v := c.v, t := c.t, level := c.level, pc := c.pc, imem := c.imem, loc := c.loc, vat := c.vat, cf := c.cf
    nextTag := c.nextTag, halted := c.halted, weld := (s.weld n).data }

/-- The regions of a partition store that the certificate of the program declares persistent, by offset (R264). -/
def State.storeImg (s : State) (x k p : Nat) : List (Nat × List Byte × Bool) :=
  let a := storeAddr p 0
  let d := ((s.ctx x).image.map (fun i => i.1)).getD []
  ((List.range 0x300000).filter (fun u => Config.persistent d k u)).map (fun u =>
    (u, s.mem.read (a + 64 * u) 64, s.mem.readPo (a + 64 * u) 64))

/-- The image of a context (R264). -/
def State.image (s : State) (x : Nat) (instr : Bool) : Image :=
  let c := s.ctx x
  let ps := partsOf c.parts
  let i : Image :=
    { version := Config.imageVersion, instr := instr, ctxcores := (s.ctxCores x).length, nparts := ps.length, stepno := c.stepno
      refmode := c.refmode, debug := c.debug, program := (c.image.map (fun i => i.1)).getD []
      fixedLane := (c.running.map (fun g => g.cert.fixedLane)).getD false
      cores := if instr then (s.ctxCores x).map (fun n => s.coreImg n) else []
      stores := ps.zipIdx.map (fun p => s.storeImg x p.2 p.1)
      linkWelds := ps.flatMap (fun p => (List.range 12).map (fun i => (s.weld (400 + 12 * p + i)).data))
      indWelds := ps.flatMap (fun p => (List.range 12).map (fun i => (s.weld (448 + 12 * p + i)).data)) }
  { i with lens := i.partLens }

/-- An image written into its buffer, the header last (R263). -/
def State.putImage (s : State) (buf : Nat) (i : Image) : State :=
  let s1 := (s.rawWrite (buf + i.header.length) i.body).rawWrite buf i.header
  { s1 with images := i :: s1.images, headless := s1.headless.filter (fun a => a != buf) }

/-- A save request becomes the one in progress: until its header is written, the buffer holds no valid one (R263). -/
def State.beginSave (s : State) (x : Nat) (q : SaveReq) : State :=
  let s1 := s.setCtx x { s.ctx x with save := some q }
  { s1 with headless := q.buf :: s1.headless.filter (fun a => a != q.buf) }

/-- What follows a completed save: with STOP the context is BOUND, else issue resumes; the next save request taken begins (R251, R263). -/
def State.afterSave (s : State) (x : Nat) (stop : Bool) : State :=
  let c := s.ctx x
  let s1 := if stop then
      (s.setCtx x { c with st := .bound, running := none, boundary := false, save := none, saveq := [] }).mapCores (s.ctxCores x)
        (fun k => { k with wait := .none, halted := false })
    else s.setCtx x { c with save := none, saveq := [] }
  let s2 := match c.saveq with
    | [] => s1
    | q :: t => let s3 := s1.beginSave x q; s3.setCtx x { s3.ctx x with saveq := t }
  if (s2.ctx x).boundary then s2.resume x else s2

/-- Whether the context of a save request stands at the boundary that the request names (R262, R263). -/
def State.atBoundary (s : State) (x : Nat) (q : SaveReq) : Bool :=
  (s.ctx x).restore.isNone && s.saveable x && (match (s.ctx x).st with
    | .bound => true
    | .running => q.instr || (s.ctx x).boundary
    | _ => false)

/-- SAVE_BOUNDARY_REACHED: the context of a save request stands at the boundary that the request names, and its image is written, header
last (R263, R264). -/
def execSaveBoundaryReached (slot : Fin 4) (s : State) : Host.Outcome State Fault Refusal :=
  let x := slot.val
  match (s.ctx x).save with
  | none => .next s
  | some q =>
    if !s.atBoundary x q then .next s
    else
      let s1 := s.putImage q.buf (s.image x q.instr)
      let s2 := s1.complete { q := q.q, cid := q.cid, result := 0, status := 0, reason := 0, v0 := 0, v1 := 0 }
      .next (s2.afterSave x q.stop)

/-! ## Loading -/

/-- The image that stands in a buffer with a valid header: one whose bytes, with the CRC of every part, are there unpoisoned. Bytes that are no
image which the device has written fail their CRC (log entry 80: DESIGN CHOICE). -/
def State.imageAt (s : State) (a : Nat) : Option Image :=
  if s.headless.contains a then none
  else s.images.find? (fun i =>
    let b := i.header ++ i.body
    s.devRead a b.length == b && !s.devPo a b.length)

/-- A partition store loaded from an image: its persistent regions are placed where the new certificate declares them (R265, log entry 80). -/
def State.loadStore (s : State) (x k p : Nat) (l : List (Nat × List Byte × Bool)) : State :=
  let d := ((s.ctx x).image.map (fun i => i.1)).getD []
  s.setMem (s.mem.write (l.map (fun e => { addr := storeAddr p 0 + 64 * Config.restoredAt d k e.1, data := e.2.1, po := e.2.2 })))

/-- A core loaded from the per-core part of an image (R264, R265). -/
def State.loadCore (s : State) (n : Nat) (i : CoreImg) : State :=
  let s1 := s.setCore n { s.core n with s := i.s, p := i.p, v := i.v, t := i.t, level := i.level, pc := i.pc, imem := i.imem, badWords := [], loc := i.loc
                                        vat := i.vat, cf := i.cf, nextTag := i.nextTag, bindings := [], halted := i.halted, wait := .none }
  s1.setWeld n { s1.weld n with data := i.weld }

/-- The data memories of 12 Weld sequencers of each partition loaded, from number `base` on. -/
def State.loadWelds (s : State) (ps : List Nat) (base : Nat) (l : List (AMap W32)) : State :=
  ((ps.flatMap (fun p => (List.range 12).map (fun i => base + 12 * p + i))).zip l).foldl
    (fun s w => s.setWeld w.1 { s.weld w.1 with data := w.2 }) s

/-- An image loaded into a context (R265). -/
def State.loadImage (s : State) (x : Nat) (i : Image) : State :=
  let ps := partsOf (s.ctx x).parts
  let s1 := (ps.zipIdx.zip i.stores).foldl (fun s w => s.loadStore x w.1.2 w.1.1 w.2) s
  let s2 := (s1.loadWelds ps 400 i.linkWelds).loadWelds ps 448 i.indWelds
  let s3 := ((s2.ctxCores x).zip i.cores).foldl (fun s w => s.loadCore w.1 w.2) s2
  s3.setCtx x { s3.ctx x with stepno := i.stepno }

/-- Whether a context may take an image (R265). -/
def State.imageFits (s : State) (x : Nat) (i : Image) : Bool :=
  i.version == Config.imageVersion && i.refmode == (s.ctx x).refmode &&
    !(i.instr && (i.vl != 64 || i.ctxcores != (s.ctxCores x).length)) && !(i.vl != 64 && i.fixedLane)

end Sys2Proof.Machine
end

