-- ==== Sys2Proof/Machine/Sepia.lean ====
section
/-! DEFINITION. Sepia checkpoints: descriptors, saves, manifests and restores (R407, R408, R413 to R420). -/

namespace Sys2Proof.Machine

/-! ## The checkpoint descriptor -/

/-- The address of a slot's checkpoint descriptor. -/
def State.descAddr (s : State) (x : Nat) : Nat := s.fld .sepDescHi 0 x 15 0 * 2 ^ 32 + s.fld .sepDescLo 0 x 31 6 * 64

/-- The regions of a slot's descriptor: base, bytes, CK. -/
def State.descRegions (s : State) (x : Nat) : List (Nat × Nat × Bool) :=
  let a := s.descAddr x
  (List.range (min 1024 (s.devNum a 2))).map (fun i =>
    let z := s.devNum (a + 40 + 16 * i) 8
    (s.devNum (a + 32 + 16 * i) 8, natBits z 39 0, natBit z 40))

/-- The bytes of a slot's descriptor. -/
def State.descBytes (s : State) (x : Nat) : List Byte := s.devRead (s.descAddr x) (32 + 16 * s.devNum (s.descAddr x) 2)

/-- Bytes of a checkpoint set. -/
def setSize (l : List (Nat × Nat × Bool)) : Nat := (l.map (fun r => r.2.1)).foldl (· + ·) 0

/-- Whether two runs overlap. -/
def overlap (a n b m : Nat) : Bool := decide (a < b + m) && decide (b < a + n)

/-- Whether runs of a list overlap one another. -/
def anyOverlap : List (Nat × Nat) → Bool
  | [] => false
  | r :: t => t.any (fun q => overlap r.1 r.2 q.1 q.2) || anyOverlap t

/-- The staging area of a slot's descriptor, where STAGED is set. -/
def State.stageArea (s : State) (x : Nat) : Option Nat :=
  let a := s.descAddr x
  if natBit (s.devNum (a + 2) 1) 0 then some (s.devNum (a + 24) 8) else none

/-- The runs of the checkpoint set with the staging area, taken as large as the set (R408). -/
def State.descRuns (s : State) (x : Nat) : List (Nat × Nat) :=
  let l := s.descRegions x
  l.map (fun r => (r.1, r.2.1)) ++ (match s.stageArea x with
    | some a => [(a, setSize l)]
    | none => [])

/-- The checks of R408 on a slot's descriptor. -/
def State.descOk (s : State) (x : Nat) : Bool :=
  let n := s.devNum (s.descAddr x) 2
  let l := s.descRegions x
  let runs := s.descRuns x
  let armed := (List.range 64).filter (fun i => (s.region (i / 16) (i % 16)).armed)
  decide (1 ≤ n ∧ n ≤ 1024) && !anyOverlap runs &&
    armed.all (fun i =>
      let r := s.region (i / 16) (i % 16)
      l.all (fun q => !overlap q.1 q.2.1 r.base (2 ^ r.log2))) &&
    l.all (fun r => r.2.1 == 0 || s.ctxMemStore x r.1 r.2.1) &&
    (match s.stageArea x with
      | some a => s.ctxMemStore x a (setSize l)
      | none => true) &&
    l.all (fun r => !r.2.2 || (r.1 % 2 ^ 26 == 0 && r.2.1 % 2 ^ 26 == 0))

/-- The descriptor checked: its regions kept, or SEP_ERR.DESC_REFUSED set (R408). -/
def State.checkDesc (s : State) (x : Nat) : State :=
  if s.descOk x then s.setCtx x { s.ctx x with ckptOk := true, regions := s.descRegions x }
  else (s.setCtx x { s.ctx x with ckptOk := false, regions := [] }).orReg .sepErr 0 0 8

/-- The pieces of a set: region, offset, bytes (R407). -/
def piecesOf (l : List (Nat × Nat × Bool)) : List (Nat × Nat × Nat) :=
  l.zipIdx.flatMap (fun r => (List.range (r.1.2.1 / 2 ^ 22)).map (fun i => (r.2, i * 2 ^ 22, 2 ^ 22)))

/-- The destination of checkpoint slot A (0) or B (1): a peer device, or an address (R407). -/
def State.ckDest (s : State) (x t : Nat) : Option Nat × Nat :=
  let d := s.devNum (s.descAddr x + 8 + 8 * t) 8
  if natBit d 63 then (some (d % 4096), 0) else (none, d)

/-! ## Manifests -/

/-- CRC-64 of the seeds (R416). -/
def State.seedCk (s : State) (x : Nat) : W64 :=
  crc64 (leBytes 8 (s.ctxSeed x).toNat ++ leBytes 8 (s.chkSeed x).toNat ++ leBytes 8 (s.reg64 .krmVwSeedLo .krmVwSeedHi 0 0))

/-- Whether bytes are a valid manifest (R416). -/
def manifestOk (b : List Byte) : Bool :=
  let n := b.length - 32
  leField b 0 3 == 0x53455031 && leField b 4 7 == 1 && decide (160 ≤ b.length) && b.drop n == sha256 (b.take n)

/-- The manifest at an address, as far as its NPIECE says, where it is valid and readable. -/
def State.manifestAt (s : State) (d : Option Nat × Nat) : Option (List Byte) :=
  let n := 160 + 32 * s.devNum (d.2 + 72) 4
  if d.1.isSome || !isT3 d.2 || s.devPo d.2 n then none
  else
    let b := s.devRead d.2 n
    if manifestOk b then some b else none

/-- The manifest of a save (R416). -/
def State.manifest (s : State) (v : Save) : List Byte :=
  let cdig := ((s.ctx v.slot).ownDigest.map (fun d => d.2)).getD 0
  let b := leBytes 4 0x53455031 ++ leBytes 4 1 ++ leBytes 8 v.seq ++ leBytes 4 v.stepno.toNat ++ leBytes 2 s.devId ++ leBytes 1 v.target ++
    leBytes 1 (v.agreed.getD 0) ++ leBytes 8 (s.seedCk v.slot).toNat ++ sha256 (s.descBytes v.slot) ++ leBytes 8 cdig.toNat ++
    leBytes 4 v.done.length ++ List.replicate 52 0 ++ (List.range v.done.length).flatMap (fun i => ((v.done.find? (fun d => d.1 == i)).map (fun d => d.2)).getD [])
  b ++ sha256 b

/-! ## Writing to the destination -/

/-- Bytes sent to the destination of a save: tier 3 through its window, or a peer by SYS messages of the bulk class; the answer says whether
it took them (R414, R418, R420). -/
def State.toDest (s : State) (v : Save) (off addr : Nat) (b : List Byte) : State × Bool :=
  match v.peer with
  | none => match locOf (v.dest + off) with
    | .tier3 w o => if (s.t3Host w o).isSome && (s.t3Host w (o + b.length - 1)).isSome then (s.rawWrite (v.dest + off) b, true) else (s, false)
    | _ => (s, false)
  | some d =>
    let p := lowPart (s.ctx v.slot).parts
    let r := s.routeOf p d
    if r.1 = 0 ∨ 15 < r.1 ∨ !s.linkUp (r.2.headD 0) then (s, false)
    else
      ((chunks 4096 b.length b).zipIdx.foldl (fun s c =>
        let h := s.chanHead v.slot 0 d 6 (addr + 4096 * c.2)
        h.2.sendRouted p 2 (some v.slot) .sepia h.1 c.1 []) s, true)

/-- Held writes that a capture or the end of a save lets through, in every slot (R415). -/
def State.releaseEvery (s : State) : State := (List.range 4).foldl (fun s x => s.releaseAll x) s

/-- A save abandoned, and what waited for it let through. -/
def State.dropSave (s : State) (b : Nat) : State := (s.abandonSave b).releaseEvery

/-! ## Save requests -/

/-- A save of a slot requested (R413). -/
def State.requestSave (s : State) (x : Nat) : State := s.setCtx x { s.ctx x with savePending := true }

/-- SAVE_TIMER: the interval of SEP_CTRL has passed since the slot's last SAVE_DONE or its BIND (R413). -/
def execSaveTimer (slot : Fin 4) (s : State) : Host.Outcome State Fault Refusal :=
  let x := slot.val
  let c := s.ctx x
  let due := c.saveTimer.toNat + s.fld .sepCtrl 0 0 12 8 * 60000000000
  if c.st ≠ .free ∧ natBit (s.reg .sepCtrl 0 0).toNat 0 ∧ due ≤ s.tim.now.toNat then .next (s.requestSave x) else .next s

/-- A write of SEP_CMD with OP 1 requests a save (R413). -/
def State.cmdSave (s : State) (v : W32) : State :=
  let x := bitsOf v 1 0
  if s.blkOpen .sep 0 ∧ bitsOf v 3 2 = 1 ∧ (s.ctx x).st ≠ .free then s.requestSave x else s

/-- SEP_SAVE_REQUEST (R413). -/
def execSepSaveRequest (v : W32) (s : State) : Host.Outcome State Fault Refusal := .next (s.cmdSave v)

/-- A write of SEP_CMD with OP 2 names the peer that the save goes to (R420). -/
def State.cmdPeerSave (s : State) (v : W32) : State :=
  let x := bitsOf v 1 0
  if s.blkOpen .sep 0 ∧ bitsOf v 3 2 = 2 ∧ (s.ctx x).st ≠ .free then
    let s1 := s.requestSave x
    s1.setCtx x { s1.ctx x with savePeer := some (bitsOf v 15 4) }
  else s

/-- SEP_PEER_SAVE_REQUEST (R420). -/
def execSepPeerSaveRequest (v : W32) (s : State) : Host.Outcome State Fault Refusal := .next (s.cmdPeerSave v)

/-- A write of SEP_CMD with OP 3 abandons the save in progress of its slot (R418). -/
def State.cmdAbandon (s : State) (v : W32) : State :=
  match s.sep.save with
  | some w => if s.blkOpen .sep 0 ∧ bitsOf v 3 2 = 3 ∧ w.slot = bitsOf v 1 0 then s.dropSave 0 else s
  | none => s

/-- SEP_ABANDON (R418). -/
def execSepAbandon (v : W32) (s : State) : Host.Outcome State Fault Refusal := .next (s.cmdAbandon v)

/-! ## Saving -/

/-- A slot that has a request and takes part in saves. -/
def State.saveWanted (s : State) (x : Nat) : Bool :=
  (s.ctx x).st != .free && (s.ctx x).savePending && natBit (s.reg .sepDescHi 0 x).toNat 16

/-- Whether a slot's save may start now: at a step boundary, or at once where the slot is not RUNNING (R413). -/
def State.saveReady (s : State) (x : Nat) : Bool :=
  s.saveWanted x && ((s.ctx x).st != .running || ((s.ctx x).boundary && s.saveable x)) && (s.ctx x).restore.isNone

/-- The checkpoint slot that a save writes: the one without the newest valid manifest, A where neither is valid (R414, R416). -/
def State.saveTarget (s : State) (x : Nat) : Nat :=
  match s.manifestAt (s.ckDest x 0), s.manifestAt (s.ckDest x 1) with
  | some a, some b => if leField b 8 15 ≤ leField a 8 15 then 1 else 0
  | some _, none => 1
  | none, _ => 0

/-- SAVE_START: orders 1 to 3 of R414 begin for the lowest slot that may save. -/
def execSaveStart (slot : Fin 4) (s : State) : Host.Outcome State Fault Refusal :=
  let x := slot.val
  if s.sep.save.isSome ∨ !s.saveReady x ∨ (List.range x).any (fun y => s.saveReady y) then .next s
  else
    let s0 := s.checkDesc x
    let c := s0.ctx x
    let s1 := s0.setCtx x { c with savePending := false, savePeer := none }
    if !c.ckptOk then .next (if c.boundary then s1.resume x else s1)
    else
      let t := s.saveTarget x
      let d := s.ckDest x t
      let v : Save := { slot := x, target := t, peer := match c.savePeer with
                          | some p => some p
                          | none => d.1
                        dest := d.2, staged := s.stageArea x, todo := (piecesOf c.regions).zipIdx, stepno := c.stepno, seq := s.sep.seq + 1
                        agreed := if c.cmpDone && c.agreed then some (s.fld .sepCkStatus 0 x 6 2) else none }
      let s2 := s1.setSep { save := some v, seq := s.sep.seq + 1 }
      let s3 := (s2.setFld .sepStatus 0 0 1 0 x).setFld .sepStatus 0 0 4 2 2
      let r := if v.peer.isSome then (s3, true) else s3.toDest v 0 0 (List.replicate 64 0)
      let s4 := if r.2 then r.1 else s3.abandonSave 2
      .next (if c.boundary then s4.resume x else s4)

/-- Whether a write waits for a piece: one that has been turned away, or one that a core holds (R415). -/
def State.pieceWanted (s : State) (v : Save) (q : (Nat × Nat × Nat) × Nat) : Bool :=
  v.wanted.contains q.2 || (s.ctxCores v.slot).any (fun n => match (s.core n).wait with
    | .write l => l.any (s.inPiece v q.1)
    | _ => false)

/-- The piece that is captured next: one on which a write waits where there is one, and of several any, as a free value says (R415; the order is open,
log entry 138). -/
def State.nextPiece (s : State) (v : Save) : Option ((Nat × Nat × Nat) × Nat) :=
  let w := v.todo.filter (s.pieceWanted v)
  let l := if w = [] then v.todo else w
  l[(Config.freeValue 64 s.free).toNat % l.length]?

/-- PIECE_CAPTURED: a piece of the save is read and hashed, and written to the staging area or the destination (R414, R415). -/
def execPieceCaptured (s : State) : Host.Outcome State Fault Refusal :=
  match s.sep.save with
  | none => .next s
  | some v => match s.nextPiece v with
    | none => .next s
    | some (q, i) =>
      let addr := (((s.ctx v.slot).regions[q.1]?).map (fun r => r.1)).getD 0 + q.2.1
      let t := v.todo.erase (q, i)
      let s := s.draw.demandReads [(addr, q.2.2)]
      if s.devPo addr q.2.2 then .next (s.dropSave 1)
      else
        let b := s.mem.read addr q.2.2
        let r := match v.staged with
          | some a => (s.rawWrite (a + 2 ^ 22 * i) b, true)
          | none => s.toDest v (2 ^ 22 * (1 + i)) addr b
        if !r.2 then .next (s.dropSave 2)
        else
          let s0 := r.1.chargeRuns .sepia ((addr, q.2.2) :: (v.staged.map (fun a => (a + 2 ^ 22 * i, q.2.2))).toList)
          let s1 := s0.setSep { s0.sep with save := some { v with todo := t, done := v.done ++ [(i, sha256 b)] } }
          let s2 := (s1.bump .sepCnt 0 4 1).setFld .sepStatus 0 0 4 2 (if t = [] then 3 else 2)
          .next s2.releaseEvery

/-- SAVE_DONE: every piece is captured and the check group has agreed on the saved step; staged pieces drain in ascending order, the manifest is
written, and the save ends (orders 4 to 7 of R414). -/
def execSaveDone (s : State) : Host.Outcome State Fault Refusal :=
  match s.sep.save with
  | none => .next s
  | some v =>
    if v.todo ≠ [] ∨ v.agreed.isNone then .next s
    else
      let x := v.slot
      let pcs := piecesOf (s.ctx x).regions
      let r := match v.staged with
        | none => (s, true)
        | some a => pcs.zipIdx.foldl (fun (r : State × Bool) (p : (Nat × Nat × Nat) × Nat) =>
            let addr := (((s.ctx x).regions[p.1.1]?).map (fun (q : Nat × Nat × Bool) => q.1)).getD 0 + p.1.2.1
            let w := r.1.toDest v (2 ^ 22 * (1 + p.2)) addr (s.mem.read (a + 2 ^ 22 * p.2) (2 ^ 22))
            (w.1, r.2 && w.2)) (s, true)
      let m := r.1.toDest v 0 0 (s.manifest v)
      if v.staged.any (fun a => s.devPo a (2 ^ 22 * pcs.length)) then .next (s.dropSave 1)
      else if !r.2 ∨ !m.2 then .next (s.dropSave 2)
      else
        let s1 := (m.1.setSep { m.1.sep with save := none }).bump .sepCnt 0 0 1
        let s2 := s1.setReg .sepLast 0 x (BitVec.ofNat 32 (v.seq % 65536 + v.target * 2 ^ 16 + 2 ^ 17))
        let s3 := s2.setFld .sepStatus 0 0 4 0 0
        .next ((s3.setCtx x { s3.ctx x with saveTimer := s.tim.now }).event 6)

/-! ## Restoring -/

/-- A restore ends with a status, in the completion entry of its command (R419, R435). -/
def State.endRestore (s : State) (x : Nat) (status : Nat) (step : W32) : State :=
  match (s.ctx x).restore with
  | none => s
  | some r =>
    let ok := status = 0
    let c := s.ctx x
    let s1 := s.setCtx x { c with restore := none, restoreBad := !ok, stepno := if ok then step else c.stepno, cmpDone := true, agreed := true
                                  ownDigest := if ok then none else c.ownDigest, shards := [] }
    let s2 := (s1.bump .sepCnt 0 (if ok then 2 else 3) 1).setFld .sepStatus 0 0 4 0 0
    let s3 := if ok then s2.ckStatus x false false 0 0 true else s2
    (s3.event 6).complete { q := r.q, cid := r.cid, result := if ok then 0 else 3, status := status, reason := 0, v0 := 0, v1 := 0 }

/-- The status that a manifest gives a restore of a slot before its pieces are read (R419). -/
def State.manifestStatus (s : State) (x : Nat) (m : Option (List Byte)) : Nat :=
  match m with
  | none => stCkpt
  | some b =>
    if (b.drop 32).take 32 ≠ sha256 (s.descBytes x) then stCkpt
    else if BitVec.ofNat 64 (leField b 24 31) ≠ s.seedCk x then stIncompat
    else 0

/-- RESTORE_PIECE_DONE: a piece of the checkpoint read, hashed and written to its region; the last one ends the restore (R419). -/
def execRestorePieceDone (slot : Fin 4) (s : State) : Host.Outcome State Fault Refusal :=
  let x := slot.val
  let c := s.ctx x
  match c.restore with
  | none => .next s
  | some r => match r.todo with
    | [] => .next s
    | p :: t =>
      let a := r.src + 2 ^ 22 * (1 + r.count)
      let b := s.devRead a p.2.1
      let bad := r.bad || s.devPo a p.2.1 || sha256 b != p.2.2
      let s1 := (s.setMem (s.mem.write [{ addr := p.1, data := b }])).chargeRuns .sepia [(p.1, p.2.1)]
      let s2 := s1.setCtx x { c with restore := some { r with todo := t, count := r.count + 1, bad := bad } }
      .next (if t ≠ [] then s2 else s2.endRestore x (if bad then stDigest else 0) r.stepno)

/-- SAVE_STREAM_RECEIVE: data of a peer's save stream, written where the target's own descriptor places them; the last part is the manifest, and the
restore ends with its status. A stream from any other device, or with no RESTORE_PEER pending, is discarded (R420). -/
def execSaveStreamReceive (src : BitVec 12) (slot : Fin 4) (region offset : Nat) (data : List Byte) (last : Bool) (s : State) :
    Host.Outcome State Fault Refusal :=
  let x := slot.val
  let c := s.ctx x
  match c.restore with
  | none => .next (s.orReg .sepErr 0 0 16)
  | some r =>
    if r.peer ≠ some src.toNat then .next (s.orReg .sepErr 0 0 16)
    else if !last then match (s.descRegions x)[region]? with
      | none => .next (s.orReg .sepErr 0 0 16)
      | some q =>
        if q.2.1 < offset + data.length then .next (s.orReg .sepErr 0 0 16)
        else .next (s.setMem (s.mem.write [{ addr := q.1 + offset, data := data }]))
    else
      let st := s.manifestStatus x (if manifestOk data then some data else none)
      if st ≠ 0 then .next (s.endRestore x st 0)
      else
        let l := s.descRegions x
        let pcs := (piecesOf l).zipIdx
        let bad := pcs.any (fun p =>
          let a := ((l[p.1.1]?).map (fun q => q.1)).getD 0 + p.1.2.1
          s.devPo a p.1.2.2 || sha256 (s.mem.read a p.1.2.2) != (data.drop (128 + 32 * p.2)).take 32)
        .next (s.endRestore x (if bad then stDigest else 0) (BitVec.ofNat 32 (leField data 16 19)))

end Sys2Proof.Machine
end

