-- ==== Sys2Proof/Machine/HostCmds.lean ====
section
/-! DEFINITION. The commands of the host queues (R248 to R251, R263 to R265, R419, R420, R434 to R437, R457, R490). -/

namespace Sys2Proof.Machine

/-! ## Taking a command -/

/-- The command at the head of submission queue `q` taken: the pair is enabled, its queue is not empty, its completion queue has room, and
the device is READY and not in D3hot (R433, R436, R458, R494). -/
def State.takeCmd (s : State) (q : Nat) : Option State :=
  let k := s.queue q
  let tail := s.fld .hifSqDb 0 q 11 0
  if !natBit (s.reg .hifStatus 0 0).toNat 0 ∨ !natBit (s.reg .hifQCfg 0 q).toNat 9 ∨ s.cqFull q ∨ k.sqHead = tail ∨ s.hif.d3hot then none
  else some (s.setQueue q { k with sqHead := (k.sqHead + 1) % s.sqSize q })

/-- The completion entry of a command (R437). -/
def State.reply (s : State) (c : HostCmd) (result status reason : Nat) : State :=
  s.complete { q := c.q.val, cid := c.cid, result := result, status := status, reason := reason, v0 := 0, v1 := 0 }

/-- A refusal with its REASON (R437). -/
def State.refuse (s : State) (c : HostCmd) (reason : Nat) : State := s.reply c 2 0 reason

/-- A command that ended DONE. -/
def State.doneCmd (s : State) (c : HostCmd) : State := s.reply c 0 0 0

/-- Whether a save or a restore of a slot is in progress (R436). -/
def State.slotBusy (s : State) (x : Nat) : Bool := (s.ctx x).save.isSome || (s.ctx x).restore.isSome

/-- A host command taken, with the refusals that every command shares: a reserved bit (0x16), a save or restore in progress (0x14), a slot
state in which it is not accepted (0x10). -/
def hostCmd (c : HostCmd) (whileBusy : Bool) (st : CtxState → Bool) (body : State → Nat → State) (s : State) :
    Host.Outcome State Fault Refusal :=
  let x := c.slot.val
  match s.takeCmd c.q.val with
  | none => .next s
  | some s1 =>
    .next (if c.rsv then s1.refuse c 0x16
      else if !whileBusy && s1.slotBusy x then s1.refuse c 0x14
      else if !st (s1.ctx x).st then s1.refuse c 0x10
      else body s1 x)

/-- Whether a command's ADDR is 64-byte aligned and `n` bytes from it are readable memory (R331, R434; log entry 82: DEDUCED). -/
def State.cmdAddrOk (s : State) (a n : Nat) : Bool :=
  let ok := fun (b : Nat) => match locOf b with
    | .unmapped => false
    | .tier3 w o => (s.t3Host w o).isSome
    | _ => true
  a % 64 == 0 && ok a && ok (a + n - 1) && !s.devPo a n

/-! ## Binding -/

/-- Whether a partition may be bound: no context holds it, it is not offline, in reset or OFF (R249, R386, R437, R457). -/
def State.partFree (s : State) (p : Nat) : Bool :=
  let q := s.part p
  (s.partSlot p).isNone && !q.offline && !q.resetting && q.pwr != .off

/-- The reserved bits, PARTS, SLOT and REDUNDANCY of a context descriptor (R250, R393). -/
def descFields (b : List Byte) (x : Nat) : Bool :=
  let red := leField b 3 3
  let mode := red % 16
  leField b 0 0 == x && decide (1 ≤ leField b 1 1 ∧ leField b 1 1 < 16 ∧ leField b 2 2 < 4 ∧ red < 32 ∧ mode < 8) &&
    !(natBit red 4 && decide (6 ≤ mode)) && allZero ((b.drop 4).take 60)

/-- The slot bound: the context's settings, its ERR and SEP registers, the fault record cleared (R161, R249, R251, R383, R399, R408, R490). -/
def State.bindSlot (s : State) (x : Nat) (b : List Byte) : State :=
  let parts : BitVec 4 := BitVec.ofNat 4 (leField b 1 1)
  let red := leField b 3 3
  let s2 := s.setCtx x { st := .bound, parts := parts, refmode := natBit (leField b 2 2) 0, debug := natBit (leField b 2 2) 1,
                         redundancy := BitVec.ofNat 8 red, saveTimer := s.tim.now, checking := (s.ctx x).checking }
  let s3 := (s2.setFld .errCtxCfg 0 x 4 0 red).setFld .errCtxStatus 0 x 19 19 0
  let s4 := s3.setFld .errCtxStatus 0 x 17 16 0
  let s5 := (s4.setFld .sepLast 0 x 17 17 0).checkDesc x
  s5.ckStatus x false false 0 0 true

/-- BIND (R249 to R251, R435). A partition whose regulator fails as it leaves RET is OFF and refuses the command (R470, log entry 137). -/
def execBind (c : HostCmd) (s : State) : Host.Outcome State Fault Refusal :=
  hostCmd c false (fun t => t == .free) (fun s x =>
    let a := c.addr.toNat
    if !natBit (s.reg .gctCtrl 0 0).toNat (8 + x) then s.refuse c 0x10
    else if !s.cmdAddrOk a 64 then s.refuse c 0x13
    else
      let b := s.devRead a 64
      if !descFields b x then s.refuse c 0x16
      else if !(partsOf (BitVec.ofNat 4 (leField b 1 1))).all (fun p => s.partFree p) then s.refuse c 0x11
      else if natBit (leField b 2 2) 1 && !natBit (s.reg .hifDbgStatus 0 0).toNat 0 then s.refuse c 0x12
      else
        let s1 := (partsOf (BitVec.ofNat 4 (leField b 1 1))).foldl (fun s p => s.wakePart p) s
        if !(partsOf (BitVec.ofNat 4 (leField b 1 1))).all (fun p => s1.partFree p) then s1.refuse c 0x11
        else (s1.bindSlot x b).doneCmd c) s

/-- The slot unbound: an admitted program is withdrawn with reason STATE, a Sepia save of the slot is abandoned (R325, R418). -/
def State.freeSlot (s : State) (x : Nat) : State :=
  let s1 := s.withdraw x 0x08 0
  let s2 := match s1.sep.save with
    | some v => if v.slot = x then s1.dropSave 0 else s1
    | none => s1
  s2.setCtx x { checking := (s2.ctx x).checking }

/-- UNBIND (R251, R325, R418). The partitions' cores that wait for a test or a replacement are then served (R329). -/
def execUnbind (c : HostCmd) (s : State) : Host.Outcome State Fault Refusal :=
  hostCmd c false (fun t => t == .bound) (fun s x =>
    let ps := partsOf (s.ctx x).parts
    let s1 := s.freeSlot x
    ((ps.foldl (fun s p => s.idleCores p) s1).recheck).doneCmd c) s

/-! ## Programs -/

/-- The wide instructions of an image, by word address. -/
def imageWords (b : List Byte) : List (BitVec 1024) := (chunks 128 b.length b).map (fun w => BitVec.ofNat 1024 (ofLeBytes w))

/-- Words copied into an instruction memory from word 0. -/
def putImem (m : AMap (BitVec 1024)) (l : List (BitVec 1024)) : AMap (BitVec 1024) :=
  l.zipIdx.foldl (fun m w => AMap.put 0 w.2 w.1 m) m

/-- LOAD: the image is hashed and copied into the instruction memory of every core of the context (R435). -/
def execLoad (c : HostCmd) (s : State) : Host.Outcome State Fault Refusal :=
  hostCmd c false (fun t => t == .bound) (fun s x =>
    let a := c.addr.toNat
    let n := c.arg0.toNat
    if (s.ctx x).admitted.isSome then s.refuse c 0x10
    else if n % 128 ≠ 0 ∨ 524288 < n ∨ a % 64 ≠ 0 ∨ !s.ctxMem x a (max 1 n) ∨ s.devPo a (max 1 n) then s.refuse c 0x13
    else
      let b := s.devRead a n
      let w := imageWords b
      let s1 := s.setCtx x { s.ctx x with image := some (sha256 b, n) }
      (s1.mapCores (s1.ctxCores x) (fun k => { k with imem := putImem k.imem w, badWords := [] })).doneCmd c) s

/-- SUBMIT: the submission is handed to the admission checker; while one of the slot is under check the command waits (R320, R321). -/
def execSubmit (c : HostCmd) (s : State) : Host.Outcome State Fault Refusal :=
  if (s.ctx c.slot.val).checking.isSome then .next s
  else hostCmd c true (fun _ => true) (fun s x =>
    if !s.certAddrOk x c.addr.toNat then s.refuse c 0x13
    else s.setCtx x { s.ctx x with checking := some { q := c.q.val, cid := c.cid, addr := c.addr.toNat, tL := c.arg0.toNat } }) s

/-- CANCEL: an admitted program withdrawn before T_L − `TIM_WAKE_LEAD` (R324). -/
def execCancel (c : HostCmd) (s : State) : Host.Outcome State Fault Refusal :=
  hostCmd c true (fun _ => true) (fun s x =>
    match (s.ctx x).admitted with
    | none => s.refuse c 0x10
    | some g =>
      if g.tL ≤ s.tim.now.toNat + s.fld .timWakeLead 0 0 15 0 then s.refuse c 0x15
      else ((s.setCtx x { s.ctx x with admitted := none }).bump .timCnt 0 4 1).doneCmd c) s

/-! ## SAVE -/

/-- SAVE (R263, R435): bit 0 of ARG0 INSTRUCTION, bit 1 STOP. -/
def execSave (c : HostCmd) (s : State) : Host.Outcome State Fault Refusal :=
  hostCmd c true (fun t => t == .bound || t == .running) (fun s x =>
    if !s.cmdAddrOk c.addr.toNat 64 then s.refuse c 0x13
    else
      let q : SaveReq := { instr := c.arg0.getLsbD 0, stop := c.arg0.getLsbD 1, buf := c.addr.toNat, q := c.q.val, cid := c.cid }
      if (s.ctx x).save.isSome then s.setCtx x { s.ctx x with saveq := (s.ctx x).saveq ++ [q] } else s.beginSave x q) s

/-! ## Restores and CLEAR -/

/-- A HALTED context cleared to BOUND, its fault record zero (R251, R490). -/
def State.clearSlot (s : State) (x : Nat) : State :=
  s.setCtx x { s.ctx x with st := .bound, status := 0, fault := { status := 0 }, replayed := false }

/-- CLEAR (R251, R435). -/
def execClear (c : HostCmd) (s : State) : Host.Outcome State Fault Refusal :=
  hostCmd c false (fun t => t == .halted) (fun s x => (s.clearSlot x).doneCmd c) s

/-- RESTORE (R265): a HALTED context is first cleared; an image that does not fit ends the command FAILED with RESTORE_INCOMPATIBLE. -/
def execRestore (c : HostCmd) (s : State) : Host.Outcome State Fault Refusal :=
  hostCmd c false (fun t => t == .bound || t == .halted) (fun s x =>
    if (s.ctx x).admitted.isSome then s.refuse c 0x10
    else if !s.cmdAddrOk c.addr.toNat 64 then s.refuse c 0x13
    else
      let s1 := if (s.ctx x).st = .halted then s.clearSlot x else s
      match s1.imageAt c.addr.toNat with
      | none => s1.reply c 3 stIncompat 0
      | some i => if !s1.imageFits x i then s1.reply c 3 stIncompat 0 else (s1.loadImage x i).doneCmd c) s

/-- The manifest that a RESTORE_CKPT names with its source: slot A, slot B, or the newest valid one (R416, R419). -/
def State.pickManifest (s : State) (x which : Nat) : Nat × Option (List Byte) :=
  let a := s.manifestAt (s.ckDest x 0)
  let b := s.manifestAt (s.ckDest x 1)
  let sa := (s.ckDest x 0).2
  let sb := (s.ckDest x 1).2
  if which = 0 then (sa, a) else if which = 1 then (sb, b)
  else match a, b with
    | some m, some k => if leField k 8 15 ≤ leField m 8 15 then (sa, a) else (sb, b)
    | some _, none => (sa, a)
    | none, _ => (sb, b)

/-- A Sepia restore begins: PHASE 6 of the slot (SEP_STATUS). -/
def State.showRestore (s : State) (x : Nat) : State := (s.setFld .sepStatus 0 0 1 0 x).setFld .sepStatus 0 0 4 2 6

/-- RESTORE_CKPT (R418, R419): the manifest is read and checked; the pieces follow one by one. -/
def execRestoreCkpt (c : HostCmd) (s : State) : Host.Outcome State Fault Refusal :=
  hostCmd c false (fun t => t == .bound) (fun s x =>
    if (s.ctx x).admitted.isSome then s.refuse c 0x10
    else if 2 < c.arg0.toNat then s.refuse c 0x16
    else if (s.sep.save.map (fun v => v.slot)) = some x then s.refuse c 0x14
    else
      let m := s.pickManifest x c.arg0.toNat
      let st := if (s.ctx x).ckptOk then s.manifestStatus x m.2 else stCkpt
      let b := m.2.getD []
      let regs := s.descRegions x
      let todo := (piecesOf regs).zipIdx.map (fun p =>
        (((regs[p.1.1]?).map (fun (q : Nat × Nat × Bool) => q.1)).getD 0 + p.1.2.1, p.1.2.2, (b.drop (128 + 32 * p.2)).take 32))
      let r : Restore := { q := c.q.val, cid := c.cid, src := m.1, todo := if st = 0 then todo else [], stepno := BitVec.ofNat 32 (leField b 16 19) }
      let s1 := (s.setCtx x { s.ctx x with restore := some r, restoreBad := true }).showRestore x
      if r.todo = [] then s1.endRestore x st r.stepno else s1) s

/-- RESTORE_PEER (R420): the slot awaits the save stream of the device that ARG0 names. -/
def execRestorePeer (c : HostCmd) (s : State) : Host.Outcome State Fault Refusal :=
  hostCmd c false (fun t => t == .bound) (fun s x =>
    if (s.ctx x).admitted.isSome then s.refuse c 0x10
    else if (s.sep.save.map (fun v => v.slot)) = some x then s.refuse c 0x14
    else
      let r : Restore := { q := c.q.val, cid := c.cid, peer := some (c.arg0.toNat % 4096) }
      (s.setCtx x { s.ctx x with restore := some r, restoreBad := true }).showRestore x) s

end Sys2Proof.Machine
end

