-- ==== Sys2Proof/Machine/Launch.lean ====
section
/-! DEFINITION. Admission decisions, launch, overruns, and the sleep and wake of units (R313 to R315, R319 to R328, R404, R454, R455). -/

namespace Sys2Proof.Machine

/-! ## Admission -/

/-- Checks 0x01 to 0x08 of R321 in order, for a certificate read as `b` with poison `po`: the first reason that fails, 0 for none. -/
def State.admitReason (s : State) (x : Nat) (b : List Byte) (po : Bool) (tL : Nat) : Nat :=
  let c := s.ctx x
  let t := certOf b
  if po || !certFormat b then 0x01
  else if (c.image.map (fun i => i.1)) ≠ some t.digest then 0x02
  else if t.refmode != c.refmode then 0x03
  else if !s.shapeOk x t then 0x04
  else if 10000000000 < t.d then 0x05
  else if tL ≠ 0 ∧ tL < s.tim.now.toNat + 64000 then 0x06
  else if !s.timeOk t then 0x07
  else if !((c.st == .bound || c.st == .running) && c.admitted.isNone && !c.restoreBad && c.restore.isNone) then 0x08
  else 0

/-- The launch time that a submission asks for (R320, R322, R323): a chained launch stands at the promise of the running program, or at the
decision time plus 64 µs. -/
def State.launchTime (s : State) (x tL : Nat) : Nat × Bool :=
  if tL ≠ 0 then (tL, false)
  else match (s.ctx x).running with
    | some g => (g.p, true)
    | none => (s.tim.now.toNat + 64000, false)

/-- A rejection: reported in the completion entry, with no change of the context (R323). The submission of a replay posts none, and the
context is HALTED again with its status (R405). -/
def State.reject (s : State) (x : Nat) (u : Submission) (reason v0 v1 : Nat) : State :=
  let s1 := s.bump .timCnt 0 4 1
  if u.post then s1.complete { q := u.q, cid := u.cid, result := 2, status := stReject, reason := reason, v0 := v0, v1 := v1 }
  else (s1.setCtx x { s1.ctx x with st := .halted }).event (lowPart (s1.ctx x).parts)

/-- ADMISSION_DECISION: the checks of R321 in order, and ACCEPT or REJECT (R323). -/
def execAdmissionDecision (slot : Fin 4) (s : State) : Host.Outcome State Fault Refusal :=
  let x := slot.val
  match (s.ctx x).checking with
  | none => .next s
  | some u =>
    let s0 := s.setCtx x { s.ctx x with checking := none }
    let n := certLen (s0.devRead u.addr 128)
    let b := s0.devRead u.addr n
    let r := s0.admitReason x b (s0.devPo u.addr n) u.tL
    let t := certOf b
    let l := s0.launchTime x u.tL
    if r ≠ 0 then .next (s0.reject x u r 0 0)
    else match s0.capacityFail x l.1 t none with
      | some f => .next (s0.reject x u 0x09 (f.2.cls + 256 * f.2.part + 65536 * f.2.index) f.1)
      | none =>
        let g : Prog := { cert := t, tL := l.1, p := l.1 + t.d, p0 := l.1 + t.d, chained := l.2, certAddr := u.addr }
        let s1 := (s0.setCtx x { s0.ctx x with admitted := some g }).bump .timCnt 0 3 1
        if u.post then .next (s1.complete { q := u.q, cid := u.cid, result := 1, status := 0, reason := 0, v0 := g.tL, v1 := g.p })
        else .next ((s1.setCtx x { s1.ctx x with status := 0, fault := { status := 0 } }).bump .errCnt 0 6 1 |>.errLog { scope := 9, source := 0x0F, slot := some x })

/-! ## Sleep and wake -/

/-- PREWAKE: every sleeping unit of a slot's programs whose window begins within `TIM_WAKE_LEAD`, or has begun, has its fast clock started
(R315). -/
def execPrewake (slot : Fin 4) (s : State) : Host.Outcome State Fault Refusal :=
  let x := slot.val
  let now := s.tim.now.toNat
  let lead := s.fld .timWakeLead 0 0 15 0
  let due := fun (g : Prog) => (s.windows x g).filter (fun w => decide (w.2.1 ≤ now + lead ∧ now < w.2.2))
  let l := (match (s.ctx x).running with
    | some g => due g
    | none => []) ++ (match (s.ctx x).admitted with
    | some g => due g
    | none => [])
  .next (l.foldl (fun s w => s.wakeUnit w.1) s)

/-- UNIT_WAKE: an instruction reaches a sleeping unit; outside its windows the wake is counted as unscheduled (R315, R454). -/
def execUnitWake (u : UnitId) (s : State) : Host.Outcome State Fault Refusal := .next (s.demandUnit (unitRef u))

/-- Whether a unit may not sleep: an instruction in flight, a Vat-write not acknowledged, a pinned walk (R455). -/
def State.unitHeld (s : State) : UnitRef → Bool
  | .core n _ =>
    let c := s.core n
    !c.word.isEmpty || !c.vwq.isEmpty || c.vwAck != 0 || !c.xfers.isEmpty
  | .ind e => !(s.ind e).walks.isEmpty || !(s.ind e).edits.isEmpty || (s.ind e).spill.isSome
  | .link n =>
    let l := s.link n
    l.inv.isSome || !l.queue.isEmpty || !l.replay.isEmpty

/-- Whether a unit is outside its launch windows, in a gap long enough to sleep (R315). -/
def State.inGap (s : State) (u : UnitRef) : Bool :=
  let now := s.tim.now.toNat
  let lead := s.fld .timWakeLead 0 0 15 0
  let w := s.unitWindows u
  let before := ((w.map (fun i => i.2)).filter (fun t => decide (t ≤ now))).foldl max 0
  let after := ((w.map (fun i => i.1)).filter (fun t => decide (now < t)))
  !w.any (fun i => decide (i.1 ≤ now ∧ now < i.2)) &&
    after.all (fun t => decide (now + lead < t) && (before == 0 || decide (2 * lead + 1000 < t - before)))

/-- UNIT_SLEEP: a unit outside its windows, or idle with no context bound, enters SLEEP and keeps its contents (R315, R454, R455). That it
has been idle for 10 µs is the sender's to say. -/
def execUnitSleep (u : UnitId) (s : State) : Host.Outcome State Fault Refusal :=
  let r := unitRef u
  let free := (s.partSlot r.part).isNone || s.inGap r
  .next (if free && !s.unitHeld r then s.setSleep r true else s)

/-! ## Launch -/

/-- A core as a program starts on it: word 0, s63 = T_L, nothing of an earlier program (R314). -/
def Core.launch (c : Core) (tL : Nat) : Core :=
  { c with pc := 0, bindings := [], s := AMap.put (0, false) 63 (BitVec.ofNat 64 tL, false) c.s, word := [], wait := .none
           halted := false, epochs := [], cur := none }

/-- PROGRAM_LAUNCH: the admitted program of a BOUND slot starts at T_L, a chained one at the end of its predecessor; a launch later than T_L
is a DEFERRAL_PREV (R314, R324, R326). -/
def execProgramLaunch (slot : Fin 4) (s : State) : Host.Outcome State Fault Refusal :=
  let x := slot.val
  let c := s.ctx x
  let now := s.tim.now.toNat
  match c.admitted with
  | none => .next s
  | some g =>
    if c.st ≠ .bound ∨ (!g.chained ∧ now < g.tL) then .next s
    else
      let s1 := s.setCtx x { c with st := .running, running := some g, admitted := none, tActive := false, forward := false, boundary := false }
      let s2 := s1.mapCores (s1.ctxCores x) (fun k => k.launch g.tL)
      .next (if g.tL < now then s2.extend x 0x03 0 (now - g.tL) else s2)

/-- PROMISE_OVERRUN: device time has passed the promise of a program that has not ended: OVERRUN is recorded once, and with OVERRUN_STOP the
context ends (R328). -/
def execPromiseOverrun (slot : Fin 4) (s : State) : Host.Outcome State Fault Refusal :=
  let x := slot.val
  let c := s.ctx x
  match c.running with
  | none => .next s
  | some g =>
    if g.overrun ∨ s.tim.now.toNat ≤ g.p then .next s
    else
      let s1 := (s.setCtx x { c with running := some { g with overrun := true } }).timEvent { slot := x, cause := 0x0F, oldP := g.p, newP := g.p }
      .next (if natBit (s.reg .timCtrl 0 0).toNat 3 then s1.endBy x stOverrun 0x09 else s1)

end Sys2Proof.Machine
end

