-- ==== Sys2Proof/Machine/Stacks.lean ====
section
/-! DEFINITION. Memory stacks and Vat-write regions: scrub, repair, calibration, self-refresh, arming and draining (R329, R335 to R346,
R457). -/

namespace Sys2Proof.Machine

/-! ## Scrub and repair -/

/-- SCRUB: patrol scrub reads, corrects and writes back unit `unit` of a stack that is trained and not in self-refresh (R336, R338). What it finds is
what the symbols in error that the state holds make of the unit's codeword; where it holds none, the command says what is found. -/
def execScrub (stack : Fin 20) (unit : Nat) (f : ScrubFinding) (s : State) : Host.Outcome State Fault Refusal :=
  let st := stack.val
  let o := unit % 2 ^ 30 * 64
  if !natBit (s.reg .memCtrl st 0).toNat 0 ∨ s.stage < 2 ∨ (s.stack st).selfRefresh then .next s
  else
    let a := s.stackAddr st o
    match s.mem.finding (a / 64), f with
    | .fixed _, _ => .next ((s.setMem (s.mem.settle (a / 64))).corrected st (o / 2048))
    | .bad, _ => .next ((s.uncorrectable st o 2).memErr st 3 0 a)
    | .clean, .clean => .next s
    | .clean, .corrected => .next (s.corrected st (o / 2048))
    | .clean, .uncorrectable => .next ((s.uncorrectable st o 2).memErr st 3 0 a)

/-- ROW_REPAIR_DONE: the copy of a row into a spare row ends; the repair is counted and recorded in the repair log (R339). -/
def execRowRepairDone (stack : Fin 20) (row : Nat) (s : State) : Host.Outcome State Fault Refusal :=
  let st := stack.val
  let v := s.stack st
  if !v.repairs.contains row then .next s
  else
    let s1 := s.setStack st { v with repairs := v.repairs.erase row, rowErr := AMap.put 0 row 0 v.rowErr }
    let s2 := (s1.memErr st 4 0 0).setFld .memRepair st 0 11 0 (min 0xFFF (s.fld .memRepair st 0 11 0 + 1))
    .next (s2.setMgmt { s2.mgmt with repairLog := s2.mgmt.repairLog ++ [(st, row)] })

/-- STACK_FRAME: a frame of 1,024 ns begins at a multiple of 1,024, nothing charged, with the reservations of the records active at its start
(R345, R346). -/
def execStackFrame (stack : Fin 20) (s : State) : Host.Outcome State Fault Refusal :=
  .next (s.setStack stack.val (s.stackFrame stack.val))

/-! ## Calibration and tests during work -/

/-- TEST_REQUEST: a test of a core is requested; it is served at once when no program of the context that owns the core is running, else at the
next step boundary (R329). A SPARE core is free to be tested at once. -/
def execTestRequest (k : CoreId) (_cause : TestCause) (s : State) : Host.Outcome State Fault Refusal :=
  let n := k.key
  let p := n / 100
  match s.coreState n with
  | .fused => .next s
  | .failed => .next s
  | .testing => .next s
  | .spare => .next (s.setCoreState n .testing)
  | .suspect | .inService =>
    let s1 := s.setCore n { s.core n with testReq := (s.lcore n).isSome }
    let busy := match s.partSlot p with
      | some x => (s.ctx x).running.isSome
      | none => false
    .next (if busy then s1 else s1.idleCores p)

/-- CALIBRATION: a calibration of a link or a stack is requested, and runs when R329 has it served (R329, R340). -/
def execCalibration (c : Calibration) (s : State) : Host.Outcome State Fault Refusal :=
  .next (if s.calibReady c then s.calibrate c else { s with calib := s.calib ++ [c] })

/-- STACK_IDLE_REFRESH: a stack that a host access woke returns to self-refresh after 1 ms without access, while its partition is in RET or
OFF (R457). -/
def execStackIdleRefresh (stack : Fin 20) (s : State) : Host.Outcome State Fault Refusal :=
  let v := s.stack stack.val
  if (s.part (stack.val / 5)).pwr ≠ .idle ∧ v.lastAccess.toNat + 1000000 ≤ s.tim.now.toNat then
    .next (s.setStack stack.val { v with selfRefresh := true })
  else .next s

/-! ## Vat-write regions -/

/-- Whether the arm of an entry is refused (R341). INVALID counts as it stands before the write. -/
def State.armRefused (s : State) (p i : Nat) : Bool :=
  let r := s.region p i
  let size := 2 ^ r.log2
  let lo := p * 0x5000000000
  let overlaps := (List.range 16).any (fun j =>
    let q := s.region p j
    j != i && q.armed && decide (r.base < q.base + 2 ^ q.log2 ∧ q.base < r.base + size))
  let owned := r.ownerSrc == 0x7F || decide (r.ownerSrc < (s.part r.ownerPart).logical.length)
  let bound := match s.partSlot p with
    | none => false
    | some x => s.partSlot r.ownerPart == some x
  decide (r.log2 < 16 ∨ 36 < r.log2) || r.base % size != 0 || decide (r.base < lo ∨ lo + 0x5000000000 < r.base + size) || overlaps || r.invalid ||
    !owned || !bound

/-- A write of MEM_VWR_CTRL (R341, R343): 0 written to INVALID clears it; ARMED 0 to 1 arms the entry or is refused; ARMED 1 to 0 starts the
drain. A draining entry stays so. -/
def State.wrVwrCtrl (s : State) (p i : Nat) (v : W32) : State :=
  if !s.partOpen p then s
  else
    let r := s.region p i
    let s1 := if natBit v.toNat 1 then s else s.setFld .memVwrCtrl p i 1 1 0
    if r.draining then s1
    else if natBit v.toNat 0 then
      (if r.armed then s1
      else if s.armRefused p i then s1.vwrErr p 4 0
      else s1.setFld .memVwrCtrl p i 0 0 1)
    else if r.armed then s1.setFld .memVwrCtrl p i 2 2 1
    else s1

/-- VWR_ARM (R341). -/
def execVwrArm (part : Fin 4) (i : Fin 16) (v : W32) (s : State) : Host.Outcome State Fault Refusal := .next (s.wrVwrCtrl part.val i.val v)

/-- VWR_DISARM (R343). -/
def execVwrDisarm (part : Fin 4) (i : Fin 16) (v : W32) (s : State) : Host.Outcome State Fault Refusal :=
  .next (s.wrVwrCtrl part.val i.val v)

/-- VWR_DRAIN_COMPLETE: every Vat-write that a draining entry accepted is applied; ARMED and DRAINING then read 0 (R343). -/
def execVwrDrainComplete (part : Fin 4) (i : Fin 16) (s : State) : Host.Outcome State Fault Refusal :=
  let r := s.region part.val i.val
  .next (if r.draining then (s.setFld .memVwrCtrl part.val i.val 2 2 0).setFld .memVwrCtrl part.val i.val 0 0 0 else s)

end Sys2Proof.Machine
end

