-- ==== Sys2Proof/Machine/Health.lean ====
section
/-! DEFINITION. Test passes, the replay of a step, and Ochre's sensors, risk, life estimate and derate (R388 to R392, R405, R421 to R425). -/

namespace Sys2Proof.Machine

/-! ## Test passes -/

/-- Whether a program of the context that owns a partition is running (R329). -/
def State.partBusy (s : State) (p : Nat) : Bool :=
  match s.partSlot p with
  | some x => (s.ctx x).running.isSome
  | none => false

/-- A core that passed: a TESTING core is SPARE, a SUSPECT one when it owes no further pass (R389, R391). -/
def State.testPassed (s : State) (n : Nat) : State :=
  let c := { s.core n with lastTest := s.tim.now }
  if s.coreState n = .suspect then
    let s1 := s.setCore n { c with owed := c.owed - 1 }
    if c.owed ≤ 1 then s1.setCoreState n .spare else s1
  else if s.coreState n = .testing then (s.setCore n c).setCoreState n .spare
  else s.setCore n c

/-- A core that failed: a SUSPECT core is FAILED, another becomes SUSPECT (R389, R391). -/
def State.testFailed (s : State) (n : Nat) : State :=
  if s.coreState n = .suspect then s.setCoreState n .failed else s.suspectCore n

/-- Operand `i` of a test pass: the draw of R162 on the test seed and the stream TEST, with STEP the pass number (R159, R389). -/
def State.testOperand (s : State) (pass : W32) (i : Nat) : W64 × W64 :=
  kermesAt (s.reg .krmTestSeedHi 0 0 ++ s.reg .krmTestSeedLo 0 0) streamTest pass.toNat 0 0 i

/-- The digest of a test pass, of which the manual gives neither the program nor the number of operands (R389, log entry 133). -/
def State.testDigest (s : State) (r : TestResult) : W64 :=
  Config.testDigest ((List.range Config.testOperands).map (s.testOperand r.pass)) ^^^ r.flaw

/-- The digests of other cores for a pass number that wait for a core's (R389). -/
def State.testsOf (s : State) (n : Nat) (pass : W32) : List TestDone := s.och.tests.filter (fun t => t.pass == pass && t.core != n)

/-- Whether a core runs a test pass: it is TESTING, SUSPECT and out of service, a SPARE that cross-checks another, or the device is being
brought up (R389, R391, R441). -/
def State.inTest (s : State) (n : Nat) (pass : W32) : Bool :=
  match s.coreState n with
  | .testing => true
  | .suspect => (s.lcore n).isNone
  | .spare => s.stage == 2 || !(s.testsOf n pass).isEmpty
  | .inService => s.stage == 2
  | .failed | .fused => false

/-- A core's test pass is decided: the result is logged, a failure as a LATENT event with the time of the last passed test (R389, R391, R392,
R406). -/
def State.testSettled (s : State) (n : Nat) (ok : Bool) : State :=
  let s1 := s.errLog { scope := 8, source := 0x0E, part := n / 100, inst := n % 100, addr := if ok then 0 else (s.core n).lastTest.toNat }
  let s2 := if ok then s1.testPassed n else s1.testFailed n
  if s2.partBusy (n / 100) then s2.sparesCheck (n / 100) else s2.idleCores (n / 100)

/-- A digest cross-checked (R389): with another of the same pass it passes both cores or waits for a third, whose digest decides by majority. -/
def State.crossCheck (s : State) (t : TestDone) : State :=
  let l := s.testsOf t.core t.pass
  let keep := s.setOch { s.och with tests := s.och.tests.filter (fun q => !(q.core == t.core && q.pass == t.pass)) ++ [t] }
  let settled := s.setOch { s.och with tests := s.och.tests.filter (fun q => q.pass != t.pass) }
  match l with
  | [] => keep
  | [q] => if q.digest = t.digest then (settled.testSettled q.core true).testSettled t.core true else keep
  | _ => (l ++ [t]).foldl (fun s q => s.testSettled q.core ((l ++ [t]).any (fun o => o.core != q.core && o.digest == q.digest))) settled

/-- TEST_PASS_COMPLETE: a pass of a core under test ends with its digest, which is cross-checked with those of the cores that ran the same pass
number (R389, R391, R392, R441). -/
def execTestPassComplete (k : CoreId) (r : TestResult) (s : State) : Host.Outcome State Fault Refusal :=
  let n := k.key
  if !s.inTest n r.pass then .next s
  else
    let s1 := ((s.setCore n { s.core n with pass := r.pass.toNat }).bump .errCnt 0 5 1).evalsUp 0 Config.testOperands
    .next (s1.crossCheck { core := n, pass := r.pass, digest := s.testDigest r })

/-! ## Replay -/

/-- STEP_REPLAY: the drained context has a SPARE substituted for each SUSPECT core, and its program and certificate are submitted again
with a T_L that the checker fixes (R405). -/
def execStepReplay (slot : Fin 4) (s : State) : Host.Outcome State Fault Refusal :=
  let x := slot.val
  match (s.ctx x).replayCert with
  | none => .next s
  | some a =>
    if !s.replays x then .next s
    else
      let s1 := (s.suspects x).foldl (fun s n => s.retireCore (n / 100) n .suspect) s
      .next (s1.setCtx x { s1.ctx x with
        st := .bound, replayed := true, tally := 0, tActive := false, redyed := [], forward := false
        checking := some { q := 0, cid := 0, addr := a, tL := 0, post := false } })

/-! ## Sensors -/

/-- The number of events of the last hour. -/
def lastHour (now : Nat) (l : List Nat) : Nat := (l.filter (fun t => decide (now < t + 3600000000000))).length

/-- The raw value of an instance of a class (R421): the last reading, and for classes 2, 3 and 5 what the device has counted. An instance of
class 2 is a stack, of which the raw value is the share of spare rows used. -/
def State.rawOf (s : State) (cls p inst : Nat) : Nat :=
  let now := s.tim.now.toNat
  match cls with
  | 2 => Config.rowPercent (((s.stack (5 * p + inst)).sparesUsed.map (fun e => e.2)).foldl (· + ·) 0)
  | 3 => lastHour now (s.stack (5 * p + inst)).hour
  | 5 => lastHour now ((s.pwr.droop.filter (fun e => e.2 == sensorKey 5 p inst)).map (fun e => e.1))
  | _ => AMap.get (rawNew cls) (sensorKey cls p inst) s.och.sensors

/-- The stress of a raw value; for class 2 with the FAILED cores of its partition (R421). -/
def stressOf (cls raw failed : Nat) : Nat :=
  match cls with
  | 0 => min 255 (raw * 255 / 600)
  | 1 => min 255 (raw * 255 / 40)
  | 2 => min 255 (max (64 * failed) (raw * 255 / 100))
  | 3 => min 255 (28 * Nat.log2 (1 + raw))
  | 4 => min 255 ((100 - raw) * 255 / 50)
  | 5 => min 255 (4 * raw)
  | 6 => min 255 (raw * 255 / 50000)
  | _ => 0

/-- The stress of an instance. -/
def State.stressAt (s : State) (cls p inst : Nat) : Nat := stressOf cls (s.rawOf cls p inst) (s.countIn p .failed)

/-- The instances of a class in a partition that may have a stress: those that have been read, the stacks, the monitors that saw a droop. -/
def State.instances (s : State) (cls p : Nat) : List Nat :=
  match cls with
  | 2 | 3 => List.range 5
  | 5 => (s.pwr.droop.filter (fun e => e.2 / 256 == 20 + p)).map (fun e => e.2 % 256)
  | _ => (s.och.sensors.filter (fun e => e.1 / 256 == 4 * cls + p)).map (fun e => e.1 % 256)

/-- The largest stress of a class in a partition. -/
def State.partStress (s : State) (cls p : Nat) : Nat := ((s.instances cls p).map (fun i => s.stressAt cls p i)).foldl max 0

/-- The stress of a class: the maximum over its instances (R421). -/
def State.classStress (s : State) (cls : Nat) : Nat := ((List.range 4).map (fun p => s.partStress cls p)).foldl max 0

/-- The risk score (R422). -/
def State.riskScore (s : State) : Nat :=
  let l := (List.range 7).map (fun c => s.classStress c)
  let m := l.foldl max 0
  min 255 (m + (l.foldl (· + ·) 0 - m) / 4)

/-- DROOP_EVENT: a monitor saw VCORE or VSRAM below its target less 50 mV for 20 ns or more (R468). -/
def execDroopEvent (part : Fin 4) (inst : Nat) (s : State) : Host.Outcome State Fault Refusal :=
  let now := s.tim.now.toNat
  let l := s.pwr.droop.filter (fun e => decide (now < e.1 + 3600000000000))
  .next ((s.setPwr { s.pwr with droop := l ++ [(now, sensorKey 5 part.val inst)] }).bump .ochCnt 0 2 1)

/-! ## Risk, derate, life -/

/-- The core clock of a partition derated by one step, at most once a day (R424, R463, R464). -/
def State.derateOne (s : State) (p : Nat) : State :=
  let now := s.tim.now.toNat
  let last := AMap.get 0 p s.och.lastDerate
  let th := s.fld .ochDerate 0 0 15 8
  let q := s.part p
  if !natBit (s.reg .ochDerate 0 0).toNat 0 ∨ max (s.partStress 0 p) (s.partStress 1 p) < th ∨ q.kOchre ≤ 8 ∨
      (last ≠ 0 ∧ now < last - 1 + 86400000000000) then s
  else
    let old := fun i => s.effK i
    let s1 := (s.setPart p { q with kOchre := q.kOchre - 1 }).setOch { s.och with lastDerate := AMap.put 0 p (now + 1) s.och.lastDerate }
    let s2 := (s1.setFld .umbFloor 0 0 (8 * p + 4) (8 * p) (q.kOchre - 1)).setFld .ochStatus 0 0 (9 + p) (9 + p) 1
    (((s2.bump .ochCnt 0 3 1).showClk).derated old).recheck

/-- The save request of a risk that rises to RISK_TH, armed again below RISK_TH − HYST (R413, R422). -/
def State.riskRequest (s : State) (r : Nat) : State :=
  let th := s.fld .ochCtrl 0 0 7 0
  let hyst := s.fld .ochCtrl 0 0 15 8
  let s1 := if th ≤ r then s.bump .ochCnt 0 1 1 else s
  if th ≤ r ∧ s.och.armed ∧ natBit (s.reg .sepCtrl 0 0).toNat 1 then
    let s2 := (List.range 4).foldl (fun s x => if (s.ctx x).st = .free then s else s.requestSave x) s1
    (s2.setOch { s2.och with armed := false }).bump .ochCnt 0 0 1
  else if r + hyst < th then s1.setOch { s1.och with armed := true }
  else s1

/-- OCHRE_SAMPLE: the readings of one second are taken, the risk score is formed, and a save request, a derate or a replacement request may
follow (R413, R421, R422, R424, R425). -/
def execOchreSample (readings : List SensorReading) (s : State) : Host.Outcome State Fault Refusal :=
  let sens := readings.foldl (fun (m : AMap Nat) r => AMap.put (rawNew r.cls) (sensorKey r.cls r.part.val r.inst) r.raw m) s.och.sensors
  let s1 := s.setOch { s.och with sensors := sens }
  let r := s1.riskScore
  let day := fun (c : Nat) (m : AMap Nat) => AMap.put 0 c (AMap.get 0 c m + s1.classStress c) m
  let tick := fun (c : Nat) (m : AMap Nat) => AMap.put 0 c (AMap.get 0 c m + 1) m
  let s2 := (s1.setOch { s1.och with risk := r, daySum := day 1 (day 0 s1.och.daySum), dayCount := tick 1 (tick 0 s1.och.dayCount) }).setFld
    .ochStatus 0 0 7 0 r
  let s3 := s2.riskRequest r
  let s4 := (List.range 4).foldl (fun s p => s.derateOne p) s3
  .next ((List.range 4).foldl (fun s p => s.sparesCheck p) s4)

/-- The upper 90 % quantile of Student's t distribution with `f` degrees of freedom, in units of 10⁻⁴, for the 5 to 28 that a fit has. -/
def tQuantile (f : Nat) : Nat :=
  [14759, 14398, 14149, 13968, 13830, 13722, 13634, 13562, 13502, 13450, 13406, 13368, 13334, 13304, 13277, 13253, 13232, 13212, 13195,
   13178, 13163, 13150, 13137, 13125].getD (f - 5) 13125

/-- The life of a class from its daily means, oldest first, and its present stress (R423): the estimate and the lower bound in days, as
fractions, `none` where 0xFFFF is reported. Means are in units of 2⁻¹⁶. -/
def lifeOf (l : List Nat) (cur : Nat) : Option ((Nat × Nat) × (Nat × Nat)) :=
  let n := l.length
  if n < 7 then none
  else
    let sy : Int := (l.map (fun (y : Nat) => (y : Int))).foldl (· + ·) 0
    let sx : Int := (n * (n - 1) / 2 : Nat)
    let sxy : Int := (l.zipIdx.map (fun (e : Nat × Nat) => (e.1 * e.2 : Int))).foldl (· + ·) 0
    let syy : Int := (l.map (fun (y : Nat) => (y * y : Int))).foldl (· + ·) 0
    let sxx : Int := (((List.range n).map (fun i => i * i)).foldl (· + ·) 0 : Nat)
    let dx := n * sxx - sx * sx
    let dxy := n * sxy - sx * sy
    let dyy := n * syy - sy * sy
    if dxy ≤ 0 then none
    else
      let left := (255 - cur) * 65536
      let res := (dyy * dx - dxy * dxy).toNat
      let half := Nat.sqrt (res * tQuantile (n - 2) * tQuantile (n - 2) / (n - 2))
      some ((left * dx.toNat, dxy.toNat), (left * dx.toNat * 10000, dxy.toNat * 10000 + half))

/-- A fraction of days as a register shows it: its integer part, or that plus one where it is not whole, as a free value says (the manual states
no rounding), at most 0xFFFE. -/
def daysOf (q : Nat × Nat) (up : Nat) : Nat := min 0xFFFE (q.1 / q.2 + (if q.1 % q.2 = 0 then 0 else up))

/-- The values of OCH_LIFE, with the rounding of each of the four fractions. -/
def State.lifeVals (s : State) (up : Nat → Nat) : Nat × Nat :=
  let f := fun (sel : Nat × Nat → Nat) (cls i : Nat) => match lifeOf (s.och.means.map sel) (s.classStress cls) with
    | none => (0xFFFF, 0xFFFF)
    | some e => (daysOf e.1 (up i), daysOf e.2 (up (i + 1)))
  let a := f (fun e => e.1) 0 0
  let b := f (fun e => e.2) 1 2
  (min a.1 b.1, min a.2 b.2)

/-- LIFE_FIT: the day's mean stresses of classes 0 and 1 join the last 30, OCH_LIFE is fitted again, and a lower bound below LIFE_TH is a
replacement cause (R423, R425). -/
def execLifeFit (s : State) : Host.Outcome State Fault Refusal :=
  let mean := fun (c : Nat) => AMap.get 0 c s.och.daySum * 65536 / max 1 (AMap.get 0 c s.och.dayCount)
  let l := if AMap.get 0 0 s.och.dayCount = 0 then s.och.means else s.och.means ++ [(mean 0, mean 1)]
  let s1 := s.setOch { s.och with means := l.drop (l.length - 30), daySum := [], dayCount := [] }
  let v := s1.lifeVals (fun i => (Config.freeValue 1 (s.free + i)).toNat)
  let s2 := (s1.drawN 4).setReg .ochLife 0 0 (BitVec.ofNat 32 (v.1 + 2 ^ 16 * v.2))
  .next (if (s1.lifeVals (fun _ => 0)).2 < s.fld .ochCtrl 0 0 31 16 then s2.replaceCause 0 0 else s2)

end Sys2Proof.Machine
end

