-- ==== Sys2Proof/Machine/Indigo.lean ====
section
/-! DEFINITION. The Indigo engines: walks, edit batches, spill, staging and the ageing sweep (R210 to R231, R242). -/

namespace Sys2Proof.Machine

/-! ## Engines and descriptors -/

/-- Whether an engine serves walks and edits: IND_CTRL.ENABLE. -/
def State.indOn (s : State) (e : Nat) : Bool := natBit (s.reg .indCtrl e 0).toNat 0

/-- A sequence descriptor taken apart (R211). -/
structure SeqDesc where
  ptBase : Nat
  seqId : Nat
  tokens : Nat
  pagesMax : Nat
  layers : Nat
  home : Nat
  rank : Nat
  pos : Nat
  lakes : Bool
  sgen : Nat
  /-- no reserved value in a field -/
  ok : Bool
  deriving DecidableEq, Repr

/-- The descriptor that 64 bytes spell. -/
def seqOf (b : List Byte) : SeqDesc :=
  let f := fun lo hi => ofLeBytes ((b.drop lo).take (hi + 1 - lo))
  let h := f 16 16
  let r := f 17 18
  let p := f 19 19
  { ptBase := f 0 5, seqId := f 6 7, tokens := f 8 11, pagesMax := f 12 13, layers := f 14 15, home := 12 * natBits h 5 4 + natBits h 3 0
    rank := r, pos := if p = 0 then 0 else 16 * 2 ^ p, lakes := f 20 20 == 4, sgen := f 21 21
    ok := decide (1 ≤ f 14 15 ∧ f 14 15 ≤ 1024 ∧ natBits h 3 0 < 12 ∧ h < 64 ∧ r % 32 = 0 ∧ 32 ≤ r ∧ r ≤ 1024 ∧ p ≤ 3) &&
      (f 20 20 == 2 || f 20 20 == 4) && (b.drop 22).all (fun x => x == 0) && f 0 5 % 8 == 0 }

/-- The latent part of a token in bytes, rounded up to whole units (R212). -/
def SeqDesc.latent (q : SeqDesc) : Nat := if q.lakes then 64 * ceilDiv q.rank 48 else 64 * ceilDiv (2 * q.rank) 64

/-- TSTRIDE (R212). -/
def SeqDesc.tstride (q : SeqDesc) : Nat := 64 * ceilDiv (q.latent + 2 * q.pos) 64

/-- The page size (R212). -/
def SeqDesc.pageBytes (q : SeqDesc) : Nat := 64 * q.tstride

/-- The address of a page-table entry (R211). -/
def SeqDesc.pteAddr (q : SeqDesc) (layer j : Nat) : Nat := q.ptBase + 8 * (layer * q.pagesMax + j)

/-- A walk request taken apart (R215). -/
structure WalkForm where
  seq : Nat
  layer : Nat
  t0 : Nat
  t1 : Nat
  dest : Nat
  slots : Nat
  look : Nat
  t3Max : Nat
  tag : Nat
  done : Nat
  /-- no reserved value in a field; every address and token number that must be aligned is -/
  ok : Bool
  aligned : Bool
  deriving DecidableEq, Repr

/-- The request that 64 bytes spell. -/
def walkForm (b : List Byte) : WalkForm :=
  let f := fun lo hi => ofLeBytes ((b.drop lo).take (hi + 1 - lo))
  { seq := f 0 5, layer := f 6 7, t0 := f 8 11, t1 := f 12 15, dest := f 16 19, slots := f 20 20, look := f 21 21, t3Max := f 22 23
    tag := f 24 24, done := f 25 30
    ok := decide (2 ≤ f 20 20 ∧ f 20 20 ≤ 8) && (decide (f 21 21 < 64) || f 21 21 == 255) && (b.drop 31).all (fun x => x == 0)
    aligned := f 0 5 % 64 == 0 && f 8 11 % 64 == 0 && f 16 19 % 4096 == 0 && f 25 30 % 64 == 0 }

/-- Bytes of a buffer slot: one page in BF16 (R215, R217). -/
def SeqDesc.slotBytes (q : SeqDesc) : Nat := 128 * (q.rank + q.pos)

/-! ## The end of a walk or batch by a status -/

/-- A walk ends its context, or aborts the epoch that issued it (R214, R220, R242, R258, R300); the engine notes it in IND_ERR. -/
def State.walkFails (s : State) (e : Nat) (core x : Nat) (req : List Byte) (code : Nat) : State :=
  let s0 := if code = stPage then s.indErr e 0 else if code = stPoison then s.indErr e 2 else s
  match (s.core core).walks.find? (fun w => w.wtag == reqTag req) with
  | none => s0.endContext x (s.statusAt core 0 none code 6 0x02 false) 0x06
  | some w => s0.raiseAt core x w.word w.tag code 6 0x02 false 0x06

/-- A sequence named to its home engine, which then knows the place of its pages (log entry 91: DEDUCED). -/
def State.knowSeq (s : State) (h a : Nat) : State :=
  let e := s.ind h
  if e.seqs.contains a then s else s.setInd h { e with seqs := e.seqs ++ [a] }

/-! ## Walks -/

/-- WALK_REQUEST: an engine takes the oldest waiting request into a free walk slot and reads its sequence descriptor (R215); a walk whose home
engine has been reset and not enabled since ends its context (R242). -/
def execWalkRequest (e : Fin 48) (s : State) : Host.Outcome State Fault Refusal :=
  let n := e.val
  let g := s.ind n
  match g.waiting with
  | [] => .next s
  | r :: rest =>
    let w := walkForm r.req
    let q := seqOf (s.devRead w.seq 64)
    let gone := (s.ind q.home).wasReset
    if !s.indOn n && !gone || 32 ≤ g.walks.length then .next s
    else
      let s1 := (s.setInd n { g with waiting := rest }).demandUnit (.ind n)
      let fail := fun code => Host.Outcome.next (s1.walkFails n r.core r.slot r.req code)
      if !w.ok then fail stIllegal
      else if !w.aligned then fail stAlign
      else if !s.ctxMemStore r.slot w.done 64 then fail stPage
      else if !s.ctxRange r.slot w.seq 64 then fail stPage
      else if s.devPo w.seq 64 then fail stPoison
      else if !q.ok then fail stIllegal
      else if gone then fail stReset
      else if 0x400000 < w.dest + w.slots * q.slotBytes then fail stPage
      else
        let s2 := s1.setInd n { s1.ind n with walks := (s1.ind n).walks ++ [{ core := r.core, slot := r.slot, req := r.req, home := q.home }] }
        .next (s2.knowSeq q.home w.seq)

/-- Whether the frame of a mapping lies in the tier that it names and, for tier 0, in the device memory of the given partitions (R214). -/
def State.frameOk (s : State) (parts : BitVec 4) (t3 : Bool) (a n : Nat) : Bool :=
  match locOf a, locOf (a + n - 1) with
  | .mem p _, .mem q _ => !t3 && natBit parts.toNat p && natBit parts.toNat q
  | .tier3 w o, .tier3 w' o' => t3 && w == w' && (s.t3Host w o).isSome && (s.t3Host w' o').isSome
  | _, _ => false

/-- The status that a walk's pages raise, none where every one may be pinned (R214, R242). -/
def State.walkCheck (s : State) (parts : BitVec 4) (w : WalkForm) (q : SeqDesc) : Option Nat :=
  let js := (List.range (ceilDiv w.t1 64 - w.t0 / 64)).map (fun k => w.t0 / 64 + k)
  if q.tokens < w.t1 ∨ q.layers ≤ w.layer ∨ (js ≠ [] ∧ q.pagesMax * 64 < w.t1) then some stPage
  else if js.any (fun j => s.devPo (q.pteAddr w.layer j) 8) then some stPoison
  else if js.any (fun j =>
    let p := s.pte (q.pteAddr w.layer j)
    !ptePresent p || !s.frameOk parts (pteT3 p) (pteFrame p) q.pageBytes) then some stPage
  else none

/-- A spill of a page is cancelled when a batch or a walk changes its entry; its tier-3 frame returns to the pool (R226). -/
def State.cancelSpill (s : State) (h a : Nat) : State :=
  let e := s.ind h
  match e.spill with
  | none => s
  | some v => if v.1 = a then s.setInd h (({ e with spill := none } : Ind).freeFrame true v.2.2.1) else s

/-- One page pinned: PIN and LAST_USE written, and the mapping recorded (R216). -/
def State.pinPage (s : State) (h a : Nat) : State × WalkPage :=
  let p := s.pte a
  (((s.putPte a (pteSet (pteSet p 55 50 (ptePin p + 1)) 63 56 s.useNow)).cancelSpill h a),
   { pte := a, frame := pteFrame p, tier3 := pteT3 p, gen := pteGen p })

/-- Pages pinned in order. -/
def State.pinAll (s : State) (h : Nat) : List Nat → State × List WalkPage
  | [] => (s, [])
  | a :: t =>
    let r := s.pinPage h a
    let q := State.pinAll r.1 h t
    (q.1, r.2 :: q.2)

/-- The prefetch distance of a walk (R215, R228): LOOKAHEAD or the engine's default, or with POLICY set the policy's choice; a trap of the
policy is noted. -/
def State.distance (s : State) (e : Nat) (w : WalkForm) (q : SeqDesc) (h t3 : Nat) : State × Nat :=
  let d := if w.look = 255 then s.fld .indSpill e 0 21 16 else w.look
  if !natBit (s.reg .indCtrl e 0).toNat 1 || !natBit (s.reg .wldCtrl (448 + e) 0).toNat 0 then (s, d)
  else
    let vals := [q.seqId, w.layer, w.t0, w.t1, w.look, t3, (s.ind h).devFree.length]
    let io := vals.zipIdx.foldl (fun m v => AMap.put (0 : W32) v.2 (BitVec.ofNat 32 v.1) m) []
    match s.policyRun (448 + e) 1 (fun a => decide (a < 0x1C)) (fun _ => 0) io with
    | (s1, none) => (s1.indErr e 3, d)
    | (s1, some r) => (s1, if r.1.toNat < 64 then r.1.toNat else d)

/-- A deferral reported once for a walk: its excess of tier-3 pages extends the promise (R230, R326). -/
def State.deferWalk (s : State) (e x excess bytes : Nat) : State :=
  (s.bump .indCnt e 7 1).extend x 0x02 excess (excess * (1200 + ceilDiv bytes 121))

/-- A tier-3 page of a walk copied ahead: a free device frame and an entry of the home's staging map are taken (R229). -/
def State.stagePage (s : State) (h : Nat) (w : WalkPage) : State :=
  let e := s.ind h
  if !w.tier3 || e.staging.any (fun g => g.pte == w.pte && g.gen == w.gen) || 64 ≤ e.staging.length then s
  else match e.devFree with
    | [] => s
    | f :: t => s.setInd h { e with devFree := t, staging := e.staging ++ [{ pte := w.pte, src := w.frame, dst := f, gen := w.gen }] }

/-- The pages ahead of page `j` of a walk staged, while it is delivered (R229). -/
def State.stageAhead (s : State) (w : Walk) (j : Nat) : State :=
  ((w.list.drop (j + 1)).take w.dist).foldl (fun s p => s.stagePage w.home p) s

/-- The completion record of R219. -/
def doneRecord (kind tag sgen status count t3 : Nat) : List Byte :=
  leBytes 1 kind ++ leBytes 1 tag ++ leBytes 1 sgen ++ leBytes 1 status ++ leBytes 4 count ++ leBytes 4 t3 ++ List.replicate 52 0

/-- The walk of a walk slot replaced. -/
def State.putWalk (s : State) (e : Nat) (w w1 : Walk) : State :=
  let g := s.ind e
  s.setInd e { g with walks := g.walks.map (fun x => if x = w then w1 else x) }

/-- A walk whose last page has been released: its completion record is written, and its slot freed (R218, R219). -/
def State.walkDone (s : State) (e : Nat) (w : Walk) : State :=
  let f := walkForm w.req
  let g := s.ind e
  let s1 := (s.setInd e { g with walks := g.walks.filter (fun x => x != w) }).bump .indCnt e 0 1
  let r := s1.performWrite w.slot (unitPiece f.done (doneRecord 1 f.tag w.sgen 0 w.delivered w.t3Pages) false)
  if r.2 then r.1.walkFails e w.core w.slot w.req stPage else r.1

/-- PIN_PHASE: the home engine pins the pages of a walk and records its walk list; a walk that may not pin ends its context and pins nothing,
and a PIN at 63 makes the phase wait (R214, R216, R223, R228, R230, R242). -/
def execPinPhase (e : Fin 48) (i : Nat) (s : State) : Host.Outcome State Fault Refusal :=
  let n := e.val
  match (s.ind n).walks[i]? with
  | none => .next s
  | some w =>
    let f := walkForm w.req
    let q := seqOf (s.devRead f.seq 64)
    let h := w.home
    let ptes := (List.range (ceilDiv f.t1 64 - f.t0 / 64)).map (fun k => q.pteAddr f.layer (f.t0 / 64 + k))
    let drop := s.setInd n { s.ind n with walks := (s.ind n).walks.filter (fun x => x != w) }
    if w.pinned then .next s
    else if (s.ind h).wasReset then .next (drop.walkFails n w.core w.slot w.req stReset)
    else if !s.indOn h then .next s
    else if s.devPo f.seq 64 then .next (drop.walkFails n w.core w.slot w.req stPoison)
    else if !q.ok then .next (drop.walkFails n w.core w.slot w.req stIllegal)
    else match s.walkCheck (s.ctx w.slot).parts f q with
      | some code => .next (drop.walkFails n w.core w.slot w.req code)
      | none =>
        if ptes.any (fun a => ptePin (s.pte a) == 63) then
          .next (if w.waited then s else (s.putWalk n w { w with waited := true }).bump .indCnt n 6 1)
        else
          let r := s.pinAll h ptes
          let t3 := (r.2.filter (fun p => p.tier3)).length
          let d := r.1.distance n f q h t3
          let late := decide (f.t3Max < t3)
          let w1 : Walk := { w with pinned := true, sgen := q.sgen, list := r.2, t3Pages := t3, dist := d.2, deferred := late }
          let s1 := (d.1.putWalk n w w1).stageAhead w1 0
          let s2 := if late then s1.deferWalk n w.slot (t3 - f.t3Max) q.pageBytes else s1
          .next (if ptes = [] then s2.walkDone n w1 else s2)

/-! ## The page-table area and the order of spill -/

/-- The page-table area of an engine: base and end (R225). -/
def State.ptaRange (s : State) (e : Nat) : Nat × Nat :=
  let v := s.reg .indPta e 0
  (bitsOf v 27 0 * 2 ^ 20, bitsOf v 27 0 * 2 ^ 20 + 2 ^ (20 + bitsOf v 31 28))

/-- The page-table entries of an engine's area that are not zero, by address. -/
def State.ptes (s : State) (e : Nat) : List Nat :=
  let r := s.ptaRange e
  ((s.mem.bytes.filter (fun b => decide (r.1 ≤ b.1 ∧ b.1 < r.2))).map (fun b => b.1 / 8 * 8)).eraseDups

/-- The place of a page in its sequence: SEQ_ID, layer and page, as the sequences known to the engine give it; a page of none of them follows the
others, by address (log entry 91: DEDUCED). -/
def State.pagePlace (s : State) (e a : Nat) : Nat × Nat × Nat :=
  match (s.ind e).seqs.find? (fun d =>
      let q := seqOf (s.devRead d 64)
      decide (q.ptBase ≤ a ∧ a < q.ptBase + 8 * (q.layers * q.pagesMax))) with
  | none => (65536, a, 0)
  | some d =>
    let q := seqOf (s.devRead d 64)
    let k := (a - q.ptBase) / 8
    (q.seqId, k / q.pagesMax, k % q.pagesMax)

/-- The age of an entry (R227). -/
def State.age (s : State) (p : Nat) : Nat := (s.useNow + 256 - natBits p 63 56) % 256

/-- Whether entry `a` goes before entry `b` in the default order of spill: greater age, then SEQ_ID, layer, page (R227). -/
def State.spillBefore (s : State) (e a b : Nat) : Bool :=
  let x := s.age (s.pte a)
  let y := s.age (s.pte b)
  let p := s.pagePlace e a
  let q := s.pagePlace e b
  if x ≠ y then decide (y < x)
  else if p.1 ≠ q.1 then decide (p.1 < q.1)
  else if p.2.1 ≠ q.2.1 then decide (p.2.1 < q.2.1) else decide (p.2.2 < q.2.2)

/-- An entry placed in a list in that order. -/
def State.spillInsert (s : State) (e a : Nat) : List Nat → List Nat
  | [] => [a]
  | b :: t => if s.spillBefore e a b then a :: b :: t else b :: State.spillInsert s e a t

/-- The pages that may be spilled: present, unpinned, in tier 0, with a frame of the engine's device pool; in the default order (R226,
R227). -/
def State.candidates (s : State) (e : Nat) : List Nat :=
  let pool := s.poolFrames e false
  let l := (s.ptes e).filter (fun a =>
    let p := s.pte a
    ptePresent p && !pteT3 p && ptePin p == 0 && pool.contains (pteFrame p))
  l.foldl (fun m a => s.spillInsert e a m) []

/-- Whether a spill may yet give the engine a free device frame: one is under way, or its conditions hold (R226, R230). -/
def State.canSpill (s : State) (e : Nat) : Bool :=
  let g := s.ind e
  g.spill.isSome || (decide (g.devFree.length < s.fld .indSpill e 0 15 0) && !g.t3Free.isEmpty && !(s.candidates e).isEmpty)

/-- Whether a tier-3 page with no staged copy is delivered directly: the staging map is full, or no device frame is free and none can be spilled
(R230). -/
def State.direct (s : State) (e : Nat) : Bool :=
  decide (64 ≤ (s.ind e).staging.length) || ((s.ind e).devFree.isEmpty && !s.canSpill e)

/-! ## Delivery -/

/-- The BF16 codes of the latent part of a token with their poison, in units of 32 columns (R212, R231), and the NaNs that malformed or NaN
blocks count. -/
def State.latentRow (s : State) (q : SeqDesc) (a : Nat) : List (List Nat × Bool) × Nat :=
  let blocks := List.range (q.rank / 32)
  if !q.lakes then
    (blocks.map (fun b => ((List.range 32).map (fun j => s.devNum (a + 64 * b + 2 * j) 2), s.devPo (a + 64 * b) 64)), 0)
  else
    let t : TD := { tdOf 0 with fmt := 4, block := false, rot := false }
    let ls := (List.range (ceilDiv q.rank 48)).map (fun l => lakeOf t (s.devRead (a + 64 * l) 64) (s.devPo (a + 64 * l) 64) (q.rank - 48 * l))
    let po := ls.any (fun l => l.poisoned)
    let bad := ls.any (fun l => !l.poisoned && l.malformed)
    let code := fun k => if bad then bf16.nanCode else match ls[k / 48]? with
      | some l => (bf16.round .rne 0 false (l.value 16 (k % 48))).1
      | none => 0
    (blocks.map (fun b => ((List.range 32).map (fun j => code (32 * b + j)), po)),
     ((ls.filter (fun l => !l.poisoned)).map (fun l => l.nans)).foldl (· + ·) 0)

/-- The pieces of one token row of a delivered page at a buffer slot's address: T32 tiles of the latent and the positional part (R87, R217). A
row at T1 or beyond is +0. -/
def State.rowPieces (s : State) (q : SeqDesc) (src dst t : Nat) (valid : Bool) : List Piece × Nat :=
  let unit := fun (base cols b : Nat) => base + t / 32 * (cols / 32) * 2048 + b * 2048 + t % 32 * 64
  let a := src + t * q.tstride
  let lat := if valid then s.latentRow q a else ((List.range (q.rank / 32)).map (fun _ => (List.replicate 32 0, false)), 0)
  let pos := (List.range (q.pos / 32)).map (fun b =>
    let u := a + q.latent + 64 * b
    if valid then (s.devRead u 64, s.devPo u 64) else (List.replicate 64 0, false))
  ((lat.1.zipIdx.map (fun e => ({ addr := unit dst q.rank e.2, data := e.1.1.flatMap (fun c => leBytes 2 c), po := e.1.2 } : Piece))) ++
   (pos.zipIdx.map (fun e => ({ addr := unit (dst + 128 * q.rank) q.pos e.2, data := e.1.1, po := e.1.2 } : Piece))), lat.2)

/-- PAGE_DELIVERED: the next page of a pinned walk is widened into its buffer slot, which is free, and the slot's ready flag is set with its
valid rows. A tier-3 page comes from its staged copy; one that has none is copied first where a device frame is or can be free, and comes
directly otherwise (R217, R229 to R231; log entry 132: DEDUCED). -/
def execPageDelivered (e : Fin 48) (i : Nat) (s : State) : Host.Outcome State Fault Refusal :=
  let n := e.val
  match (s.ind n).walks[i]? with
  | none => .next s
  | some w =>
    let f := walkForm w.req
    let j := w.delivered
    match w.list[j]? with
    | none => .next s
    | some p =>
      let staged := (s.ind w.home).staging.find? (fun g => g.pte == p.pte && g.gen == p.gen)
      let waits := match staged with
        | some g => !g.ready
        | none => false
      if !w.pinned || (decide (f.slots ≤ j) && !w.rel.contains (j - f.slots)) || waits then .next s
      else if p.tier3 && staged.isNone && !s.direct w.home then .next (s.stagePage w.home p)
      else
        let q := seqOf (s.devRead f.seq 64)
        let src := match staged with
          | some g => g.dst
          | none => p.frame
        let first := 64 * (f.t0 / 64 + j)
        let rows := min 64 (f.t1 - first)
        let slot := j % f.slots
        let dst := f.dest + slot * q.slotBytes
        let rs := (List.range 64).map (fun t => s.rowPieces q src dst t (decide (t < rows)))
        let nans := (rs.map (fun r => r.2)).foldl (· + ·) 0
        let s1 := ((s.localWrite w.core (rs.flatMap (fun r => r.1))).bump .morCnt w.core 1 nans).chargeRuns (.slot w.slot) [(src, q.pageBytes)]
        let c := s1.core w.core
        let s2 := s1.setCore w.core { c with walks := c.walks.map (fun v =>
          if v.wtag = f.tag ∧ v.eng = n then { v with ready := AMap.put (false, 0) slot (true, rows) v.ready } else v) }
        let direct := p.tier3 && staged.isNone
        let full := direct && decide (64 ≤ (s.ind w.home).staging.length) && !w.deferred
        let w1 : Walk := { w with delivered := j + 1, deferred := w.deferred || full }
        let s3 := (s2.bump .indCnt n 1 1).bump .indCnt n 2 (bit direct)
        let s4 := (s3.putWalk n w w1).stageAhead w1 (j + 1)
        .next (if full then s4.deferWalk n w.slot 1 q.pageBytes else s4)

/-- SLOT_RELEASE: the next release that a core has sent for a walk: its page is unpinned, and after the last page the completion record is
written (R218, R224, R229). The record's unit waits while a save must capture it (R415). A poisoned retire record ends the walking context
(R242). -/
def execSlotRelease (e : Fin 48) (i : Nat) (s : State) : Host.Outcome State Fault Refusal :=
  let n := e.val
  match (s.ind n).walks[i]? with
  | none => .next s
  | some w =>
    let f := walkForm w.req
    match w.relq with
    | [] => .next s
    | sl :: rest =>
      match (List.range w.delivered).find? (fun j => j % f.slots == sl && !w.rel.contains j) with
      | none => .next (s.putWalk n w { w with relq := rest })
      | some j =>
        let w1 : Walk := { w with relq := rest, rel := w.rel ++ [j] }
        let last := decide (w.list.length ≤ w1.rel.length)
        if last && s.captureHolds f.done then .next (s.await [f.done])
        else match w.list[j]? with
          | none => .next s
          | some p =>
            if (s.retireOf w.home p).any (fun r => r.po) then
              .next ((s.setInd n { s.ind n with walks := (s.ind n).walks.filter (fun x => x != w) }).walkFails n w.core w.slot w.req stPoison)
            else
              let s1 := (s.putWalk n w w1).unpin w.home p
              .next (if last then s1.walkDone n w1 else s1)

/-! ## Copies between tiers -/

/-- A page copied between frames with the poison of its units; a unit that the memory path refuses is not written (R107, R340, R342). -/
def State.copyFrame (s : State) (src dst n : Nat) : State :=
  let ps := (List.range (n / 64)).map (fun k =>
    ({ addr := dst + 64 * k, data := s.devRead (src + 64 * k) 64, po := s.devPo (src + 64 * k) 64 } : Piece))
  let s1 := (ps.filter (fun p => !isT3 p.addr)).foldl (fun s p => s.rawUnit p.addr (fun m => m.write [p])) s
  (s1.putHost (ps.filter (fun p => isT3 p.addr))).chargeRuns (s.ownerOf src) [(src, n), (dst, n)]

/-- STAGE_COPY_DONE: a copy into a staging frame ends; the page is promoted at once when it is unpinned, and a copy of a mapping that is gone is
dropped (R229). -/
def execStageCopyDone (e : Fin 48) (i : Nat) (s : State) : Host.Outcome State Fault Refusal :=
  let n := e.val
  let g := s.ind n
  match g.staging[i]? with
  | none => .next s
  | some v =>
    if v.ready then .next s
    else
      let used := pteGen (s.pte v.pte) == v.gen ||
        (List.range 48).any (fun k => (s.ind k).walks.any (fun w => w.list.any (fun p => p.pte == v.pte && p.gen == v.gen)))
      if !used then .next (s.setInd n (({ g with staging := g.staging.filter (fun x => x != v) } : Ind).freeFrame false v.dst))
      else
        let s1 := (s.copyFrame v.src v.dst (s.frameBytes n)).bump .indCnt n 3 1
        let g1 := s1.ind n
        .next ((s1.setInd n { g1 with staging := g1.staging.map (fun x => if x = v then { x with ready := true } else x) }).promote n v.pte)

/-! ## Enabling an engine -/

/-- What setting ENABLE does: PIN cleared in every entry of the area, retire list and staging map emptied, the free lists rebuilt from PRESENT
and FRAME (R225). -/
def State.enableInd (s : State) (e : Nat) : State :=
  let l := s.ptes e
  let s1 := l.foldl (fun s a => s.putPte a (pteSet (s.pte a) 55 50 0)) s
  let held := fun (t3 : Bool) => (l.filter (fun a => ptePresent (s1.pte a) && pteT3 (s1.pte a) == t3)).map (fun a => pteFrame (s1.pte a))
  let free := fun (t3 : Bool) => (s1.poolFrames e t3).filter (fun f => !(held t3).contains f)
  let g := s1.ind e
  s1.setInd e { g with retire := [], staging := [], devFree := free false, t3Free := free true, spill := none, edits := g.edits.map (fun r => { r with taken := [] }), wasReset := false, seqs := [] }

/-- A write of IND_CTRL (R225): ENABLE from 0 to 1 performs the rebuild. -/
def State.wrIndCtrl (s : State) (e : Nat) (v : W32) : State :=
  if !s.blkOpen .ind e || !s.lockOpen .ind e then s
  else
    let was := s.indOn e
    let s1 := s.setReg .indCtrl e 0 (v &&& 3#32)
    if natBit v.toNat 0 && !was then s1.enableInd e else s1

/-- IND_ENABLE: software sets ENABLE (R225). -/
def execIndEnable (e : Fin 48) (s : State) : Host.Outcome State Fault Refusal := .next (s.wrIndCtrl e.val (s.reg .indCtrl e.val 0 ||| 1#32))

/-- A write of IND_EDIT_HI submits a runtime batch (R221). -/
def State.wrIndEdit (s : State) (e : Nat) (v : W32) : State :=
  if !s.blkOpen .ind e then s
  else
    let s1 := s.setReg .indEditHi e 0 (v &&& 0xFFFF#32)
    let g := s1.ind e
    s1.setInd e { g with edits := g.edits ++ [{ addr := s1.regAddr .indEditLo .indEditHi e 0 / 64 * 64 }] }

/-- IND_EDIT_SUBMIT (R221). -/
def execIndEditSubmit (e : Fin 48) (v : W32) (s : State) : Host.Outcome State Fault Refusal := .next (s.wrIndEdit e.val v)

/-! ## Edit batches -/

/-- One operation of a batch (R222). -/
structure EditOp where
  op : Nat
  layer : Nat
  page : Nat
  frame : Nat
  tier3 : Bool
  /-- no reserved value in a field -/
  ok : Bool
  deriving DecidableEq, Repr

/-- The operation that 16 bytes spell. -/
def editOp (b : List Byte) : EditOp :=
  let f := fun lo hi => ofLeBytes ((b.drop lo).take (hi + 1 - lo))
  { op := f 0 0, layer := f 2 3, page := f 4 7, frame := f 8 12 * 256, tier3 := natBit (f 13 13) 0
    ok := decide (1 ≤ f 0 0 ∧ f 0 0 ≤ 3) && f 1 1 == 0 && f 14 15 == 0 && decide (f 13 13 < 2) }

/-- An entry's old mapping given up (R224): a pinned one moves into a retire record, else its frame returns to its pool; none where the retire
list is full. -/
def State.retireMap (s : State) (h a : Nat) : Option State :=
  let p := s.pte a
  let e := s.ind h
  if !ptePresent p then some s
  else if ptePin p ≠ 0 then
    (if 256 ≤ e.retire.length then none
    else some (s.setInd h { e with retire := e.retire ++ [{ frame := pteFrame p, tier3 := pteT3 p, count := ptePin p }] }))
  else
    let stale := e.staging.filter (fun g => g.pte == a)
    let e1 : Ind := { e with staging := e.staging.filter (fun g => g.pte != a) }
    let e2 := stale.foldl (fun (e : Ind) g => e.freeFrame false g.dst) e1
    some (s.setInd h (s.giveFrame h e2 (pteT3 p) (pteFrame p)))

/-- One operation applied (R221, R223, R224); none where it waits for a free frame or a retire record. -/
def State.editOne (s : State) (h : Nat) (q : SeqDesc) (o : EditOp) : Option State :=
  let a := q.pteAddr o.layer o.page
  match (s.cancelSpill h a).retireMap h a with
  | none => none
  | some s1 =>
    let p := s1.pte a
    let g := fun (p : Nat) => pteSet (pteSet p 49 42 (pteGen p + 1)) 55 50 0
    let e := s1.ind h
    let mapAt := fun (f t3 : Nat) => g (pteSet (pteSet (pteSet p 39 0 (f / 256)) 40 40 t3) 41 41 1)
    if o.op = 1 then
      match e.devFree with
      | [] => none
      | f :: t => some ((s1.setInd h { e with devFree := t }).putPte a (mapAt f 0))
    else if o.op = 2 then
      some ((s1.setInd h { e with devFree := e.devFree.filter (fun f => o.tier3 || f != o.frame)
                                  t3Free := e.t3Free.filter (fun f => !o.tier3 || f != o.frame) }).putPte a (mapAt o.frame (bit o.tier3)))
    else some (s1.putPte a (g (pteSet p 41 41 0)))

/-- The operations applied in order; none where the batch waits. -/
def State.editAll (s : State) (h : Nat) (q : SeqDesc) : List EditOp → Option State
  | [] => some s
  | o :: t => match s.editOne h q o with
    | none => none
    | some s1 => State.editAll s1 h q t

/-- The status that a batch of an engine raises before it is applied, 0 where it may be (R222, R242). -/
def State.editCheck (s : State) (ok : Nat → Nat → Bool) (parts : BitVec 4) (addr : Nat) : Nat :=
  let b := s.devRead addr 64
  let f := fun lo hi => ofLeBytes ((b.drop lo).take (hi + 1 - lo))
  let nops := f 10 11
  let ops := (List.range nops).map (fun k => editOp (s.devRead (addr + 64 + 16 * k) 16))
  let q := seqOf (s.devRead (f 0 5) 64)
  if !ok addr 64 then stPage
  else if s.devPo addr 64 then stPoison
  else if nops = 0 ∨ 1024 < nops ∨ (b.drop 19).any (fun x => x != 0) then stIllegal
  else if !ok addr (64 + 16 * nops) || (f 12 17 != 0 && !ok (f 12 17) 64) then stPage
  else if s.devPo addr (64 + 16 * nops) || s.devPo (f 0 5) 64 then stPoison
  else if !q.ok || f 12 17 % 64 != 0 || ops.any (fun o => !o.ok || decide (q.layers ≤ o.layer) || decide (q.pagesMax ≤ o.page)) then stIllegal
  else if ops.any (fun o => s.devPo (q.pteAddr o.layer o.page) 8) then stPoison
  else if ops.any (fun o => o.op == 2 && !s.frameOk parts o.tier3 o.frame q.pageBytes) then stPage
  else 0

/-- The completion record of a batch, where it names one (R219, R222). -/
def State.editRecord (s : State) (core : Option (Nat × Nat)) (done tag sgen status count : Nat) : State :=
  if done = 0 then s
  else
    let u := unitPiece done (doneRecord 2 tag sgen status count 0) false
    match core with
    | some (_, x) => (s.performWrite x u).1
    | none => if (s.regionAt done).isSome then s.noteRefused done else s.putUnit u (done / 64) false 64

/-- EDIT_BATCH: an engine applies its oldest batch as one unit: GEN, TOKENS and SGEN change together (R221 to R224). It waits while ENABLE is
clear, while earlier writes of the submitting core are under way, for a frame or a retire record, and while a save must capture what it
writes (R415). A batch short of frames takes those that are free, so that the pool is empty and spills (log entry 131: DEDUCED). -/
def execEditBatch (e : Fin 48) (s : State) : Host.Outcome State Fault Refusal :=
  let n := e.val
  let g := s.ind n
  match g.edits with
  | [] => .next s
  | r :: rest =>
    let busy := match r.core with
      | some (k, _) => (s.core k).xfers.any (fun t => t.kind == 2 || t.kind == 3) || !(s.core k).vwq.isEmpty
      | none => false
    if !s.indOn n || busy then .next s
    else
      let parts := match r.core with
        | some (_, x) => (s.ctx x).parts
        | none => BitVec.ofNat 4 (2 ^ (n / 12))
      let inParts := fun a => match locOf a with
        | .mem p _ => natBit parts.toNat p
        | .store p _ => natBit parts.toNat p
        | _ => false
      let ok := fun a len => inParts a && inParts (a + len - 1)
      let b := s.devRead r.addr 64
      let f := fun lo hi => ofLeBytes ((b.drop lo).take (hi + 1 - lo))
      let code := s.editCheck ok parts r.addr
      let s1 := (s.setInd n { g with edits := rest, devFree := r.taken ++ g.devFree }).demandUnit (.ind n)
      if ok (f 12 17) 64 && s.captureHolds (f 12 17) then .next (s.await [f 12 17])
      else if code ≠ 0 then
        let s2 := if code = stIllegal ∧ ok (f 12 17) 64 ∧ f 12 17 % 64 = 0 ∨ code = stPage ∧ ok r.addr 64 ∧ ok (f 12 17) 64 then
            s1.editRecord r.core (f 12 17) (f 18 18) (seqOf (s.devRead (f 0 5) 64)).sgen code 0 else s1
        let s3 := if code = stPage then s2.indErr n 0 else if code = stPoison then s2.indErr n 2 else s2
        match r.core with
        | some (k, x) => .next (s3.endContext x (s.statusAt k r.word none code 6 0x02 false) 0x06)
        | none => .next s3
      else
        let q := seqOf (s.devRead (f 0 5) 64)
        let ops := (List.range (f 10 11)).map (fun k => editOp (s.devRead (r.addr + 64 + 16 * k) 16))
        let puts := f 0 5 :: ops.map (fun o => q.pteAddr o.layer o.page)
        if puts.any (fun a => s.captureHolds a) then .next (s.await puts)
        else match (s1.knowSeq n (f 0 5)).editAll n q ops with
          | none =>
            let short := decide ((r.taken ++ g.devFree).length < (ops.filter (fun o => o.op == 1)).length)
            .next (if short then s.setInd n { g with edits := { r with taken := r.taken ++ g.devFree } :: rest, devFree := [] } else s)
          | some s2 =>
            let s3 := (s2.rawWrite (f 0 5 + 8) (leBytes 4 (f 6 9))).rawWrite (f 0 5 + 21) (leBytes 1 (q.sgen + 1))
            .next ((s3.bump .indCnt n 5 1).editRecord r.core (f 12 17) (f 18 18) ((q.sgen + 1) % 256) 0 (f 10 11))

/-! ## Spill -/

/-- The page that a policy chooses among the first 64 candidates, the first by default (R227, R228). -/
def State.spillChoice (s : State) (e : Nat) (l : List Nat) : State × Nat :=
  let c := l.take 64
  let first := c.headD 0
  if !natBit (s.reg .indCtrl e 0).toNat 1 || !natBit (s.reg .wldCtrl (448 + e) 0).toNat 0 then (s, first)
  else
    let words := [c.length, (s.ind e).devFree.length, s.fld .indSpill e 0 15 0, 0] ++ c.flatMap (fun a =>
      let p := s.pagePlace e a
      [p.1 % 65536 + p.2.1 % 65536 * 65536, p.2.2, s.age (s.pte a) + 256 * pteGen (s.pte a), 0])
    let io := words.zipIdx.foldl (fun m v => AMap.put (0 : W32) v.2 (BitVec.ofNat 32 v.1) m) []
    match s.policyRun (448 + e) 0 (fun a => decide (a < 0x410)) (fun _ => 0) io with
    | (s1, none) => (s1.indErr e 3, first)
    | (s1, some r) => (s1, c.getD r.1.toNat first)

/-- SPILL_PAGE: with fewer free device frames than LOW_WM, the engine chooses a page and starts its copy into a free tier-3 frame (R226 to
R228). -/
def execSpillPage (e : Fin 48) (s : State) : Host.Outcome State Fault Refusal :=
  let n := e.val
  let g := s.ind n
  let l := s.candidates n
  match g.t3Free with
  | [] => .next s
  | f :: t =>
    if !s.indOn n || g.spill.isSome || decide (s.fld .indSpill n 0 15 0 ≤ g.devFree.length) || l.isEmpty || !s.frameOk 0 true f (s.frameBytes n) then
      .next s
    else
      let r := (s.demandUnit (.ind n)).spillChoice n l
      let p := r.1.pte r.2
      .next (r.1.setInd n { r.1.ind n with t3Free := t, spill := some (r.2, pteFrame p, f, pteGen p) })

/-- SPILL_COPY_DONE: the copy of a page into tier 3 ends: FRAME and TIER move, GEN rises, and the device frame is free (R226). -/
def execSpillCopyDone (e : Fin 48) (s : State) : Host.Outcome State Fault Refusal :=
  let n := e.val
  let g := s.ind n
  match g.spill with
  | none => .next s
  | some (a, f, t3, gen) =>
    let p := s.pte a
    if pteGen p ≠ gen ∨ ptePin p ≠ 0 then .next (s.cancelSpill n a)
    else
      let s1 := (s.copyFrame f t3 (s.frameBytes n)).bump .indCnt n 4 1
      let s2 := s1.putPte a (pteSet (pteSet (pteSet p 39 0 (t3 / 256)) 40 40 1) 49 42 (gen + 1))
      .next (s2.setInd n (({ s2.ind n with spill := none } : Ind).freeFrame false f))

/-- AGEING_SWEEP: once per second, LAST_USE of every unpinned page older than 192 is set so that its age is 192 (R227). -/
def execAgeingSweep (e : Fin 48) (s : State) : Host.Outcome State Fault Refusal :=
  let n := e.val
  let sec := s.tim.now.toNat / 1000000000
  if !s.indOn n || (s.ind n).swept == sec then .next s
  else
    let l := (s.ptes n).filter (fun a => ptePresent (s.pte a) && ptePin (s.pte a) == 0 && decide (192 < s.age (s.pte a)))
    let s1 := l.foldl (fun s a => s.putPte a (pteSet (s.pte a) 63 56 (s.useNow + 64))) s
    .next (s1.setInd n { s1.ind n with swept := sec })

end Sys2Proof.Machine
end

