-- ==== Sys2Proof/Machine/LinkMsg.lean ====
section
/-! DEFINITION. What a Ferdo port receives, and its timers and training (R356 to R370). -/

namespace Sys2Proof.Machine

/-- Whether a message for a slot is discarded: no bound context, or one that has ended (R370). -/
def State.deaf (s : State) (x : Nat) : Bool :=
  let st := (s.ctx x).st
  st == .free || st == .draining || st == .halted

/-- PUT_REQ: answered with PUT_GO when the slot here has posted an LRECV on the channel from that source, else kept until one is
(R369, R370). -/
def execPutReq (link : Fin 48) (h : FlitHead) (g : PutMsg) (s : State) : Host.Outcome State Fault Refusal :=
  recv link.val h 1 2 s (fun s =>
    let s1 := s.recvMsg link.val h 1 2
    let x := g.slot.val
    let ch := g.ch.val
    let v := s1.chan x ch
    if s1.deaf x then s1
    else if v.posted && !v.full && v.src == g.src.toNat then (s1.setChan x ch { v with mseq := g.mseq + 1 }).answerPut x ch g.src.toNat g.offset
    else s1.setChan x ch { v with reqs := v.reqs ++ [(g.src.toNat, g.offset, g.mseq)] })

/-- PUT_GO: the tile is sent as PUT_DATA messages of at most 4 KiB in ascending offset, as far as the length accepted (R369, R370). -/
def execPutGo (link : Fin 48) (h : FlitHead) (g : PutMsg) (s : State) : Host.Outcome State Fault Refusal :=
  recv link.val h 1 2 s (fun s =>
    let s1 := s.recvMsg link.val h 1 2
    let x := g.slot.val
    if s1.deaf x then s1
    else match (s1.ctx x).sending.find? (fun q => q.ch == g.ch.val && q.dst == g.src.toNat && !q.gone) with
      | none => s1
      | some q =>
        let c := s1.ctx x
        let s2 := s1.setCtx x { c with sending := c.sending.replace q { q with gone := true } }
        let data := q.data.take g.offset
        (chunks 4096 data.length data).zipIdx.foldl (fun s p =>
          s.sendPut (q.core / 100) x q.ch q.dst 2 (4096 * p.2) p.1 ((q.po.drop (64 * p.2)).take 64)) s2)

/-- Bytes placed in a list of runs from a byte offset, as pieces with one poison. -/
def placeRuns : List (Nat × Nat) → Nat → List Byte → Bool → List Piece
  | [], _, _, _ => []
  | r :: t, off, b, po =>
    if r.2 ≤ off then placeRuns t (off - r.2) b po
    else
      let k := min b.length (r.2 - off)
      if b.length ≤ k then (if b = [] then [] else [{ addr := r.1 + off, data := b, po := po }])
      else { addr := r.1 + off, data := b.take k, po := po } :: placeRuns t 0 (b.drop k) po

/-- Whether a PUT_DATA comes before one of its tile that has not arrived: the next in MSEQ order is the one at the next offset, and no earlier
than the last (R357, R369, R370; log entry 77: DEDUCED). -/
def Chan.early (v : Chan) (g : PutMsg) : Bool := (g.mseq - v.mseq).msb || g.offset != v.got

/-- PUT_DATA: written into the posted buffer in MSEQ order, poisoned units poisoned; with the whole tile written PUT_DONE leaves, and with
the buffer full LWAIT event 0 has come (R369, R370). A message that is not the next in order has no effect until it is (log entry 77: DEDUCED). -/
def execPutData (link : Fin 48) (h : FlitHead) (g : PutMsg) (s : State) : Host.Outcome State Fault Refusal :=
  let n := link.val
  let k := 1 + ceilDiv g.data.length 64
  recv n h k 2 s (fun s =>
    let x := g.slot.val
    let ch := g.ch.val
    let v := s.chan x ch
    let fits := v.posted && !v.full && v.src == g.src.toNat
    if !s.deaf x && fits && v.early g then s
    else
      let s1 := s.recvMsg n h k 2
      if s1.deaf x || !fits then s1
      else
        let ps := (payloads g.data).zipIdx.flatMap (fun p =>
          placeRuns v.runs (g.offset + 64 * p.2) ((g.data.drop (64 * p.2)).take 64) (g.poison.getD p.2 false))
        let w := if v.dev then s1.performWrite x ps else (s1.localWrite v.core ps, false)
        if w.2 then w.1.endBy x stPage 0x08
        else
          let v1 := w.1.chan x ch
          let got := v1.got + g.data.length
          let full := decide (runsLen v.runs ≤ got)
          let s2 := w.1.setChan x ch { v1 with got := got, full := full, mseq := g.mseq + 1 }
          let s3 := if v.len ≤ got then s2.sendPut (v.core / 100) x ch g.src.toNat 3 0 [] [] else s2
          if full then s3.releaseAll x else s3)

/-- PUT_DONE: an LSEND is acknowledged for LFENCE (R369). -/
def execPutDone (link : Fin 48) (h : FlitHead) (g : PutMsg) (s : State) : Host.Outcome State Fault Refusal :=
  recv link.val h 1 2 s (fun s =>
    let s1 := s.recvMsg link.val h 1 2
    let x := g.slot.val
    if s1.deaf x then s1
    else match (s1.ctx x).sending.find? (fun q => q.ch == g.ch.val && q.dst == g.src.toNat && q.gone) with
      | none => s1
      | some q =>
        let c := s1.ctx x
        let k := s1.core q.core
        (s1.setCtx x { c with sending := c.sending.erase q }).setCore q.core { k with lsendOut := k.lsendOut - 1 })

/-- The HEAD of a message that goes on: as it came, with HPTR + 1 (R362). -/
def RawMsg.onward (g : RawMsg) : Head :=
  { dst := g.dst.toNat, src := g.src.toNat, hops := g.hops, hptr := g.hptr + 1, route := g.route.map (fun r => r.val), msg := g.msg.toNat
    ctx := g.ctx.toNat, ch := g.ch.toNat, tag := g.tag.toNat, stage := g.stage.toNat, offset := g.offset.toNat, mseq := g.mseq.toNat }

/-- MESSAGE_FORWARD: a message with HPTR below HOPS goes on over ROUTE[HPTR] with HPTR + 1, its payloads and their poison as they came; with HPTR
above HOPS, a route over a link that is not up, or HPTR = HOPS and another device's DST, it is discarded with MISROUTE; else it is delivered
here, to the Umber controller (R362, R364). -/
def execMessageForward (link : Fin 48) (h : FlitHead) (g : RawMsg) (s : State) : Host.Outcome State Fault Refusal :=
  let n := link.val
  let k := 1 + g.ndata
  recv n h k g.tc.val s (fun s =>
    let back := s.recvMsg n h k g.tc.val
    let out := ((g.route.map (fun r => r.val)).getD g.hptr 63)
    if g.hops < g.hptr then back.lnkErr n 4
    else if g.hptr = g.hops then (if g.dst.toNat = s.devId then back else back.lnkErr n 4)
    else if !s.linkUp out then back.lnkErr (if out < 48 then out else n) 4
    else
      let m : OutMsg := { message (RawMsg.onward g) g.tc.val none .unreserved g.data g.poison with fwd := some (n, s.tim.now) }
      (((s.recvHead n h).recvSeq n k).sendOn out m).sendIdle n)

/-- FORWARD_STALL_TIMEOUT: a forwarded message of a class whose output has not advanced for FWD_TMO is discarded with its remaining flits
(R364). -/
def execForwardStallTimeout (link : Fin 48) (tc : Fin 4) (s : State) : Host.Outcome State Fault Refusal :=
  let n := link.val
  let l := s.link n
  match l.queue.find? (fun m => m.tc == tc.val) with
  | none => .next s
  | some m => match m.fwd with
    | none => .next s
    | some p =>
      if s.tim.now.toNat < p.2.toNat + 1000 * s.fld .lnkCfg n 0 31 16 then .next s
      else .next ((((s.setLink n { l with queue := l.queue.erase m }).returnOf m).lnkErr n 5).drive n)

/-- NAK: every flit after ACK is sent again before any new one; RETRY_MAX resends in a row make the link retrain (R359). -/
def execNak (link : Fin 48) (h : FlitHead) (s : State) : Host.Outcome State Fault Refusal :=
  .next (if !s.linkUp link.val || h.typ != 4 then s else ((s.takeHead link.val h).resend link.val).drive link.val)

/-- IDLE: ACK and credits (R356). -/
def execIdle (link : Fin 48) (h : FlitHead) (s : State) : Host.Outcome State Fault Refusal :=
  .next (if !s.linkUp link.val || h.typ != 0 then s else s.recvHead link.val h)

/-- REPLAY_TIMEOUT: ACK has not advanced for REPLAY_TMO while flits are outstanding: they are sent again (R359). -/
def execReplayTimeout (link : Fin 48) (s : State) : Host.Outcome State Fault Refusal :=
  let n := link.val
  let l := s.link n
  if s.linkUp n ∧ !l.replay.isEmpty ∧ l.ackTime.toNat + 100 * s.fld .lnkCfg n 0 15 8 ≤ s.tim.now.toNat then .next (s.resend n)
  else .next s

/-- A link's FEC counts as the Ochre monitor has them (R354). -/
def State.fecReport (s : State) (n sym words : Nat) : State :=
  let o := AMap.get (0, 0) n s.och.fec
  s.setOch { s.och with fec := AMap.put (0, 0) n (o.1 + sym, o.2 + words) s.och.fec }

/-- FEC symbols corrected on a link, of which LNK_CNT shows units of 2¹⁰ (R354). -/
def State.fecCorrected (s : State) (n k : Nat) : State :=
  let l := s.link n
  ((s.setLink n { l with symbols := l.symbols + k }).bump .lnkCnt n 4 ((l.symbols + k) / 1024 - l.symbols / 1024)).fecReport n k 0

/-- The uncorrectable codewords of a link in the last 1 ms. -/
def State.recentLost (s : State) (n : Nat) : List Nat := (s.link n).lostWords.filter (fun t => decide (s.tim.now.toNat < t + 1000000))

/-- An uncorrectable codeword counted (R354, R366). -/
def State.lostWord (s : State) (n : Nat) : State :=
  (s.setLink n { s.link n with lostWords := s.recentLost n ++ [s.tim.now.toNat] }).bump .lnkCnt n 5 1

/-- FLIT_FAILED: a flit that fails its CRC, overlaps an uncorrectable codeword, which is counted once, or carries a reserved TYPE is discarded and
counted; so is a sequenced flit out of sequence discarded; one NAK is sent, and sequenced flits are dropped until the expected one arrives
(R354, R356, R359). -/
def execFlitFailed (link : Fin 48) (cause : FlitCause) (_seq : Nat) (s : State) : Host.Outcome State Fault Refusal :=
  let n := link.val
  if !s.linkUp n then .next s
  else
    let s1 := match cause with
      | .outOfSequence => s
      | .fec true => ((s.lostWord n).fecReport n 0 1).flitBad n
      | _ => s.flitBad n
    .next (s1.sendNak n)

/-- The port of a link as training starts it: empty, with a full allocation of credits. -/
def State.startPort (s : State) (n : Nat) : State :=
  let l := s.link n
  s.setLink n { flits := l.flits, symbols := l.symbols, inv := l.inv, invq := l.invq, fullFails := l.fullFails, awake := l.awake
                credits := [0, 1, 2, 3].foldl (fun m t => AMap.put 0 t (s.crdAlloc n t) m) [] }

/-- ENABLE set while the LNK block is unlocked: a DISABLED link starts training (R365), unless its Kermes generator failed (R170) or its
partition is in RET or OFF (R456). -/
def State.linkEnable (s : State) (n : Nat) : State :=
  if !s.blkOpen .link n ∨ !s.lockOpen .link n ∨ natBit (s.reg .lnkCtrl n 0).toNat 0 then s
  else
    let s1 := s.orReg .lnkCtrl n 0 1
    if s1.linkState n ≠ 0 ∨ s.mgmt.kat.contains (400 + n) ∨ (s.part (n / 12)).pwr ≠ .idle then s1
    else (s1.startPort n).setFld .lnkStatus n 0 2 0 1

/-- LINK_ENABLE (R365). -/
def execLinkEnable (link : Fin 48) (s : State) : Host.Outcome State Fault Refusal := .next (s.linkEnable link.val)

/-- A retrain that software asks for: of a link that is up or DOWN (R366). -/
def State.softRetrain (s : State) (n : Nat) : State :=
  if !s.blkOpen .link n then s
  else if s.linkState n = 4 then (s.startPort n).retrain n
  else if s.linkUp n then s.retrain n
  else s

/-- LINK_RETRAIN: a retrain by software, at RETRY_MAX, on lost FEC alignment or on more than 64 uncorrectable codewords within 1 ms (R366): of a link
that is up, or by software of one that is DOWN. -/
def execLinkRetrain (link : Fin 48) (cause : RetrainCause) (s : State) : Host.Outcome State Fault Refusal :=
  let n := link.val
  match cause with
  | .software => .next (s.softRetrain n)
  | .codewords => .next (if s.linkUp n && decide (64 < (s.recentLost n).length) then s.retrain n else s)
  | .retryMax | .fecAlignment => .next (if s.linkUp n then s.retrain n else s)

/-- A link's eye margin after a training, as the Ochre monitor has it (R354, R421). -/
def State.eyeReport (s : State) (n margin : Nat) : State :=
  s.setOch { s.och with sensors := AMap.put (rawNew 4) (sensorKey 4 (n / 12) (n % 12)) margin s.och.sensors }

/-- TRAINING_COMPLETE (R365 to R367): four lanes give UP; one or two failed lanes within one pair give UP_HALF on the other where HALF_OK
is set, with precoding where both ends ask for it (R352); else a fast retrain goes on to full training, and full training ends in DOWN. -/
def execTrainingComplete (link : Fin 48) (r : TrainResult) (s : State) : Host.Outcome State Fault Refusal :=
  let n := link.val
  if s.linkState n ≠ 1 then .next s
  else
    let all := r.lanes == 15
    let halfOk := natBit (s.reg .lnkCtrl n 0).toNat 3
    let lanes := if all then 15 else if r.lanes.extractLsb' 0 2 == 3#2 then 3 else if r.lanes.extractLsb' 2 2 == 3#2 then 12 else 0
    if !all && !(halfOk && lanes != 0) then
      (if (s.link n).fast then .next (s.setLink n { s.link n with fast := false }) else .next ((List.range 4).foldl (fun s x => s.releaseAll x) (s.linkDown n)))
    else
      let st := if all then 2 else 3
      let w := BitVec.ofNat 32 (st + 8 * bit (r.precode && natBit (s.reg .lnkCtrl n 0).toNat 1) + 16 * lanes + 256 * r.peerDev.toNat + 2 ^ 20 * r.peerLink.toNat)
      let s1 := (s.setReg .lnkStatus n 0 w).setReg .lnkAsym n 0 r.asym
      let s2 := (s1.setLink n { s1.link n with fast := false, fullFails := 0, phase := 0 }).eyeReport n r.margin
      let s3 := if all then s2 else (s2.lnkErr n 3).recheck
      .next (s3.drive n)

/-- A write of LNK_CRD_ALLOC takes effect only while the link is DISABLED and the entries total 4,096 (R360), and the LNK block is unlocked. -/
def State.wrCrdAlloc (s : State) (n : Nat) (v : W32) : State :=
  let w := v &&& 0x0FFFFFFF#32
  let sum := ([0, 1, 2, 3].map (fun t => crdEntries w t)).foldl (· + ·) 0
  if s.blkOpen .link n ∧ s.lockOpen .link n ∧ s.linkState n = 0 ∧ sum = 4096 then s.setReg .lnkCrdAlloc n 0 w else s

/-- LNK_CRD_ALLOC_WRITE (R360). -/
def execLnkCrdAllocWrite (link : Fin 48) (v : W32) (s : State) : Host.Outcome State Fault Refusal := .next (s.wrCrdAlloc link.val v)

end Sys2Proof.Machine
end

