-- ==== Sys2Proof/Machine/HostIf.lean ====
section
/-! DEFINITION. The host interface: windows, tier 3, queue registers and debug tokens (R427 to R433, R446, R447, R457, R494, R495). -/

namespace Sys2Proof.Machine

/-! ## Errors -/

/-- A bit of HIF_ERR set; bits 0 and 1 are also reported to the ERR block (SOURCE 0x10). -/
def State.hifErr (s : State) (b : Nat) : State :=
  let s1 := s.orReg .hifErr 0 0 (BitVec.ofNat 32 (2 ^ b))
  if b ≤ 1 then s1.errLog { scope := 0, source := 0x10, devLevel := true } else s1

/-! ## Accesses through BAR2 and the HDM window -/

/-- The device physical address of an offset of a window, none where the window is absent or too short (R431). -/
def State.hostAddr (s : State) (w : HostWindow) (o n : Nat) : Option Nat :=
  match w with
  | .bar2 => match Config.bar2Log2 with
    | none => none
    | some k =>
      let size := 2 ^ (30 + k)
      if o + n ≤ size then some (s.fld .hifBar2Base 0 0 17 0 * 2 ^ 30 / size * size + o) else none
  | .hdm =>
    if natBit (s.reg .hifHdm 0 0).toNat 31 ∧ o + n ≤ Config.hdmBytes then some (s.fld .hifHdm 0 0 19 0 * 2 ^ 28 + o) else none

/-- Whether an address answers a host access: mapped, and no partition store of a partition in OFF (R331, R429, R457). -/
def State.hostReach (s : State) (a : Nat) : Bool :=
  match locOf a with
  | .mem _ _ => true
  | .store p _ => (s.part p).pwr != .off
  | .tier3 w o => (s.t3Host w o).isSome
  | .unmapped => false

/-- Whether every byte of a run answers: its ends and its unit boundaries decide. -/
def State.hostRange (s : State) (a n : Nat) : Bool :=
  s.hostReach a && s.hostReach (a + n - 1) && (List.range (n / 64)).all (fun i => s.hostReach (a + 64 * i))

/-- What a host access to an address wakes: the stack out of self-refresh for device memory, the partition out of RET for its store
(R457). -/
def State.hostTouch (s : State) (a : Nat) : State :=
  match locOf a with
  | .mem p off =>
    let st := s.stackOf p off
    s.setStack st { s.stack st with selfRefresh := false, lastAccess := s.tim.now }
  | .store p _ => s.wakePart p
  | _ => s

/-- The units that a run touches, waked. -/
def State.hostWake (s : State) (a n : Nat) : State :=
  (List.range ((a + n - 1) / 64 + 1 - a / 64)).foldl (fun s i => s.hostTouch (64 * (a / 64 + i))) s

/-- HOST_READ: a host read of `n` bytes through a window. A poisoned unit completes it with EP; an unmapped address, or the store of a
partition in OFF, with Unsupported Request (R429, R431, R457). In D3hot only configuration requests are answered (R458). -/
def execHostRead (w : HostWindow) (addr n : Nat) (s : State) : Host.Outcome State Fault Refusal :=
  if !s.hif.linkUp ∨ n = 0 then .next s
  else match (if s.hif.d3hot then none else s.hostAddr w addr n) with
    | none => .next (s.emit (.unsupported addr))
    | some a =>
      if !s.hostRange a n then .next (s.emit (.unsupported addr))
      else if !(s.hostWake a n).hostRange a n then .next ((s.hostWake a n).emit (.unsupported addr))
      else
        let s1 := ((s.hostWake a n).demandReads [(a, n)]).chargeRuns .unreserved [(a, n)]
        let po := s1.devPo a n
        let s2 := s1.emit (.hostRead (s1.devRead a n) po)
        .next (if po then s2.hifErr 0 else s2)

/-- Whether the memory path discards a host write to an address: an armed or draining region, a page-table area of an enabled engine, a
pinned region (R225, R342, R404). -/
def State.hostRefuses (s : State) (a : Nat) : Bool :=
  (s.regionAt a).isSome || (match s.ptaAt a with
    | some e => natBit (s.reg .indCtrl e 0).toNat 0
    | none => false) || (List.range 4).any (fun x => s.pinnedAt x a)

/-- The error bits that a discarded host write sets (R225, R342). -/
def State.hostNote (s : State) (a : Nat) : State :=
  match s.regionAt a with
  | some (p, _) => s.vwrErr p 3 a
  | none => match s.ptaAt a with
    | some e => s.indErr e 1
    | none => s

/-- HOST_WRITE: a host write through a window, an ordinary write: units that the memory path refuses are discarded and end no context; a
poisoned TLP writes its units poisoned; a narrow write reads its unit first, with KIND 4 where that read is uncorrectable; one that reaches an unmapped address is dropped (R337, R342, R404, R429, R431). One to a unit that a
save is still to capture waits (R415). -/
def execHostWrite (w : HostWindow) (addr : Nat) (bytes : List Byte) (poisoned : Bool) (s : State) : Host.Outcome State Fault Refusal :=
  let n := bytes.length
  if !s.hif.linkUp ∨ n = 0 then .next s
  else match (if s.hif.d3hot then none else s.hostAddr w addr n) with
    | none => .next (s.emit (.unsupported addr))
    | some a =>
      let raw : List Piece := [{ addr := a, data := bytes, po := poisoned }]
      let ps := splitUnits (splitFuel raw) raw
      if !s.hostRange a n then .next (s.emit (.unsupported addr))
      else if ps.any (fun p => s.captureHolds p.addr) then .next (s.await (ps.map (fun p => p.addr)))
      else
        let s1 := s.hostWake a n
        if !s1.hostRange a n then .next (s1.emit (.unsupported addr)) else
        let bad := ps.filter (fun p => s1.hostRefuses p.addr)
        let ok := ps.filter (fun p => !s1.hostRefuses p.addr)
        let s2 := bad.foldl (fun s p => s.hostNote p.addr) s1
        let dev := ok.filter (fun p => !isT3 p.addr)
        let s3 := (coverOf dev).foldl (fun s e => (if e.2.2 = 64 then s else s.readUnit 4 (64 * e.1)).putUnit dev e.1 e.2.1 e.2.2) (s2.chargeRuns .unreserved (dev.map (fun p => (p.addr, p.data.length))))
        .next (s3.putHost (ok.filter (fun p => isT3 p.addr)))

/-! ## Tier 3 -/

/-- A tier-3 request with its tag. -/
def State.t3Find (s : State) (tag : Nat) : Option T3Req := s.hif.t3.find? (fun q => q.tag == tag)

/-- Bytes of a request put where they go: the core-local space of the core, or the device space, where a refused write ends the context
(R429). A request that no transfer of the core waits for any more delivers nothing. -/
def State.t3Deliver (s : State) (q : T3Req) (b : List Byte) (po : Bool) : State :=
  let n := q.core
  let c := s.core n
  let s0 := s.setHif { s.hif with t3 := s.hif.t3.filter (fun r => r.tag != q.tag) }
  if !c.xfers.any (fun t => t.t3.contains q.tag) then s0
  else
    let s1 := s0.setCore n { c with xfers := c.xfers.map (fun t => { t with t3 := t.t3.filter (fun g => g != q.tag) }) }
    let piece := fun (d : Bool × Nat × Nat × Nat) => ({ addr := d.2.1, data := (b.drop d.2.2.1).take d.2.2.2, po := po } : Piece)
    let raw := (q.dst.filter (fun d => !d.1)).map piece
    let s2 := s1.localWrite n (splitUnits (splitFuel raw) raw)
    let dev := (q.dst.filter (fun d => d.1)).map piece
    match s.coreSlot n with
    | none => s2
    | some x =>
      let r := s2.performWrite x dev
      if r.2 then r.1.endBy x stPage 0x10 else r.1

/-- The addresses of device space at which a request writes, one to a unit at least. -/
def T3Req.targets (q : T3Req) : List Nat :=
  (q.dst.filter (fun d => d.1)).flatMap (fun d => (List.range (d.2.2.2 / 64 + 1)).map (fun i => d.2.1 + 64 * i))

/-- Whether a request writes a unit that a save is still to capture, so that it waits (R415). -/
def State.t3Waits (s : State) (q : T3Req) : Bool := q.targets.any (fun a => s.captureHolds a)

/-- A request that ends with an error: its data are delivered poisoned, their bytes open (log entry 3: DESIGN CHOICE), and CPL_ERR is set (R429). -/
def State.t3Fail (s : State) (q : T3Req) : State :=
  let b := (List.range q.len).map (fun i => Config.freeValue 8 (s.free + i))
  (((s.drawN q.len).t3Deliver q b true)).hifErr 1

/-- T3_COMPLETION: a completion of a tier-3 request arrives; one with EP or an error status delivers poisoned data and sets CPL_ERR
(R429). -/
def execT3Completion (tag : Nat) (c : T3Reply) (s : State) : Host.Outcome State Fault Refusal :=
  match s.t3Find tag with
  | none => .next s
  | some q =>
    if s.t3Waits q then .next (s.await q.targets)
    else match c with
      | .written => .next s
      | .error => .next (s.t3Fail q)
      | .data b po =>
        if b.length ≠ q.len then .next (s.t3Fail q)
        else
          let s1 := s.setHost (s.host.write [{ addr := q.host, data := b, po := po }])
          let s2 := s1.t3Deliver q b po
          .next (if po then s2.hifErr 1 else s2)

/-- T3_COMPLETION_TIMEOUT: no completion within CPL_TMO (R429). -/
def execT3CompletionTimeout (tag : Nat) (s : State) : Host.Outcome State Fault Refusal :=
  match s.t3Find tag with
  | none => .next s
  | some q =>
    if s.tim.now.toNat < q.time + 1000000 * s.fld .hifCtrl 0 0 7 0 then .next s
    else .next (if s.t3Waits q then s.await q.targets else s.t3Fail q)

/-- A write of a tier-3 window register (R432): ignored with WIN_LOCKED while a program is admitted or running; a SIZE outside 12 to 43
leaves SIZE. -/
def State.wrT3 (s : State) (hi : Bool) (w : Nat) (v : W32) : State :=
  if !s.blkOpen .hif 0 then s
  else if s.anyProgram then s.hifErr 3
  else if hi then s.setReg .hifT3Hi 0 w v
  else
    let old := s.reg .hifT3Lo 0 w
    let size := bitsOf v 7 2
    let v1 := v &&& 0xFFFFF0FF#32
    s.setReg .hifT3Lo 0 w (if 12 ≤ size ∧ size ≤ 43 then v1 else putBits v1 7 2 (bitsOf old 7 2))

/-- T3_WINDOW_WRITE (R432). -/
def execT3WindowWrite (off : Nat) (v : W32) (s : State) : Host.Outcome State Fault Refusal :=
  match Reg.ofOffset off with
  | some (.hifT3Lo, _, w) => .next (s.wrT3 false w v)
  | some (.hifT3Hi, _, w) => .next (s.wrT3 true w v)
  | _ => .next s

/-! ## Queue pairs -/

/-- Every command of a queue pair that has been taken and not completed loses its completion entry (R436). -/
def State.orphan (s : State) (q : Nat) : State :=
  let sv := fun (r : SaveReq) => if r.q = q then { r with q := 16 } else r
  let s1 := (List.range 4).foldl (fun s x =>
    let c := s.ctx x
    s.setCtx x { c with checking := c.checking.map (fun u => if u.q = q then { u with q := 16 } else u)
                        save := c.save.map sv
                        saveq := c.saveq.map sv
                        restore := c.restore.map (fun r => if r.q = q then { r with q := 16 } else r) }) s
  s1.setHif { s1.hif with held := s1.hif.held.filter (fun c => c.q != q) }

/-- Completion entries that waited for room, posted as far as it goes, in order (R494). -/
def State.flushHeld (s : State) : State := s.hif.held.foldl (fun s c => s.complete c) (s.setHif { s.hif with held := [] })

/-- A write of HIF_Q_CFG (R436, R495). -/
def State.wrQCfg (s : State) (q : Nat) (v : W32) : State :=
  if !s.blkOpen .hif 0 then s
  else
    let old := s.reg .hifQCfg 0 q
    let en := natBit v.toNat 9
    if natBit old.toNat 9 then
      let s1 := s.setReg .hifQCfg 0 q (putBits (putBits old 8 8 (bit (natBit v.toNat 8))) 9 9 (bit en))
      if en then s1 else s1.orphan q
    else
      let okv := fun (k : Nat) => decide (2 ≤ k ∧ k ≤ 12)
      let sq := if okv (bitsOf v 3 0) then bitsOf v 3 0 else bitsOf old 3 0
      let cq := if okv (bitsOf v 7 4) then bitsOf v 7 4 else bitsOf old 7 4
      let on := en && okv sq && okv cq
      let s1 := s.setReg .hifQCfg 0 q (BitVec.ofNat 32 (sq + 16 * cq + 256 * bit (natBit v.toNat 8) + 512 * bit on))
      let s2 := if !okv (bitsOf v 3 0) || !okv (bitsOf v 7 4) || (en && !on) then s1.hifErr 4 else s1
      if on then ((s2.setQueue q {}).setReg .hifSqDb 0 q 0).setReg .hifCqDb 0 q 0 else s2

/-- Q_CFG_WRITE (R495). -/
def execQCfgWrite (q : Fin 16) (v : W32) (s : State) : Host.Outcome State Fault Refusal := .next (s.wrQCfg q.val v)

/-- A write of HIF_SQ_DB: the submission tail, or DB_RANGE (R433). -/
def State.wrSqDb (s : State) (q : Nat) (v : W32) : State :=
  if !s.blkOpen .hif 0 then s
  else if s.sqSize q ≤ bitsOf v 11 0 then s.hifErr 2
  else s.setReg .hifSqDb 0 q (BitVec.ofNat 32 (bitsOf v 11 0))

/-- SQ_DOORBELL (R433). -/
def execSqDoorbell (q : Fin 16) (v : W32) (s : State) : Host.Outcome State Fault Refusal := .next (s.wrSqDb q.val v)

/-- A write of HIF_CQ_DB: the completion head, which makes room for entries that wait, or DB_RANGE (R433, R494). -/
def State.wrCqDb (s : State) (q : Nat) (v : W32) : State :=
  if !s.blkOpen .hif 0 then s
  else if s.cqSize q ≤ bitsOf v 11 0 then s.hifErr 2
  else (s.setReg .hifCqDb 0 q (BitVec.ofNat 32 (bitsOf v 11 0))).flushHeld

/-- CQ_DOORBELL (R433). -/
def execCqDoorbell (q : Fin 16) (v : W32) (s : State) : Host.Outcome State Fault Refusal := .next (s.wrCqDb q.val v)

/-! ## Debug tokens -/

/-- The nonce, from its registers. -/
def State.nonce (s : State) : Nat :=
  ((List.range 4).map (fun i => (s.reg .hifDbgNonce 0 i).toNat * 2 ^ (32 * i))).foldl (· + ·) 0

/-- The nonce registers set to the words of a number. -/
def State.setNonce (s : State) (v : Nat) (valid : Bool) : State :=
  let s1 := (List.range 4).foldl (fun s i => s.setReg .hifDbgNonce 0 i (BitVec.ofNat 32 (v / 2 ^ (32 * i)))) s
  s1.setHif { s1.hif with nonceValid := valid }

/-- HIF_DBG_CTRL.NEW: a fresh nonce from the entropy source (R447). -/
def State.dbgNew (s : State) : State :=
  if !s.blkOpen .hif 0 then s else (s.draw).setNonce (Config.entropy s.free).toNat true

/-- DBG_NEW (R447). -/
def execDbgNew (s : State) : Host.Outcome State Fault Refusal := .next s.dbgNew

/-- The 256 bytes of the token. -/
def State.tokenBytes (s : State) : List Byte := (List.range 256).map (fun i => AMap.get 0 i s.hif.token)

/-- The RESULT codes that a token's failures have (R446, R447): 2 bad signature, which a malformed token counts as (log entry 89: DEDUCED), 3 stale
nonce, 4 wrong serial, 5 key revoked. -/
def State.tokenFails (s : State) : List Nat :=
  let b := s.tokenBytes
  let key := leField b 32 32
  let body := b.take 128
  let okSig := leField b 0 3 == 0x44424731 && decide (key < 4) && Config.keyHashOk (4 + key) && allZero ((b.drop 33).take 95) &&
    Config.ecdsaVerifies (4 + key) (sha384 body) ((b.drop 128).take 96)
  (if okSig then [] else [2]) ++
  (if s.hif.nonceValid && leField b 16 31 == s.nonce then [] else [3]) ++
  (if leField b 8 15 == s.serial.toNat then [] else [4]) ++
  (if key < 4 ∧ Config.keyRevoked (4 + key) then [5] else [])

/-- HIF_DBG_CTRL.SUBMIT: the token is checked and its grants added, or a failure counted; the nonce is consumed, and vector 25 raised. After
eight failures submissions are refused (R447, R488). Which of several failures is reported is open (log entry 3: DESIGN CHOICE). -/
def State.dbgSubmit (s : State) : State :=
  if !s.blkOpen .hif 0 then s
  else
    let fails := s.fld .hifDbgStatus 0 0 11 8
    let l := s.tokenFails
    let s1 := s.setNonce 0 false
    let s2 :=
      if 8 ≤ fails then s1.setFld .hifDbgStatus 0 0 6 4 6
      else if l = [] then
        (s1.setFld .hifDbgStatus 0 0 6 4 1).setFld .hifDbgStatus 0 0 3 0
          ((BitVec.ofNat 4 (s.fld .hifDbgStatus 0 0 3 0) ||| BitVec.ofNat 4 (leField s.tokenBytes 4 7)).toNat)
      else
        let r := l.getD ((Config.freeValue 8 s.free).toNat % l.length) 2
        (s1.draw.setFld .hifDbgStatus 0 0 6 4 r).setFld .hifDbgStatus 0 0 11 8 (fails + 1)
    s2.event 9

/-- DBG_SUBMIT (R447). -/
def execDbgSubmit (s : State) : Host.Outcome State Fault Refusal := .next s.dbgSubmit

end Sys2Proof.Machine
end

