-- ==== Sys2Proof/Machine/Time.lean ====
section
/-! DEFINITION. Device time: synchronisation over the links, the PPS input, setting and reading the time (R302 to R311, R358). -/

namespace Sys2Proof.Machine

/-! ## Fixed-point times -/

/-- Device time in units of 1/256 ns. -/
def State.nowFrac (s : State) : Nat := s.tim.now.toNat * 256 + s.tim.frac / 2 ^ 24

/-- Device time moved forward by `d` units of 1/256 ns. -/
def State.stepTime (s : State) (d : Nat) : State :=
  let t := s.tim.now.toNat * 2 ^ 32 + s.tim.frac + d * 2 ^ 24
  s.setTim { s.tim with now := BitVec.ofNat 64 (t / 2 ^ 32), frac := t % 2 ^ 32 }

/-- The bound of a rate correction, ±200 ppm, in units of 2⁻³² (R307, TIM_RATE). -/
def rateMax : Nat := 859000

/-- A rate correction that the device chooses within its bound (R307: the manual gives no control law; log entry 3: DESIGN CHOICE). -/
def State.steer (s : State) : State :=
  let r : Int := (Config.freeValue 32 s.free).toNat % (2 * rateMax + 1) - rateMax
  s.draw.setTim { s.tim with rate := r }

/-- A signed number as a 32-bit word, saturating. -/
def sat32 (v : Int) : W32 := BitVec.ofInt 32 (max (-(2 ^ 31)) (min (2 ^ 31 - 1) v))

/-! ## Roles and states -/

/-- TIM_CTRL.ROLE. -/
def State.role (s : State) : Nat := s.fld .timCtrl 0 0 1 0

/-- The state that a role starts in (R308): FREE, ACQUIRING or MASTER. -/
def roleState (role : Nat) : Nat := if role = 1 then 1 else if role = 2 then 4 else 0

/-- The synchronisation state replaced, with no SYNC counted towards LOCKED. -/
def State.timState (s : State) (n : Nat) : State := s.setTim { s.tim with state := n, good := 0 }

/-- A bit of TIM_ERR set and, for bits 0 to 2, reported to the ERR block (SOURCE 0x09). -/
def State.timErr (s : State) (b : Nat) : State :=
  let s1 := s.orReg .timErr 0 0 (BitVec.ofNat 32 (2 ^ b))
  if b ≤ 2 then s1.errLog { scope := 0, source := 0x09, devLevel := true } else s1

/-- The links on which a device passes time on (R305). -/
def State.downLinks (s : State) : List Nat :=
  (List.range 48).filter (fun n => natBit (s.reg64 .timDownLo .timDownHi 0 0) n)

/-- A time-class flit leaves a port when its class has a credit (R356, R360); with none it is not sent (log entry 86: DEDUCED). -/
def State.sendTime (s : State) (n typ : Nat) (b : List Byte) : State :=
  let l := s.link n
  let k := AMap.get 0 0 l.credits
  if !s.linkUp n || k == 0 then s
  else (s.setLink n { l with credits := AMap.put 0 0 (k - 1) l.credits }).sendPlain n
    { typ := typ, tc := 0, payload := b ++ List.replicate (64 - b.length) 0 }

/-- A time-class flit received good: its ACK and credits are taken, and its entry is free again (R355, R358, R360). -/
def State.recvTime (s : State) (n : Nat) (h : FlitHead) : State := (s.recvHead n h).returnEntries n 0 1

/-! ## SYNC -/

/-- The payload of a SYNC (R358): T_TX, the sequence number, the master and the hops from it of the sender (log entry 87: DEDUCED). -/
def State.syncBytes (s : State) : List Byte :=
  let master := if s.tim.state = 4 then s.devId else s.fld .timSyncCfg 0 0 27 16
  leBytes 9 s.nowFrac ++ leBytes 2 s.tim.syncSeq.toNat ++ leBytes 2 master ++
    leBytes 1 (if s.tim.state = 4 then 0 else s.fld .timStatus 0 0 11 8)

/-- SYNC_SEND: once at each multiple of 1,000,000 ns, or 1 ns past it where a raised rate has device time step over it, a master or LOCKED device
sends SYNC on its down links (R306 to R308). -/
def execSyncSend (s : State) : Host.Outcome State Fault Refusal :=
  let t := s.tim
  let due := t.now.toNat % 1000000 = 0 ∨ (t.now.toNat % 1000000 = 1 ∧ 0 < t.rate)
  if (t.state = 2 ∨ t.state = 4) ∧ due ∧ t.lastSent.map (fun w => w.toNat / 1000000) ≠ some (t.now.toNat / 1000000) then
    let s1 := s.downLinks.foldl (fun s n => s.sendTime n 5 s.syncBytes) s
    .next (s1.setTim { s1.tim with lastSent := some t.now, syncSeq := t.syncSeq + 1 })
  else .next s

/-- What an offset does to the synchronisation state (R307, R308): an unlock of a device with a program, 8 consecutive small offsets in
ACQUIRING, one in HOLDOVER. -/
def State.syncState (s : State) (theta : Int) : State :=
  let t := s.tim
  let small := decide (theta.natAbs ≤ 4 * 256)
  if 2000 * 256 < theta.natAbs ∧ s.anyProgram then
    ((s.timErr 1).timState 1).timEvent { cause := 0x08 }
  else if small && t.state == 1 then
    if 8 ≤ t.good + 1 then s.timState 2 else s.setTim { t with good := t.good + 1 }
  else if small && t.state == 3 then s.timState 2
  else if t.state = 1 then s.setTim { t with good := 0 }
  else s

/-- SYNC: a member takes a SYNC of its up link, computes θ and corrects it by a step or by rate (R306 to R308). A flit that fails its CRC is
dropped (R358). -/
def execSync (link : Fin 48) (f : SyncFlit) (s : State) : Host.Outcome State Fault Refusal :=
  let n := link.val
  if !s.linkUp n then .next s
  else if !f.crcOk then .next (s.timeDrop n)
  else
    let s0 := s.recvTime n f.head
    if s.role ≠ 1 ∨ s.fld .timSyncCfg 0 0 5 0 ≠ n then .next s0
    else
      let theta : Int := (f.tRx : Int) - (f.tTx + s.fld .timPath 0 0 23 0 : Nat)
      let s1 := (s0.setReg .timOffset 0 0 (sat32 theta)).setFld .timSyncCfg 0 0 27 16 f.master.toNat
      let s2 := s1.setFld .timStatus 0 0 11 8 (min 15 (f.hops.toNat + 1))
      let s3 := s2.setTim { s2.tim with lastSync := s.tim.now }
      let s4 := if theta < -(2000 * 256) ∧ !s.anyProgram then s3.stepTime theta.natAbs else s3.steer
      .next (s4.syncState theta)

/-! ## Delay of the up link -/

/-- DELAY_MEASURE: every 64 ms a member sends DELAY_REQ on its up link (R306). -/
def execDelayMeasure (s : State) : Host.Outcome State Fault Refusal :=
  let t := s.tim
  let n := s.fld .timSyncCfg 0 0 5 0
  if s.role = 1 ∧ s.linkUp n ∧ (t.delayT1 = none ∨ t.lastDelay.toNat + 64000000 ≤ t.now.toNat) then
    let s1 := s.sendTime n 6 (leBytes 9 s.nowFrac)
    .next (s1.setTim { s1.tim with delayT1 := some s.nowFrac, lastDelay := t.now })
  else .next s

/-- DELAY_REQ: a device answers with DELAY_RESP on the same link: t1 echoed, t2 received, t3 sent (R358). -/
def execDelayReq (link : Fin 48) (f : DelayReq) (crcOk : Bool) (s : State) : Host.Outcome State Fault Refusal :=
  let n := link.val
  if !s.linkUp n then .next s
  else if !crcOk then .next (s.timeDrop n)
  else .next ((s.recvTime n f.head).sendTime n 7 (leBytes 9 f.t1 ++ leBytes 9 s.nowFrac ++ leBytes 9 s.nowFrac))

/-- The delay of the up link from the four times of an exchange and the static asymmetry, in units of 1/256 ns (R306): exact where it is a whole
number that the field holds; half a unit is rounded as a free bit says, and a delay that the 24 bits do not hold is free, for the manual states
neither (log entry 3: DESIGN CHOICE). -/
def State.delayOf (s : State) (f : DelayResp) (asym : W32) : Nat :=
  let d2 : Int := ((f.t4 : Int) - f.t1) - ((f.t3 : Int) - f.t2)
  let up : Int := if d2 % 2 = 0 then 0 else (Config.freeValue 1 s.free).toNat
  let d := d2 / 2 + up + (if asym = 0 then 0 else Config.asymCorrection asym)
  if 0 ≤ d ∧ d < 2 ^ 24 then d.toNat else (Config.freeValue 24 (s.free + 1)).toNat

/-- DELAY_RESP: a member computes the delay of its up link from the four times, corrected by the static asymmetry (R306). -/
def execDelayResp (link : Fin 48) (f : DelayResp) (s : State) : Host.Outcome State Fault Refusal :=
  let n := link.val
  if !s.linkUp n then .next s
  else if !f.crcOk then .next (s.timeDrop n)
  else
    let s0 := s.recvTime n f.head
    if s.role ≠ 1 ∨ s.fld .timSyncCfg 0 0 5 0 ≠ n ∨ s.tim.delayT1 ≠ some f.t1 then .next s0
    else .next ((s0.drawN 2).setFld .timPath 0 0 23 0 (s.delayOf f (s.reg .lnkAsym n 0)))

/-! ## Losses -/

/-- SYNC_TIMEOUT: 5 ms without a SYNC take a LOCKED device to HOLDOVER (R308). -/
def execSyncTimeout (s : State) : Host.Outcome State Fault Refusal :=
  let t := s.tim
  if t.state = 2 ∧ t.lastSync.toNat + 5000000 ≤ t.now.toNat then
    let s1 := (s.timErr 0).timState 3
    .next ((s1.setTim { s1.tim with holdStart := t.now }).timEvent { cause := 0x09 })
  else .next s

/-- HOLDOVER_TIMEOUT: 100 ms in HOLDOVER take the device to ACQUIRING (R308). -/
def execHoldoverTimeout (s : State) : Host.Outcome State Fault Refusal :=
  let t := s.tim
  if t.state = 3 ∧ t.holdStart.toNat + 100000000 ≤ t.now.toNat then .next (s.timState 1) else .next s

/-- PPS_EDGE: the device time of a rising edge of TIME_PPS_IN is captured; on the master with PPS_EN set the rate is steered (R311). -/
def execPpsEdge (s : State) : Host.Outcome State Fault Refusal :=
  let now := s.tim.now
  let s1 := (s.setReg .timPpsCapLo 0 0 (now.extractLsb' 0 32)).setReg .timPpsCapHi 0 0 (now.extractLsb' 32 32)
  let s2 := s1.setMgmt { s1.mgmt with pins := AMap.put true 3 true s1.mgmt.pins }
  let s3 := s2.setTim { s2.tim with ppsSeen := true, lastPps := now, ppsLost := false }
  .next (if s.tim.state = 4 ∧ natBit (s.reg .timCtrl 0 0).toNat 2 then s3.steer else s3)

/-- Whether 2.5 s have passed without an edge. -/
def State.noPps (s : State) : Bool := decide (s.tim.lastPps.toNat + 2500000000 ≤ s.tim.now.toNat)

/-- PPS_LOST: 2.5 s without an edge on the master with PPS_EN set, reported once; the master runs on its own oscillator (R311). -/
def execPpsLost (s : State) : Host.Outcome State Fault Refusal :=
  if s.tim.state = 4 ∧ natBit (s.reg .timCtrl 0 0).toNat 2 ∧ s.noPps ∧ !s.tim.ppsLost then
    let s1 := s.timErr 2
    .next ((s1.setTim { s1.tim with ppsLost := true, ppsSeen := false, rate := 0 }).timEvent { cause := 0x0A })
  else .next s

/-! ## Setting the time -/

/-- A write of TIM_SET_HI: the pair becomes device time when it is not below device time and no program is admitted or running, else
SET_REFUSED is set (R302, R305). -/
def State.setTime (s : State) (v : W32) : State :=
  if !s.blkOpen .tim 0 || !s.lockOpen .tim 0 then s
  else
    let s1 := s.setReg .timSetHi 0 0 v
    let t := s1.reg64 .timSetLo .timSetHi 0 0
    if s.tim.now.toNat ≤ t ∧ !s.anyProgram then s1.setTim { s1.tim with now := BitVec.ofNat 64 t, frac := 0 }
    else s1.timErr 3

/-- TIM_SET_WRITE (R305). -/
def execTimSetWrite (v : W32) (s : State) : Host.Outcome State Fault Refusal := .next (s.setTime v)

end Sys2Proof.Machine
end

