-- ==== Sys2Proof/Machine/Resets.lean ====
section
/-! DEFINITION. Resets, boot, power states, and power and thermal control (R385 to R387, R438 to R441, R448 to R472, R492). -/

namespace Sys2Proof.Machine

/-! ## Registers under a reset -/

/-- The word that a reset leaves of a register: its RWS bits, and the reset column elsewhere (R492). -/
def resetWord (v : Variant) (r : Reg) (w : W32) : W32 := (w &&& r.info.rws) ||| (resetOf v r &&& ~~~r.info.rws)

/-- The registers at the offsets of a set returned to the reset column, but for RWS fields and the registers kept (R492); ILV moves the addresses
of its partition with it (R332). -/
def State.resetRegs (s : State) (hit : Nat → Bool) (keep : Reg → Bool) : State :=
  State.reIlv { s with regs := s.regs.filterMap (fun (e : Nat × W32) =>
      if !hit e.1 then some e
      else match Reg.ofOffset e.1 with
        | none => some e
        | some (r, _, _) =>
          let w := if keep r then e.2 else resetWord s.variant r e.2
          if w = resetOf s.variant r then none else some (e.1, w)) } s

/-- The offsets of a partition's window and of its 12 LNK windows (R482, R492). -/
def partOffset (p o : Nat) : Bool :=
  decide (partWindow p ≤ o ∧ o < partWindow p + 0x100000) || decide (0x500000 + 12 * p * 0x1000 ≤ o ∧ o < 0x500000 + (12 * p + 12) * 0x1000)

/-- The registers of a partition window that its reset keeps (R492). -/
def keepPart : Reg → Bool
  | .indPta | .indPool | .indT3 | .indPoolCfg | .indDevFrames => true
  | _ => false

/-- The registers that a warm reset keeps beside RWS fields: the tail of the log, the Ochre floor and the replacement causes, and the repair and
retirement of the stacks, whose contents stay (R340, R449, R492). -/
def keepWarm : Reg → Bool
  | .errLogPtr | .umbFloor | .ochReplace | .memRepair | .memRetiredLo | .memRetiredHi => true
  | _ => false

/-! ## Partition reset -/

/-- A core under a reset that clears the stores: registers, instruction memory, test data and the Vat-writes in flight are kept (R110, R385, R449). -/
def Core.afterReset (c : Core) : Core :=
  { imem := c.imem, badWords := c.badWords, vwq := c.vwq, vwAck := c.vwAck, pc := c.pc, s := c.s, p := c.p, v := c.v, t := c.t, level := c.level, nextTag := c.nextTag
    woaAcc := c.woaAcc, madAcc := c.madAcc, suspect := c.suspect, owed := c.owed, pass := c.pass, lastTest := c.lastTest, testReq := c.testReq }

/-- Every armed region of a partition, and every armed region that the partition owns, becomes INVALID and is no longer armed (R110, R343). -/
def State.invalidate (s : State) (p : Nat) : State :=
  (List.range 64).foldl (fun s i =>
    let r := s.region (i / 16) (i % 16)
    if r.armed ∧ (i / 16 = p ∨ r.ownerPart = p) then s.setFld .memVwrCtrl (i / 16) (i % 16) 2 0 2 else s) s

/-- What the reset of a partition does to the context bound to it: a Sepia save of the slot is abandoned with SAVE_ABORT, a restore and the
context end with PARTITION_RESET (R385, R418, R419). -/
def State.endFor (s : State) (p src : Nat) : State :=
  match s.partSlot p with
  | none => s
  | some x =>
    let s1 := match s.sep.save with
      | some v => if v.slot = x then s.dropSave 0 else s
      | none => s
    let s2 := if (s1.ctx x).restore.isSome then s1.endRestore x stReset (s1.ctx x).stepno else s1
    s2.endBy x stReset src

/-- What a sensor 0x0031 reads of the partitions: 0 normal, 1 resetting, 2 offline, two bits each (R443). -/
def State.partSensor (s : State) : Nat :=
  ((List.range 4).map (fun p => (if (s.part p).offline then 2 else bit (s.part p).resetting) * 4 ^ p)).foldl (· + ·) 0

/-- The partition reset of R385, for a cause that the log and ERR_LAST_RESET name; the third of one partition within 1 s takes it offline
(R386). -/
def State.partitionReset (s : State) (p : Nat) (c : ErrCause) : State :=
  let now := s.tim.now.toNat
  let s1 := (List.range 12).foldl (fun s i => s.setInd (12 * p + i) { wasReset := true }) s
  let s2 := (s1.endFor p c.source.toNat).invalidate p
  let s3 := (List.range 12).foldl (fun s i => (s.linkOff (12 * p + i)).setLink (12 * p + i) { flits := (s.link (12 * p + i)).flits }) s2
  let s4 := (List.range 100).foldl (fun s i => s.setCore (100 * p + i) (s.core (100 * p + i)).afterReset) (s3.clearStore p)
  let welds := (List.range 100).map (fun i => 100 * p + i) ++ (List.range 12).flatMap (fun i => [400 + 12 * p + i, 448 + 12 * p + i]) ++ [496 + p, 500 + p]
  let s5 := welds.foldl (fun s n => s.setWeld n { prog := (s.weld n).prog, data := (s.weld n).data }) s4
  let s6 := s5.resetRegs (partOffset p) keepPart
  let q := s6.part p
  let recent := q.resets.filter (fun t => decide (now < t.toNat + 1000000000)) ++ [s.tim.now]
  let off := q.offline || decide (3 ≤ recent.length)
  let s7 := s6.setPart p { q with resetting := true, resets := recent, offline := off, jobs := [] }
  let s8 := { s7 with unlocked := AMap.put false (8 + p) false s7.unlocked }
  let s9 := (s8.setReg .errLastReset 0 0 (BitVec.ofNat 32 (c.source.toNat + 512 * p))).bump .umbCnt 0 0 1
  let s10 := s9.errLog { scope := 3, source := c.source.toNat, part := p, inst := c.inst.toNat, detail := c.detail.toNat }
  let s11 := (if off && !q.offline then s10.replaceCause 2 (2 ^ p) else s10).recheck
  s11.emit (.platformEvent 0x31 s11.partSensor)

/-- Whether a partition can be reset: a wider reset in progress or a thermal trip absorbs it (R451, R462). -/
def State.partResets (s : State) : Bool := decide (3 ≤ s.stage) && !s.pwr.tripped

/-- PARTITION_RESET: an error of partition scope; during a reset of the partition it starts the reset again (R380, R385, R386). -/
def execPartitionReset (part : Fin 4) (cause : ErrCause) (s : State) : Host.Outcome State Fault Refusal :=
  .next (if s.partResets then s.partitionReset part.val cause else s)

/-- The firmware of the Sepia and Ochre agents of a partition runs: their programs are firmware-owned (R272, R385, R441, WLD_STATUS). -/
def State.agentFw (s : State) (p : Nat) : State := (s.orReg .wldStatus (496 + p) 0 4).orReg .wldStatus (500 + p) 0 4

/-- PARTITION_RESET_DONE: the reset ends, the partition accepts BIND again unless it is offline, and clock steps that fell meanwhile apply
(R385, R386, R463, R488). -/
def execPartitionResetDone (part : Fin 4) (s : State) : Host.Outcome State Fault Refusal :=
  let p := part.val
  let q := s.part p
  if !q.resetting then .next s
  else
    let s1 := (((s.setPart p { q with resetting := false }).agentFw p).showClk).event p
    .next (s1.emit (.platformEvent 0x31 s1.partSensor))

/-- A write of UMB_CTRL.PART_RST: partitions not in reset are reset (R385, R448, R451). -/
def State.wrPartRst (s : State) (l : List Nat) : State :=
  l.foldl (fun s p => if s.partResets && s.blkOpen .umb 0 && !(s.part p).resetting then s.partitionReset p { source := 0x11 } else s) s

/-- PART_RST (R385, R448). -/
def execPartRst (parts : BitVec 4) (s : State) : Host.Outcome State Fault Refusal := .next (s.wrPartRst (partsOf parts))

/-! ## Warm reset -/

/-- A context under a warm reset: it has ended with PARTITION_RESET (R387, R449); what restore was in progress has not ended OK. -/
def Ctx.afterWarm (c : Ctx) (now : W64) : Ctx :=
  { st := .halted, status := if c.st = .halted ∨ c.st = .draining then c.status else stReset
    parts := c.parts, refmode := c.refmode, debug := c.debug, redundancy := c.redundancy, stepno := c.stepno
    fault := if c.st = .halted ∨ c.st = .draining then c.fault else { status := stReset, time := now }
    restoreBad := c.restoreBad || c.restore.isSome }

/-- A partition under a warm reset: core states, logical indices, offline and the Ochre floor are kept (R386, R449). -/
def Part.afterWarm (q : Part) : Part :=
  { colVw := q.colVw, resets := q.resets, offline := q.offline, logical := q.logical, coreState := q.coreState, withdrawn := q.withdrawn, kOchre := q.kOchre
    mv := q.mv, regBad := q.regBad }

/-- A stack under a warm reset: held in self-refresh with its contents and repairs (R449). -/
def Stack.afterWarm (v : Stack) : Stack := { sparesUsed := v.sparesUsed, hour := v.hour, selfRefresh := true }

/-- The AMap of the first `n` keys with a value for each. -/
def tabulate {α : Type} [DecidableEq α] (d : α) (n : Nat) (f : Nat → α) : AMap α :=
  (List.range n).filterMap (fun i => if f i = d then none else some (i, f i))

/-- The state that a warm reset leaves, before the boot ROM runs (R387, R449, R492). -/
def State.warmState (s : State) : State :=
  let s1 := (List.range 4).foldl (fun s p => s.clearStore p) s
  let s2 := (List.range 4).foldl (fun s p => s.invalidate p) s1
  let fails := s.fld .hifDbgStatus 0 0 11 8
  let replace := s.fld .ochStatus 0 0 8 8
  let s3 := s2.resetRegs (fun _ => true) keepWarm
  let s4 := (s3.setFld .hifDbgStatus 0 0 11 8 fails).setFld .ochStatus 0 0 8 8 replace
  let s5 := (List.range 4).foldl (fun s p => s.setFld .ochStatus 0 0 (9 + p) (9 + p) (bit (decide ((s.part p).kOchre < 16)))) s4
  { s5 with
    ctxs := tabulate {} 4 (fun x => if (s.ctx x).st = .free then {} else (s.ctx x).afterWarm s.tim.now)
    cores := tabulate {} 400 (fun n => (s.core n).testOnly)
    parts := (List.range 4).filterMap (fun p =>
      let q := (s.part p).afterWarm
      if q = Part.fresh s.variant p then none else some (p, q))
    hbms := tabulate {} 20 (fun i => (s.stack i).afterWarm)
    inds := tabulate {} 48 (fun _ => { wasReset := true })
    links := []
    welds := []
    tim := { now := s.tim.now, frac := s.tim.frac }
    sep := { seq := s.sep.seq }
    och := { s.och with risk := 0, armed := true, tests := [] }
    hif := {}
    pwr := { temps := s.pwr.temps, droop := s.pwr.droop, energy := s.pwr.energy }
    mgmt := { s.mgmt with eid := 0, update := none, updateOk := false, spdm := 0, alg := 0, recovery := false, kat := [], preparing := false }
    latched := []
    calib := []
    away := []
    evals := []
    unlocked := [] }

/-- A warm reset of a kind (UMB_RST_CAUSE.KIND): it counts, and the boot ROM runs next (R448, R449). -/
def State.warmReset (s : State) (kind : Nat) : State :=
  let s1 := s.warmState
  (s1.setFld .umbRstCause 0 0 2 0 kind).setFld .umbRstCause 0 0 15 8 (min 255 (s.fld .umbRstCause 0 0 15 8 + 1))

/-- Whether a warm reset can start: PWR_GOOD is high and no thermal trip holds (R448, R462). During a warm reset a further one is absorbed
(R451). -/
def State.warmStarts (s : State) : Bool := !s.mgmt.powerOn && !s.pwr.tripped && (decide (1 ≤ s.stage) || s.mgmt.recovery)

/-- An error of device scope: the cause is logged and recorded (R380, R387). -/
def State.deviceReset (s : State) (cause : ErrCause) : State :=
  if !s.warmStarts then s
  else
    let s1 := s.errLog { scope := 4, source := cause.source.toNat, devLevel := true, inst := cause.inst.toNat, detail := cause.detail.toNat }
    (s1.warmReset 4).setReg .errLastReset 0 0 (BitVec.ofNat 32 (cause.source.toNat + 256))

/-- DEVICE_RESET: an error of device scope (R380, R387). -/
def execDeviceReset (cause : ErrCause) (s : State) : Host.Outcome State Fault Refusal := .next (s.deviceReset cause)

/-- DEV_RST_N: asserted with PWR_GOOD high (R448). -/
def execDevRstN (s : State) : Host.Outcome State Fault Refusal :=
  if !s.warmStarts then .next s
  else
    let s1 := s.warmReset 2
    .next (s1.setMgmt { s1.mgmt with pins := AMap.put true 1 false s1.mgmt.pins })

/-- A write of UMB_CTRL.WARM (R448). -/
def State.wrWarm (s : State) : State := if s.warmStarts && s.blkOpen .umb 0 then s.warmReset 3 else s

/-- WARM (R448). -/
def execWarm (s : State) : Host.Outcome State Fault Refusal := .next s.wrWarm

/-! ## Power-on reset -/

/-- POWER_ON_RESET: PWR_GOOD falls. Everything is lost but fused values, the flash and the Ochre daily means; the row repairs of the flash's
log become hard, and those not yet written to it may be lost (R339, R448, R449, R460, R462). Whether they are is a free value. Every partition is as
its variant has it fused (`Part.fresh`). -/
def execPowerOnReset (s : State) : Host.Outcome State Fault Refusal :=
  let m := s.mgmt
  let kept := if (Config.freeValue 1 s.free).toNat = 1 then m.repairLog else []
  let hard := (m.hard ++ m.flashLog ++ kept).eraseDups
  let used := fun (i : Nat) => (hard.filter (fun e => e.1 == i)).foldl (fun (a : AMap Nat) e =>
    AMap.put 0 (Config.bankOf e.2) (AMap.get 0 (Config.bankOf e.2) a + 1) a) []
  let s1 : State :=
    { pending := s.pending, free := s.free + 1, out := s.out, variant := s.variant, serial := s.serial, host := s.host
      hbms := tabulate {} 20 (fun i => { sparesUsed := used i })
      och := { means := s.och.means }
      mgmt := { flash := m.flash, active := m.active, svnFuse := m.svnFuse, hard := hard, pins := AMap.put true 0 false [] }
      images := s.images, headless := s.headless }
  let s2 := (List.range 20).foldl (fun s i => s.setFld .memRepair i 0 23 12 (min 0xFFF ((hard.filter (fun e => e.1 == i)).length))) s1
  .next (s2.setFld .umbRstCause 0 0 3 3 (bit m.trip))

/-! ## Boot and bring-up -/

/-- `n` bytes of the flash. -/
def State.flashRead (s : State) (a n : Nat) : List Byte := (List.range n).map (fun i => AMap.get 0 (a + i) s.mgmt.flash)

/-- The fused minimum SVN, as boots have raised it (R440). -/
def State.minSvn (s : State) : Nat := max Config.fusedMinSvn s.mgmt.svnFuse

/-- Whether a bank passes R440. -/
def State.bankOk (s : State) (bank : Nat) : Bool :=
  let a := bank * 0x1000000
  let h := s.flashRead a 1024
  let key := leField h 10 10
  let n := leField h 11 11
  leField h 0 3 == 0x4C584657 && decide (1 ≤ n ∧ n ≤ 8 ∧ key < 4) &&
    (List.range n).all (fun i =>
      let c := (h.drop (16 + 64 * i)).take 64
      decide (leField c 4 7 + leField c 8 11 ≤ 0x1000000) &&
        sha384 (s.flashRead (a + leField c 4 7) (leField c 8 11)) == c.drop 16) &&
    Config.keyHashOk key && !Config.keyRevoked key && Config.ecdsaVerifies key (sha384 (h.take 528)) ((h.drop 528).take 96) &&
    decide (s.minSvn ≤ leField h 8 8)

/-- The bank that boots: the ACTIVE one, then the other (R440). -/
def State.bootBank (s : State) : Option Nat :=
  if s.bankOk s.mgmt.active then some s.mgmt.active
  else if s.bankOk (1 - s.mgmt.active) then some (1 - s.mgmt.active) else none

/-- The host link trains while PERST_N is high: its rate, width and protocol are free values within R427; in recovery 2.5 GT/s ×1 (R427, R440,
R441). -/
def State.trainHost (s : State) : State :=
  if !AMap.get true 2 s.mgmt.pins then s
  else
    let rate := if s.mgmt.recovery then 1 else 1 + (Config.freeValue 32 s.free).toNat % 6
    let width := if s.mgmt.recovery then 1 else 2 ^ ((Config.freeValue 32 (s.free + 1)).toNat % 5)
    let cxl := if s.mgmt.recovery then 0 else (Config.freeValue 1 (s.free + 2)).toNat
    let s1 := s.drawN 3
    let s2 := ((s1.setFld .hifStatus 0 0 8 6 rate).setFld .hifStatus 0 0 13 9 width).setFld .hifStatus 0 0 14 14 cxl
    s2.setHif { s2.hif with linkUp := true, configReady := true }

/-- One unit whose Kermes generator failed its test vector: 0 to 399 a core's, 400 to 447 a link's, 448 to 467 a base die's, 468 upward a
Madder slice's, four to a core (R170). -/
def State.katFail (s : State) (u : Nat) : State :=
  let core := if u < 400 then some u else if 468 ≤ u ∧ u < 2068 then some ((u - 468) / 4) else none
  let bitNo := if core.isSome then 3 else if u < 448 then 4 else 5
  let part := match core with
    | some n => n / 100
    | none => if u < 448 then (u - 400) / 12 else (u - 448) / 5
  let inst := match core with
    | some n => n % 100
    | none => if u < 448 then u - 400 else u - 448
  let s1 := (s.orReg .krmErr 0 0 (BitVec.ofNat 32 (2 ^ bitNo))).errLog { scope := 8, source := 0x05, part := part, inst := inst }
  match core with
  | some n => if s1.coreState n = .fused then s1 else s1.setCoreState n .failed
  | none => s1

/-- The generators' test of a boot: each failure contained, KAT_DONE and KAT_PASS, and the replacement cause (R170, R425). -/
def State.runKat (s : State) (kat : List Nat) : State :=
  let l := kat.filter (fun u => decide (u < 2068))
  let s1 := l.foldl (fun s u => s.katFail u) (s.setMgmt { s.mgmt with kat := l })
  let s2 := (s1.setFld .krmStatus 0 0 0 0 1).setFld .krmStatus 0 0 1 1 (bit (l == []))
  if l = [] then s2 else s2.replaceCause 5 0

/-- BOOT: the boot ROM boots the first bank that passes, or enters recovery; clocks and host link start, the stacks leave self-refresh, and
every generator runs its test vector (R170, R440, R441, R449). -/
def execBoot (kat : List Nat) (s : State) : Host.Outcome State Fault Refusal :=
  if 1 ≤ s.stage ∨ s.mgmt.recovery ∨ s.pwr.tripped then .next s
  else
    let pins := AMap.put true 1 true (AMap.put true 0 true s.mgmt.pins)
    match s.bootBank with
    | none =>
      let s1 := (s.setMgmt { s.mgmt with powerOn := false, pins := pins, recovery := true }).setFld .hifStatus 0 0 5 5 1
      .next s1.trainHost
    | some b =>
      let h := s.flashRead (b * 0x1000000) 16
      let svn := if natBit (leField h 9 9) 0 then max s.mgmt.svnFuse (leField h 8 8) else s.mgmt.svnFuse
      let s1 := s.setMgmt { s.mgmt with powerOn := false, vcoreOn := true, pins := pins, booted := b, svnFuse := svn }
      let s2 := (s1.setReg .gctFw 0 0 (BitVec.ofNat 32 (leField h 4 7))).setFld .hifStatus 0 0 2 1 2
      let s3 := (s2.setFld .hifStatus 0 0 3 3 b).setFld .hifStatus 0 0 4 4 (bit (b != s.mgmt.active))
      let s4 := (List.range 20).foldl (fun s i => s.setStack i { s.stack i with selfRefresh := false }) s3
      let s5 := (List.range 4).foldl (fun s p => s.agentFw p) s4
      .next (s5.bringUpVcore.trainHost.runKat kat)

/-- BRING_UP_READY: every core has run its test pass; the partitions respond and commands are taken (R441, R493). -/
def execBringUpReady (s : State) : Host.Outcome State Fault Refusal :=
  if s.stage ≠ 2 ∨ s.mgmt.recovery then .next s
  else
    let s1 := (s.setFld .hifStatus 0 0 2 1 3).setFld .hifStatus 0 0 0 0 1
    .next ((List.range 4).foldl (fun s p => s.idleCores p) s1)

/-! ## Host link -/

/-- HOST_LINK_RESET: PERST_N asserted or a Function Level Reset (R436, R450). Contexts go on; the function is in D0. -/
def execHostLinkReset (flr : Bool) (s : State) : Host.Outcome State Fault Refusal :=
  let s1 := (List.range 16).foldl (fun s q => (s.setFld .hifQCfg 0 q 9 9 0).orphan q) s
  let s2 := (List.range 16).foldl (fun s w => (s.setReg .hifT3Lo 0 w 0).setReg .hifT3Hi 0 w 0) s1
  let s3 := s2.hif.t3.foldl (fun s q => s.t3Fail q) (s2.setNonce 0 false)
  let s4 := s3.setHif { s3.hif with d3hot := false, linkUp := flr && s.hif.linkUp, configReady := flr && s.hif.configReady }
  .next (if flr then s4
    else
      let s5 := s4.setMgmt { s4.mgmt with pins := AMap.put true 2 false s4.mgmt.pins }
      (s5.setFld .hifStatus 0 0 13 6 0).setFld .hifStatus 0 0 14 14 0)

/-- PERST_N_RELEASE: PERST_N is deasserted; the link trains once the host PHY runs (R441). -/
def execPerstNRelease (s : State) : Host.Outcome State Fault Refusal :=
  let s1 := s.setMgmt { s.mgmt with pins := AMap.put true 2 true s.mgmt.pins }
  .next (if (1 ≤ s.stage ∨ s.mgmt.recovery) ∧ !s.hif.linkUp then s1.trainHost else s1)

/-- D3HOT_ENTRY: the function enters D3hot; partitions and contexts go on (R427, R458). -/
def execD3hotEntry (s : State) : Host.Outcome State Fault Refusal :=
  .next (if s.hif.linkUp then s.setHif { s.hif with d3hot := true } else s)

/-! ## Partition power -/

/-- Whether the fabric clocks of every partition, and so of the TIM block, stand still (R303, R452, R459, R462). -/
def State.clocksStopped (s : State) : Bool := s.pwr.tripped || !s.mgmt.vcoreOn || (List.range 4).all (fun p => (s.part p).pwr != .idle)

/-- Device time as the Umber domain's shadow takes it over, at a multiple of 40 ns; a member is ACQUIRING until it has locked again (R303,
R308). -/
def State.shadowTime (s : State) : State :=
  let s1 := s.setTim { s.tim with now := BitVec.ofNat 64 ((s.tim.now.toNat + 39) / 40 * 40), frac := 0 }
  if s.role = 1 then s1.timState 1 else s1

/-- Whether a partition may enter RET or OFF: no context bound, every link DISABLED, not in reset (R456). -/
def State.mayRest (s : State) (p : Nat) : Bool :=
  (s.partSlot p).isNone && (List.range 12).all (fun i => s.linkState (12 * p + i) == 0) && !(s.part p).resetting

/-- A write of UMB_PART_PWR (R456): refused whole where a partition that it sends to RET or OFF may not go there. -/
def State.wrPartPwr (s : State) (v : W32) : State :=
  let t := fun (p : Nat) => bitsOf v (2 * p + 1) (2 * p)
  if !s.blkOpen .umb 0 then s
  else if (List.range 4).any (fun p => decide (2 ≤ t p) && !s.mayRest p) then s.orReg .umbStatus 0 0 0x800
  else
    let s1 := (List.range 4).foldl (fun s p =>
      let s1 := if t p = 0 then s else s.setFld .umbPartPwr 0 0 (2 * p + 1) (2 * p) (t p)
      if 2 ≤ t p then s1.enterLow p (t p = 3)
      else if t p = 1 ∧ (s1.part p).pwr ≠ .idle then s1.setPart p { s1.part p with waking := true }
      else s1) s
    if s1.clocksStopped && !s.clocksStopped then s1.shadowTime else s1

/-- UMB_PART_PWR_WRITE (R456). -/
def execUmbPartPwrWrite (v : W32) (s : State) : Host.Outcome State Fault Refusal := .next (s.wrPartPwr v)

/-- PARTITION_WAKE_DONE: a partition that leaves RET or OFF reaches IDLE (R456, R457). -/
def execPartitionWakeDone (part : Fin 4) (s : State) : Host.Outcome State Fault Refusal :=
  .next (if (s.part part.val).waking then s.wakePart part.val else s)

/-- A write of UMB_CTRL.PREPARE_OFF: every stack goes to self-refresh, and the records are on their way to the flash (R460). -/
def State.wrPrepareOff (s : State) : State :=
  if !s.blkOpen .umb 0 then s
  else
    let s1 := (List.range 20).foldl (fun s i => s.setStack i { s.stack i with selfRefresh := true }) s
    s1.setMgmt { s1.mgmt with preparing := true }

/-- PREPARE_OFF (R460). -/
def execPrepareOff (s : State) : Host.Outcome State Fault Refusal := .next s.wrPrepareOff

/-- OFF_READY: the Ochre means and the repair log stand in the flash (R460). -/
def execOffReady (s : State) : Host.Outcome State Fault Refusal :=
  if !s.mgmt.preparing then .next s
  else
    let s1 := s.setMgmt { s.mgmt with preparing := false, flashLog := s.mgmt.flashLog ++ s.mgmt.repairLog, repairLog := [] }
    .next (s1.setFld .umbStatus 0 0 8 8 1)

/-! ## Power and thermal control -/

/-- A change of the clock steps shown and, where it lowers a partition's clock, reported and rechecked (R325, R463, R464). -/
def State.newClocks (s : State) (old : Nat → Nat) : State :=
  let s1 := s.showClk
  if (List.range 4).any (fun p => decide (s1.effK p < old p)) then (s1.derated old).recheck else s1

/-- The clock step of an interval of power (R461): one step down above the limit, at k = 8 the withheld issue; one step up after 100
intervals below the limit less four guards, of which the first ends the withheld issue. -/
def State.clockStep (s : State) (above below : Bool) : State :=
  let w := s.pwr
  if above then
    if 8 < w.k then (s.setPwr { w with below := 0, k := w.k - 1 }).bump .umbCnt 0 1 1 else s.setPwr { w with below := 0, withheld := true }
  else if below then
    if 99 ≤ w.below then
      if w.withheld then s.setPwr { w with below := 0, withheld := false } else s.setPwr { w with below := 0, k := min 16 (w.k + 1) }
    else s.setPwr { w with below := w.below + 1 }
  else s.setPwr { w with below := 0 }

/-- An interval in which issue was withheld is counted (R461). -/
def State.countWithheld (s : State) : State := if s.pwr.withheld then s.bump .umbCnt 0 3 1 else s

/-- POWER_INTERVAL: the package power, in mW, of an interval of 100 µs (R461). Withheld issue is the step below k = 8 and ends with the first raise. -/
def execPowerInterval (mw : Nat) (s : State) : Host.Outcome State Fault Refusal :=
  let limit := s.fld .umbPwrLimit 0 0 15 0 * 1000
  let guard := s.fld .umbPwrLimit 0 0 23 16 * 1000
  let old := fun i => s.effK i
  let w := s.pwr
  let s0 := (s.setPwr { w with recent := (mw :: w.recent).take 10, energy := w.energy + mw }).setFld .umbStatus 0 0 31 16 (min 0xFFFF (mw / 1000))
  .next (((s0.clockStep (decide (limit - guard < mw)) (decide (mw < limit - 4 * guard))).countWithheld).newClocks old)

/-- A thermal trip: every fast clock stops, THERM_TRIP_N is asserted, every context is lost, and the trip stands in the boot record (R462). -/
def State.trip (s : State) : State :=
  let s1 := s.warmState
  let s2 := { s1 with ctxs := [], pwr := { s1.pwr with tripped := true }
                      mgmt := { s1.mgmt with trip := true, pins := AMap.put true 4 false s1.mgmt.pins } }
  (s2.shadowTime).emit (.pin 4 false)

/-- The thermal step of one partition at a junction temperature, sampled every 10 µs (R462): above THROTTLE_C the first step comes at once and one
more every 1 ms; below THROTTLE_C − 5 for 100 ms a step back. -/
def State.thermalStep (s : State) (p temp : Nat) : State :=
  let th := s.fld .umbTherm 0 0 7 0
  let q := s.part p
  let w := s.pwr
  let hot := AMap.get 0 p w.hot
  let cool := AMap.get 0 p w.cool
  let s0 := s.setPwr { w with temps := AMap.put 0 p temp w.temps
                              hot := AMap.put 0 p (if th < temp then (hot + 1) % 100 else 0) w.hot
                              cool := AMap.put 0 p (if temp + 5 < th then (cool + 1) % 10000 else 0) w.cool }
  if th < temp then
    (if hot = 0 ∧ 8 < q.kTherm then (s0.setPart p { q with kTherm := q.kTherm - 1 }).bump .umbCnt 0 2 1 else s0)
  else if temp + 5 < th ∧ cool = 9999 then s0.setPart p { q with kTherm := min 16 (q.kTherm + 1) }
  else s0

/-- THERMAL_SAMPLE: the hottest junction of each partition, in °C (R462). -/
def execThermalSample (temps : List Nat) (s : State) : Host.Outcome State Fault Refusal :=
  if s.pwr.tripped ∨ s.mgmt.powerOn then .next s
  else if temps.any (fun t => decide (110 ≤ t)) then .next s.trip
  else
    let old := fun i => s.effK i
    let s1 := (temps.take 4).zipIdx.foldl (fun s e => s.thermalStep e.2 e.1) s
    let s2 := s1.setFld .umbTherm 0 0 31 24 (min 255 (temps.foldl max 0))
    .next (s2.newClocks old)

end Sys2Proof.Machine
end

