-- ==== Sys2Proof/Machine/Mgmt.lean ====
section
/-! DEFINITION. Management over MCTP, PLDM and SPDM (R442 to R445), and the snoops of CXL.cache (R428). -/

namespace Sys2Proof.Machine

/-- Whether the Umber controller answers MCTP control and PLDM firmware update: firmware runs, or recovery (R440, R441). -/
def State.mgmtUp (s : State) : Bool := decide (1 ≤ s.stage) || s.mgmt.recovery

/-- Whether it answers the other message types too (R440). -/
def State.mgmtFull (s : State) : Bool := decide (1 ≤ s.stage) && !s.mgmt.recovery

/-- An answer on the binding of the request. -/
def State.answer (s : State) (r : Reply) : State := s.emit (.mgmt r)

/-! ## MCTP control -/

/-- SET_ENDPOINT_ID: the bus owner assigns the endpoint identifier; the null and broadcast identifiers leave it (R442, log entry 95: PRESUMED). -/
def execSetEndpointId (eid : Byte) (s : State) : Host.Outcome State Fault Refusal :=
  if !s.mgmtUp then .next s
  else
    let e := if eid = 0 ∨ eid = 0xFF then s.mgmt.eid else eid
    .next ((s.setMgmt { s.mgmt with eid := e }).answer (.endpoint e))

/-! ## PLDM monitoring -/

/-- A reading in whole units: the quotient, or one more where it is not whole, as a free value says (the manual states no rounding). -/
def State.rounded (s : State) (a b : Nat) : Nat := a / b + (if a % b = 0 then 0 else (Config.freeValue 1 s.free).toNat)

/-- What a sensor of R443 reads, `none` for a number that no sensor has. -/
def State.sensorValue (s : State) (id : Nat) : Option Nat :=
  let temp := fun (p : Nat) => AMap.get 0 p s.pwr.temps
  match id with
  | 0x01 => some (((List.range 4).map temp).foldl max 0)
  | 0x02 => some (temp 0)
  | 0x03 => some (temp 1)
  | 0x04 => some (temp 2)
  | 0x05 => some (temp 3)
  | 0x10 => some (s.rounded (s.pwr.recent.foldl (· + ·) 0) (1000 * max 1 s.pwr.recent.length))
  | 0x11 => some (s.rounded s.pwr.energy 10000000000)
  | 0x20 => some s.och.risk
  | 0x21 => some (s.fld .ochLife 0 0 31 16)
  | 0x30 => some (s.fld .ochReplace 0 0 5 0)
  | 0x31 => some s.partSensor
  | 0x32 => some (s.mgmt.booted + 2 * s.fld .hifStatus 0 0 4 4 + 4 * bit s.mgmt.recovery)
  | _ => none

/-- PLDM_MONITORING_REQUEST: a sensor, whose number stands in the first two bytes, is read, or PDRs are answered (R443, log entry 95: PRESUMED). -/
def execPldmMonitoringRequest (body : List Byte) (s : State) : Host.Outcome State Fault Refusal :=
  if !s.mgmtFull then .next s
  else match (if body.length = 2 then s.sensorValue (leField body 0 1) else none) with
    | some v => .next (s.draw.answer (.sensor (leField body 0 1) v))
    | none => .next (s.answer (.pdr (Config.pdrBody body)))

/-! ## PLDM firmware update -/

/-- REQUEST_UPDATE: an update of the bank that is not ACTIVE starts, or one is already going on (R444). -/
def execRequestUpdate (_body : List Byte) (s : State) : Host.Outcome State Fault Refusal :=
  if !s.mgmtUp then .next s
  else if s.mgmt.update.isSome then .next (s.answer .alreadyInUpdateMode)
  else .next ((s.setMgmt { s.mgmt with update := some (1 - s.mgmt.active), updateOk := false }).answer .updateAccepted)

/-- A bank of the flash replaced by an image, the rest of it erased. -/
def writeBank (m : AMap Byte) (bank : Nat) (img : List Byte) : AMap Byte :=
  let a := bank * 0x1000000
  ((img.take 0x1000000).zipIdx).foldl (fun m e => AMap.put 0 (a + e.2) e.1 m) (m.filter (fun e => e.1 < a || a + 0x1000000 ≤ e.1))

/-- VERIFY_COMPLETE: the whole bank image, which the request carries (log entry 95: PRESUMED), stands in the bank and is checked under R440 (R444). -/
def execVerifyComplete (body : List Byte) (s : State) : Host.Outcome State Fault Refusal :=
  if !s.mgmtUp then .next s
  else match s.mgmt.update with
    | none => .next (s.answer .notInUpdateMode)
    | some b =>
      let s1 := s.setMgmt { s.mgmt with flash := writeBank s.mgmt.flash b body }
      let ok := s1.bankOk b
      .next ((s1.setMgmt { s1.mgmt with updateOk := ok }).answer (.verified ok))

/-- ACTIVATE_FIRMWARE: ACTIVE is set for a bank that was verified, and the update ends; where the request asks for the reset, a warm reset follows
(R444, R448, log entry 95: PRESUMED). -/
def execActivateFirmware (body : List Byte) (s : State) : Host.Outcome State Fault Refusal :=
  if !s.mgmtUp then .next s
  else match s.mgmt.update with
    | none => .next (s.answer .notInUpdateMode)
    | some b =>
      if !s.mgmt.updateOk then .next (s.answer (.activated false))
      else
        let s1 := (s.setMgmt { s.mgmt with active := b, update := none, updateOk := false }).answer (.activated true)
        .next (if natBit (leField body 0 0) 0 ∧ s1.warmStarts then s1.warmReset 5 else s1)

/-! ## SPDM -/

/-- An SPDM request answered, from a stage of the connection on (R445); the stages are those of SPDM 1.2 (log entry 95: PRESUMED). The body is open. -/
def State.spdmAnswer (s : State) (request need : Nat) (body : List Byte) : State :=
  if !s.mgmtFull then s
  else if s.mgmt.spdm < need ∨ (4 ≤ request ∧ leField body 0 0 ≠ 0) then s.answer .spdmError
  else s.draw.answer (.spdm request (Config.spdmBody request s.free))

/-- GET_VERSION: the connection begins (R445). -/
def execGetVersion (body : List Byte) (s : State) : Host.Outcome State Fault Refusal :=
  .next ((if s.mgmtFull then s.setMgmt { s.mgmt with spdm := 1, alg := 0 } else s).spdmAnswer 0 1 body)

/-- GET_CAPABILITIES (R445). -/
def execGetCapabilities (body : List Byte) (s : State) : Host.Outcome State Fault Refusal :=
  let s1 := s.spdmAnswer 1 1 body
  .next (if s.mgmtFull ∧ s.mgmt.spdm = 1 then s1.setMgmt { s1.mgmt with spdm := 2 } else s1)

/-- NEGOTIATE_ALGORITHMS: ECDSA P-384 and SHA-384 (R445). -/
def execNegotiateAlgorithms (body : List Byte) (s : State) : Host.Outcome State Fault Refusal :=
  let s1 := s.spdmAnswer 2 2 body
  .next (if s.mgmtFull ∧ s.mgmt.spdm = 2 then s1.setMgmt { s1.mgmt with spdm := 3, alg := 1 } else s1)

/-- GET_DIGESTS (R445). -/
def execGetDigests (body : List Byte) (s : State) : Host.Outcome State Fault Refusal := .next (s.spdmAnswer 3 3 body)

/-- GET_CERTIFICATE: slot 0 holds the chain; the request names the slot in its first byte (R445). -/
def execGetCertificate (body : List Byte) (s : State) : Host.Outcome State Fault Refusal := .next (s.spdmAnswer 4 3 body)

/-- CHALLENGE: the certificate slot in the first byte (R445). -/
def execChallenge (body : List Byte) (s : State) : Host.Outcome State Fault Refusal := .next (s.spdmAnswer 5 3 body)

/-- GET_MEASUREMENTS: index 1 to 4 of the measurements of R445 in the first byte, 0xFF for all, 0 for none. -/
def execGetMeasurements (body : List Byte) (s : State) : Host.Outcome State Fault Refusal :=
  let i := leField body 0 0
  if !s.mgmtFull then .next s
  else if s.mgmt.spdm < 3 ∨ (4 < i ∧ i ≠ 0xFF) then .next (s.answer .spdmError)
  else
    let l := if i = 0 then [] else if i = 0xFF then [1, 2, 3, 4] else [i]
    .next (s.draw.answer (.measurements l s.minSvn (s.fld .hifDbgStatus 0 0 3 0) (Config.spdmBody 6 s.free)))

/-! ## CXL.cache -/

/-- CXL_SNOOP: a snoop of the host is answered as a miss (R428). -/
def execCxlSnoop (addr : Nat) (s : State) : Host.Outcome State Fault Refusal :=
  .next (if s.hif.linkUp then s.emit (.snoopMiss addr) else s)

end Sys2Proof.Machine
end

