-- ==== Sys2Proof/Machine/Bar0.lean ====
section
/-! DEFINITION. Reads and writes of BAR0: what each register shows, what a write of each does, locks, event masks, seeds, debug reads of
accumulators, and the latched pairs (R6 to R8, R80, R122, R161, R304, R484 to R494, and the register tables). -/

namespace Sys2Proof.Machine

/-! ## What registers show -/

/-- A bit for each index below `n` that a test holds of. -/
def maskOf (n : Nat) (f : Nat → Bool) : Nat := ((List.range n).map (fun i => bit (f i) * 2 ^ i)).foldl (· + ·) 0

/-- A Vat tag as R97 lays it out. -/
def tagNum (t : VatTag) (undo : Bool) : Nat :=
  t.addr % 2 ^ 36 + t.chain * 2 ^ 36 + bit t.valid * 2 ^ 53 + bit t.dirty * 2 ^ 54 + bit undo * 2 ^ 55 + t.rnd * 2 ^ 56

/-- The tag of a Vat tile of a core, with its UNDO bit (R97, R102). -/
def Core.tagOf (c : Core) (tile : Nat) : Nat :=
  tagNum (AMap.get {} tile c.vat) (c.epochs.any (fun e => e.undo.any (fun u => u.tile == tile)))

/-- Whether the context that owns a core is in debug mode (R80). -/
def State.debugCore (s : State) (n : Nat) : Bool :=
  match s.coreSlot n with
  | some x => (s.ctx x).debug
  | none => false

/-- The FP32 banks of an array, or either FP16 half of one, that stand in an open bank set. -/
def openMask (l : List BankSet) (arr banks : Nat) : Nat :=
  maskOf banks (fun b => l.any (fun k => k.arr == arr && (List.range (shapeBanks k.shape)).any (fun i =>
    (if k.fp16 then (k.bank + i) / 2 else k.bank + i) == b)))

/-- The halves of the promise and of the launch time of a slot (R325, R327, TIM_PROMISE, TIM_LAUNCH): of the running program, else of the
admitted one, else zero. -/
def State.progTimes (s : State) (x : Nat) : Nat × Nat :=
  match (s.ctx x).running, (s.ctx x).admitted with
  | some g, _ => (g.p, g.tL)
  | none, some g => (g.p, g.tL)
  | none, none => (0, 0)

/-- GCT_CTX_STATE: a running context with a save request shows DRAINING (R251). -/
def State.ctxStateWord (s : State) (x : Nat) : W32 :=
  let c := s.ctx x
  let st := match c.st with
    | .free => 0
    | .bound => 1
    | .running => if c.save.isSome then 3 else 2
    | .draining => 3
    | .halted => 4
  packBits [(st, 0), (c.status, 8), (c.parts.toNat, 16), (bit c.refmode, 20), (bit c.debug, 21), (c.redundancy.toNat, 22)]

/-- What the ERR block shows of a core (R388, ERR_CORE_DATA). -/
def State.coreDataWord (s : State) (n : Nat) : W32 :=
  let c := s.core n
  let st := match s.coreState n with
    | .inService => 0
    | .spare => 1
    | .testing => 2
    | .suspect => 3
    | .failed => 4
    | .fused => 5
  packBits [(st, 0), ((s.lcore n).getD 0, 3), (min 3 c.suspect, 10), (c.lastTest.toNat / 2 ^ 36 % 2 ^ 20, 12)]

/-- A count whose events are timing, which the model does not follow: a free value (log entry 3: DESIGN CHOICE). -/
def State.openCount (s : State) (r : Reg) (u n : Nat) : W32 := Config.freeValue 32 (s.free + r.addr u n)

/-- A register's word where it shows live state that stands elsewhere; other registers show what they hold. Write-only fields read as zero (R7). -/
def State.shown (s : State) (r : Reg) (u n : Nat) : W32 :=
  let now := s.tim.now
  match r with
  | .timNowLo => now.extractLsb' 0 32
  | .timPromiseLo => BitVec.ofNat 32 (s.progTimes n).1
  | .timLaunchLo => BitVec.ofNat 32 (s.progTimes n).2
  | .timNowHi | .timPpsCapHi | .timPromiseHi | .timLaunchHi | .sepCkDigestHi | .gctCtxTimeHi => AMap.get 0 (r.addr u n) s.latched
  | .memUeAddrHi => (s.reg r u n &&& 0xFFFF0000#32) ||| (AMap.get 0 (r.addr u n) s.latched &&& 0xFFFF#32)
  | .timRate => BitVec.ofInt 32 s.tim.rate
  | .timStatus =>
    (s.reg r u n &&& 0xF00#32) ||| packBits [(s.tim.state, 0), (bit s.clocksStopped, 3),
      (bit (s.tim.ppsSeen && decide (now.toNat ≤ s.tim.lastPps.toNat + 2500000000)), 4)]
  | .gctStatus => packBits [(maskOf 4 (fun x => (s.ctx x).st != .free), 0), (maskOf 4 (fun x => (s.ctx x).st == .halted), 4),
      (maskOf 4 (fun x => (s.ctx x).admitted.isSome), 8), (bit ((List.range 4).any (fun x => (s.ctx x).checking.isSome)), 12)]
  | .gctCtxState => s.ctxStateWord n
  | .gctCtxFault0 =>
    let f := (s.ctx n).fault
    packBits [(f.pcore, 0), (f.part, 7), (f.lcore, 9), (f.word.toNat, 16), (f.slot, 28), (bit f.valid, 31)]
  | .gctCtxFault1 =>
    let f := (s.ctx n).fault
    packBits [(f.op, 0), (f.epoch, 8), (bit f.inEpoch, 10), (bit f.atIssue, 11), (f.other, 12)]
  | .gctCtxTimeLo => (s.ctx n).fault.time.extractLsb' 0 32
  | .gctCtxStep => (s.ctx n).stepno
  | .gctPartStatus =>
    let q := s.part u
    packBits [(if 3 ≤ s.stage then q.logical.length else 0, 0), (s.countIn u .spare, 7), (s.countIn u .failed, 14),
      ((s.partSlot u).getD 0, 21), (bit (s.partSlot u).isSome, 23), (bit q.offline, 24)]
  | .woaStatus =>
    let c := s.core u
    packBits [(maskOf 2 (fun a => c.flight.contains a || c.flight.contains (8 + a)), 0), (maskOf 2 (fun a => s.sleeping (.core u (1 + a))), 2), (openMask c.woaSets 0 8, 8), (openMask c.woaSets 1 8, 16),
      (bit (s.debugCore u), 24)]
  | .woaCnt => if n = 2 ∨ n = 3 then s.openCount r u n else s.reg r u n
  | .madStatus =>
    let c := s.core u
    packBits [(maskOf 4 (fun a => c.flight.contains (2 + a)), 0), (maskOf 4 (fun a => s.sleeping (.core u (3 + a))), 4),
      (((List.range 4).map (fun a => openMask c.madSets a 4 * 2 ^ (4 * a))).foldl (· + ·) 0, 8), (bit (s.debugCore u), 24)]
  | .madCnt => if n ≤ 3 ∨ n = 5 then s.openCount r u n else s.reg r u n
  | .vatStatus =>
    let c := s.core u
    packBits [((c.vat.filter (fun e => e.2.valid)).length, 0), ((c.vat.filter (fun e => e.2.dirty)).length, 10),
      ((c.epochs.map (fun e => e.undo.length)).foldl (· + ·) 0, 20), (bit (decide (0 < c.vwAck)), 27)]
  | .vatVwOut => BitVec.ofNat 32 (min 0xFFFF (s.core u).vwAck)
  | .vatCnt => if n = 3 then s.openCount r u n else s.reg r u n
  | .vatTagLo => BitVec.ofNat 32 ((s.core u).tagOf (s.fld .vatTagIdx u 0 8 0))
  | .vatTagHi => BitVec.ofNat 32 ((s.core u).tagOf (s.fld .vatTagIdx u 0 8 0) / 2 ^ 32)
  | .morStatus =>
    let c := s.core u
    packBits [(bit (s.sleeping (.core u 7)), 1), (c.cf.length, 8), (c.samples.length, 16)]
  | .krmStatus => (s.reg r u n &&& 0xB#32) ||| packBits [(bit s.anyArmed, 2), (maskOf 4 (fun x => (s.ctx x).st != .free), 4)]
  | .krmCnt => BitVec.ofNat 32 (AMap.get 0 n s.evals / 65536)
  | .krmNtabA => (normalEntry (s.fld .krmNtabIdx 0 0 9 0)).1
  | .krmNtabB => (normalEntry (s.fld .krmNtabIdx 0 0 9 0)).2
  | .indStatus =>
    let e := s.ind u
    packBits [(bit (!e.walks.isEmpty || !e.edits.isEmpty || e.spill.isSome), 0), (bit (!e.awake), 1), (e.walks.length, 2),
      (min 255 e.retire.length, 8), (e.staging.length, 16)]
  | .indDevFrames => packBits [(s.fld r u n 15 0, 0), (min 0xFFFF (s.ind u).devFree.length, 16)]
  | .memStatus =>
    let k := s.retiredCount u
    packBits [(bit (decide (2 ≤ s.stage)), 0), (bit (s.stack u).selfRefresh, 1),
      (bit (natBit (s.reg .memCtrl u 0).toNat 0 && decide (2 ≤ s.stage) && !(s.stack u).selfRefresh), 2), (bit (decide (0 < k)), 3), (k, 4)]
  | .memCnt =>
    if n = 2 then BitVec.ofNat 32 ((s.stack u).vatWrites / 65536) else if n = 3 ∨ n = 4 then s.reg r u n else s.openCount r u n
  | .errStatus => (s.reg r u n &&& 1#32) ||| packBits [(maskOf 4 (fun p => (s.part p).resetting), 1), (maskOf 4 (fun p => (s.part p).offline), 5),
      (maskOf 4 (fun x => (s.ctx x).arb.state != 0), 9)]
  | .errCtxStatus =>
    let c := s.ctx n
    (s.reg r u n &&& 0xB0000#32) ||| packBits [(min 0xFFFF c.tally, 0), (bit c.replayed, 18), (min 255 c.arbs, 24)]
  | .errCoreData => s.coreDataWord (100 * s.fld .errCoreIdx 0 0 8 7 + s.fld .errCoreIdx 0 0 6 0)
  | .ochSensorData =>
    let cls := s.fld .ochSensorIdx 0 0 2 0
    let p := s.fld .ochSensorIdx 0 0 4 3
    let i := s.fld .ochSensorIdx 0 0 12 5
    packBits [(s.stressAt cls p i, 0), (min 0xFFFFFF (s.rawOf cls p i), 8)]
  | .sepCkStatus => s.reg r u n ||| packBits [(bit ((s.ctx n).st != .free && !s.takesCmp n), 23)]
  | .sepCnt => if n = 5 then s.openCount r u n else s.reg r u n
  | .sepStatus => (s.reg r u n &&& 0x1F#32) ||| packBits [(maskOf 4 (fun x => (s.ctx x).savePending), 5)]
  | .umbStatus =>
    let ps := fun (p : Nat) => if !s.mgmt.vcoreOn then 3 else if (s.partSlot p).isSome then 0 else match (s.part p).pwr with
      | .idle => 1
      | .ret => 2
      | .off => 3
    (s.reg r u n &&& 0xFFFFFF00#32) ||| packBits ((List.range 4).map (fun p => (ps p, 2 * p)))
  | .umbCnt => if n = 4 then BitVec.ofNat 32 (s.pwr.wakes / 65536) else s.reg r u n
  | .wldProgData => AMap.get 0 (s.fld .wldProgIdx u 0 11 0) (s.weld u).prog
  | .dbgStatus => packBits [(s.fld .hifDbgStatus 0 0 3 0, 0), (maskOf 4 (fun x => (s.ctx x).debug), 4)]
  | .woaAccData =>
    let i := s.reg .woaAccIdx u 0
    if s.debugCore u then (AMap.get (0, 0) (8192 * bitsOf i 13 13 + bitsOf i 12 0) (s.core u).woaAcc).1 else 0
  | .madAccData =>
    let i := s.reg .madAccIdx u 0
    if s.debugCore u then (AMap.get (0, 0) (4096 * bitsOf i 13 12 + bitsOf i 11 0) (s.core u).madAcc).1 else 0
  | _ => s.reg r u n &&& ~~~r.info.wo

/-- Whether the control registers of a partition that answer in every power state of it do: GCT_PART_STATUS and GCT_PART_LOCK (R485, R493). -/
def State.partCtl (s : State) (p : Nat) : Bool := !s.hif.d3hot && !s.mgmt.recovery && decide (3 ≤ s.stage) && !(s.part p).resetting

/-- Whether a register answers a read (R485). -/
def State.answers (s : State) (r : Reg) (u : Nat) : Bool := if r = .gctPartStatus then s.partCtl u else s.blkOpen r.info.blk u

/-- What a read of a register gives: zero where its block does not answer, as of a fused-off core or a partition in reset (R3, R485). -/
def State.readReg (s : State) (r : Reg) (u n : Nat) : W32 := if s.answers r u then s.shown r u n else 0

/-! ## Latched pairs and debug reads -/

/-- A read of a LO register with its HI register: a block that cannot respond reads as zero; else the upper half is latched. A read of 8 bytes returns
both halves, the lower first (R304, R484, R485). -/
def State.readPair (s : State) (wide : Bool) (lo hi : Reg) (u n : Nat) (upper : W32) : State :=
  let s1 := if !s.blkOpen lo.info.blk u then s.emit (.regRead 0)
    else (({ s with latched := AMap.put 0 (hi.addr u n) upper s.latched } : State)).emit (.regRead (s.readReg lo u n))
  if wide then s1.emit (.regRead (s1.readReg hi u n)) else s1

/-- LATCHED_PAIR_READ: the LO register of a pair is read, and its HI half latched (R304 and the register tables). -/
def execLatchedPairRead (r : PairRead) (s : State) : Host.Outcome State Fault Refusal :=
  match r.pair with
  | .timNow => .next (s.readPair r.wide .timNowLo .timNowHi 0 0 (s.tim.now.extractLsb' 32 32))
  | .timPpsCap => .next (s.readPair r.wide .timPpsCapLo .timPpsCapHi 0 0 (s.reg .timPpsCapHi 0 0))
  | .timPromise x => .next (s.readPair r.wide .timPromiseLo .timPromiseHi 0 x.val (BitVec.ofNat 32 ((s.progTimes x.val).1 / 2 ^ 32)))
  | .timLaunch x => .next (s.readPair r.wide .timLaunchLo .timLaunchHi 0 x.val (BitVec.ofNat 32 ((s.progTimes x.val).2 / 2 ^ 32)))
  | .memUeAddr t => .next (s.readPair r.wide .memUeAddrLo .memUeAddrHi t.val 0 (s.reg .memUeAddrHi t.val 0))
  | .sepCkDigest x => .next (s.readPair r.wide .sepCkDigestLo .sepCkDigestHi 0 x.val (s.reg .sepCkDigestHi 0 x.val))
  | .gctCtxTime x => .next (s.readPair r.wide .gctCtxTimeLo .gctCtxTimeHi 0 x.val ((s.ctx x.val).fault.time.extractLsb' 32 32))

/-- A read of an accumulator window, whose WORD advances where AUTO_INC is set (R80, R81, R122). `key`: the selected array. While it has an
instruction in flight a read in debug mode gives zero and sets DBG_BUSY, bit `busy` of `err`. -/
def State.readAcc (s : State) (idx data err : Reg) (n top key busy : Nat) : State :=
  if !s.blkOpen .core n then s.emit (.regRead 0)
  else
    let s1 := if s.debugCore n && (s.core n).flight.contains key then (s.emit (.regRead 0)).orReg err n 0 (BitVec.ofNat 32 (2 ^ busy))
      else s.emit (.regRead (s.readReg data n 0))
    if natBit (s.reg idx n 0).toNat 14 then s1.setFld idx n 0 top 0 (s.fld idx n 0 top 0 + 1) else s1

/-- WOA_ACC_DATA_READ (R80, R81). -/
def execWoaAccDataRead (k : CoreId) (s : State) : Host.Outcome State Fault Refusal := 
  .next (s.readAcc .woaAccIdx .woaAccData .woaErr k.key 12 (s.fld .woaAccIdx k.key 0 13 13) 4)

/-- MAD_ACC_DATA_READ (R122). -/
def execMadAccDataRead (k : CoreId) (s : State) : Host.Outcome State Fault Refusal := 
  .next (s.readAcc .madAccIdx .madAccData .madErr k.key 11 (2 + s.fld .madAccIdx k.key 0 13 12) 8)

/-! ## Locks and masks -/

/-- Whether the window of a lock register answers: its block does, and GCT_PART_LOCK also in RET and OFF (R485, R493). -/
def State.lockAnswers (s : State) : Lock → Bool
  | .gct => s.blkOpen .gct 0
  | .tim => s.blkOpen .tim 0
  | .hif => s.blkOpen .hif 0
  | .err => s.blkOpen .err 0
  | .och => s.blkOpen .och 0
  | .sep => s.blkOpen .sep 0
  | .krm => s.blkOpen .krm 0
  | .umb => s.blkOpen .umb 0
  | .part p => s.partCtl p.val
  | .lnk | .mem => !s.hif.d3hot && !s.mgmt.recovery && decide (2 ≤ s.stage)

/-- A write of a lock register: 0x4C59_0001 unlocks, 1 locks, another value sets LOCK_KEY (R486). -/
def State.wrLock (s : State) (l : Lock) (v : W32) : State :=
  if !s.lockAnswers l then s
  else if v = 0x4C590001#32 then { s with unlocked := AMap.put false l.key true s.unlocked }
  else if v = 1#32 then { s with unlocked := AMap.put false l.key false s.unlocked }
  else s.orReg .gctErr 0 0 2

/-- LOCK_WRITE (R486). -/
def execLockWrite (off : Nat) (v : W32) (s : State) : Host.Outcome State Fault Refusal :=
  match Lock.ofOffset off with
  | some l => .next (s.wrLock l v)
  | none => .next s

/-- A write of GCT_EVT_MASK: a bit cleared while its PEND bit is 1 sends the message once (R489). -/
def State.wrEvtMask (s : State) (v : W32) : State :=
  if !s.blkOpen .gct 0 then s
  else
    let s1 := s.setReg .gctEvtMask 0 0 (v &&& 0x3FF#32)
    let opened := (List.range 10).filter (fun i =>
      natBit (s.reg .gctEvtMask 0 0).toNat i && !natBit v.toNat i && natBit (s.reg .gctEvtPend 0 0).toNat i && natBit (s.reg .gctCtrl 0 0).toNat 0)
    opened.foldl (fun s i => s.msix (16 + i)) s1

/-- EVT_MASK_WRITE (R489). -/
def execEvtMaskWrite (v : W32) (s : State) : Host.Outcome State Fault Refusal := .next (s.wrEvtMask v)

/-- A write of word `j` of entry `i` of the MSI-X table; an entry unmasked while its message is pending, or while the PEND bit of its event is 1,
sends it once (R427, R489). -/
def State.wrMsix (s : State) (i j : Nat) (v : W32) : State :=
  if !s.blkOpen .hif 0 then s
  else
    let e := AMap.get (0, 0, true) i s.hif.msix
    let f : Nat × W32 × Bool := match j with
      | 0 => (e.1 / 2 ^ 32 * 2 ^ 32 + v.toNat / 4 * 4, e.2)
      | 1 => (e.1 % 2 ^ 32 + v.toNat * 2 ^ 32, e.2)
      | 2 => (e.1, v, e.2.2)
      | _ => (e.1, e.2.1, v.getLsbD 0)
    let opened := e.2.2 && !f.2.2
    let agg := decide (16 ≤ i ∧ i ≤ 25) && natBit (s.reg .gctEvtPend 0 0).toNat (i - 16) && !natBit (s.reg .gctEvtMask 0 0).toNat (i - 16) &&
      natBit (s.reg .gctCtrl 0 0).toNat 0
    let s1 := s.setHif { s.hif with msix := AMap.put (0, 0, true) i f s.hif.msix
                                    pend := if opened then s.hif.pend.filter (fun k => k != i) else s.hif.pend }
    if opened && (s.hif.pend.contains i || agg) then s1.msix i else s1

/-! ## Seeds -/

/-- A write of a slot's context or check seed: ignored with SEED_IGNORED while a context is bound to the slot (R161). -/
def State.wrCtxSeed (s : State) (r : Reg) (x : Nat) (v : W32) : State :=
  if !s.blkOpen .krm 0 then s
  else if (s.ctx x).st = .free then s.setReg r 0 x v else s.orReg .krmErr 0 0 1

/-- KRM_CTX_SEED_WRITE (R161). -/
def execKrmCtxSeedWrite (slot : Fin 4) (check hi : Bool) (v : W32) (s : State) : Host.Outcome State Fault Refusal :=
  let r : Reg := if check then (if hi then .krmCtxChkHi else .krmCtxChkLo) else (if hi then .krmCtxSeedHi else .krmCtxSeedLo)
  .next (s.wrCtxSeed r slot.val v)

/-- A write of the Vat-write seed: ignored with VW_SEED_IGNORED while a region is armed; the write of the HI half starts the copy to the base dies
and clears VW_SYNC (R161). -/
def State.wrVwSeed (s : State) (hi : Bool) (v : W32) : State :=
  if !s.blkOpen .krm 0 then s
  else if s.anyArmed then s.orReg .krmErr 0 0 2
  else if !s.lockOpen .krm 0 then s
  else if hi then (s.setReg .krmVwSeedHi 0 0 v).setFld .krmStatus 0 0 3 3 0
  else s.setReg .krmVwSeedLo 0 0 v

/-- VW_SEED_WRITE: of KRM_VW_SEED_HI (R161). -/
def execVwSeedWrite (v : W32) (s : State) : Host.Outcome State Fault Refusal := .next (s.wrVwSeed true v)

/-- VW_SEED_COPY_DONE: every base die holds the seed of the registers (R161). A copy runs from the write of KRM_VW_SEED_HI until VW_SYNC. -/
def execVwSeedCopyDone (s : State) : Host.Outcome State Fault Refusal :=
  if natBit (s.reg .krmStatus 0 0).toNat 3 then .next s
  else
    let v : W64 := BitVec.ofNat 64 (s.reg64 .krmVwSeedLo .krmVwSeedHi 0 0)
    let s1 := (List.range 20).foldl (fun s i => s.setStack i { s.stack i with vwSeed := v }) s
    .next (s1.setFld .krmStatus 0 0 3 3 1)

/-! ## Register writes -/

/-- A field of a write left as it stands where the value is not one that its register table allows. -/
def keepField (old v : W32) (hi lo : Nat) (ok : Nat → Bool) : W32 := if ok (bitsOf v hi lo) then v else putBits v hi lo (bitsOf old hi lo)

/-- A write with the fields that carry a value outside their range, or a reserved encoding, left unchanged (R6 and the register tables). -/
def legalWrite (r : Reg) (old v : W32) : W32 :=
  match r with
  | .sepCtrl => keepField old v 12 8 (fun x => decide (1 ≤ x ∧ x ≤ 30))
  | .sepCkGroup => keepField old v 4 0 (fun x => decide (x ≤ 16))
  | .umbPwrLimit =>
    keepField old (keepField old v 15 0 (fun x => decide (1500 ≤ x ∧ x ≤ 3000))) 23 16 (fun x => decide (20 ≤ x ∧ x ≤ 200))
  | .umbTherm => keepField old v 7 0 (fun x => decide (70 ≤ x ∧ x ≤ 100))
  | .errLogBaseHi | .timEvqBaseHi => keepField old v 19 16 (fun x => decide (x ≤ 8))
  | .timPpsOfs => keepField old v 29 0 (fun x => decide (x < 1000000000))
  | .timWakeLead => keepField old v 15 0 (fun x => decide (1500 ≤ x))
  | .timCtrl => keepField old v 1 0 (fun x => decide (x ≤ 2))
  | .timSyncCfg => keepField old v 5 0 (fun x => decide (x < 48 ∨ x = 63))
  | .memCtrl => keepField old (keepField old v 15 8 (fun x => decide (1 ≤ x))) 23 16 (fun x => decide (1 ≤ x))
  | .lnkCfg => keepField old (keepField old v 7 0 (fun x => decide (1 ≤ x))) 15 8 (fun x => decide (1 ≤ x))
  | .hifCtrl => keepField old v 7 0 (fun x => decide (1 ≤ x))
  | .indPoolCfg => keepField old v 9 0 (fun x => decide (1 ≤ x ∧ x ≤ 576))
  | .errCoreIdx => keepField old v 6 0 (fun x => decide (x < 100))
  | .ochSensorIdx => keepField old v 2 0 (fun x => decide (x ≤ 6))
  | .errLastReset => keepField old v 7 0 (fun x => decide (x ≤ 0x12))
  | .umbRstCause => keepField old v 2 0 (fun x => decide (1 ≤ x ∧ x ≤ 5))
  | _ => v

/-- Whether the device ignores a write of a register as it stands (R161, R341, R431, R482, R495, MEM_PART_CFG, GCT_DEV_ID, R272). -/
def State.writeIgnored (s : State) (r : Reg) (u n : Nat) (v : W32) : Bool :=
  match r with
  | .memPartCfg => (s.partSlot u).isSome || (List.range 16).any (fun i => (s.region u i).armed)
  | .memVwrBaseLo | .memVwrBaseHi | .memVwrOwner => (s.region u n).armed || (s.region u n).draining
  | .gctDevId => (List.range 48).any (fun i => s.linkState i != 0)
  | .hifSqBaseLo | .hifSqBaseHi | .hifCqBaseLo | .hifCqBaseHi => natBit (s.reg .hifQCfg 0 n).toNat 9
  | .hifHdm =>
    let bound := fun (b : Nat) => match locOf (b * 2 ^ 28) with
      | .mem p _ => (s.partSlot p).isSome
      | _ => false
    (natBit (s.reg .hifHdm 0 0).toNat 31 && bound (s.fld .hifHdm 0 0 19 0)) || bound (bitsOf v 19 0)
  | .wldCtrl | .wldStatus | .wldLoadLo | .wldLoadHi | .wldProgIdx | .wldProgData => natBit (s.reg .wldStatus u 0).toNat 2
  | _ => false

/-- The bits of a register that a write sets: RW and RWS fields, and RWL fields while the block is unlocked (R7). -/
def State.writeMask (s : State) (r : Reg) (u : Nat) : W32 :=
  r.info.rw ||| r.info.rws ||| (if s.lockOpen r.info.blk u then r.info.rwl else 0)

/-- A write applied by the access code of each bit (R7): a 1 clears a W1C bit. -/
def State.plainWrite (s : State) (r : Reg) (u n : Nat) (v : W32) : State :=
  if !s.blkOpen r.info.blk u ∨ s.writeIgnored r u n v then s
  else
    let old := s.reg r u n
    let m := s.writeMask r u
    s.setReg r u n ((old &&& ~~~m &&& ~~~(v &&& r.info.w1c)) ||| (legalWrite r old v &&& m))

/-- A write of UMB_CTRL: the widest reset that it asks for is performed (R448, R451, R460). -/
def State.wrUmbCtrl (s : State) (v : W32) : State :=
  if natBit v.toNat 0 then s.wrWarm
  else
    let s1 := if natBit v.toNat 1 then s.wrPrepareOff else s
    s1.wrPartRst ((List.range 4).filter (fun p => natBit v.toNat (4 + p)))

/-- A write of LNK_CTRL: ENABLE set starts training and ENABLE clear disables the link, RETRAIN retrains it (R365, R366). -/
def State.wrLnkCtrl (s : State) (n : Nat) (v : W32) : State :=
  let was := natBit (s.reg .lnkCtrl n 0).toNat 0
  let s1 := s.plainWrite .lnkCtrl n 0 (putBits v 0 0 (bit (was && natBit v.toNat 0)))
  let s2 := if was && !natBit (s1.reg .lnkCtrl n 0).toNat 0 then (s1.linkOff n).recheck
    else if !was && natBit v.toNat 0 then s1.linkEnable n else s1
  if natBit v.toNat 2 then s2.softRetrain n else s2

/-- A write of WLD_CTRL: RUN and BCAST, then LOAD and CLR_DATA (R272). -/
def State.wrWldCtrl (s : State) (k : Nat) (v : W32) : State :=
  let s1 := s.plainWrite .wldCtrl k 0 v
  let s2 := if natBit v.toNat 1 then s1.startLoad k else s1
  if natBit v.toNat 3 then s2.clearData k else s2

/-- A write of TIM_CTRL: a new ROLE enters its state (R305, R308). -/
def State.wrTimCtrl (s : State) (v : W32) : State :=
  let s1 := s.plainWrite .timCtrl 0 0 v
  if s1.role = s.role then s1 else s1.timState (roleState s1.role)

/-- A write of TIM_EVQ_PTR: the head moves, and records that waited for room are written (R327, R494). -/
def State.wrEvqPtr (s : State) (v : W32) : State :=
  let s1 := s.plainWrite .timEvqPtr 0 0 v
  State.evqPut (s1.tim.held.length + 1) s1 s1.tim.held

/-- A write of SEP_CMD by its OP (R413, R418, R420). -/
def State.wrSepCmd (s : State) (v : W32) : State :=
  match bitsOf v 3 2 with
  | 1 => s.cmdSave v
  | 2 => s.cmdPeerSave v
  | 3 => s.cmdAbandon v
  | _ => s

/-- A write of HIF_DBG_CTRL (R447). -/
def State.wrDbgCtrl (s : State) (v : W32) : State :=
  let s1 := if natBit v.toNat 0 then s.dbgNew else s
  if natBit v.toNat 1 then s1.dbgSubmit else s1

/-- A write of a word of HIF_DBG_TOKEN (R447). -/
def State.wrToken (s : State) (n : Nat) (v : W32) : State :=
  if !s.blkOpen .hif 0 then s
  else s.setHif { s.hif with token := ((leBytes 4 v.toNat).zipIdx).foldl (fun m e => AMap.put 0 (4 * n + e.2) e.1 m) s.hif.token }

/-- A write of element `n` of a register of unit `u`: one that starts an operation does what its rule says, another is applied by its access codes
(R7). -/
def State.wrReg (s : State) (r : Reg) (u n : Nat) (v : W32) : State :=
  match r with
  | .timSetHi => s.setTime v
  | .timCtrl => s.wrTimCtrl v
  | .memPartCfg => (s.plainWrite .memPartCfg u n v).reIlv s
  | .timEvqPtr => s.wrEvqPtr v
  | .memVwrCtrl => s.wrVwrCtrl u n v
  | .hifT3Lo => s.wrT3 false n v
  | .hifT3Hi => s.wrT3 true n v
  | .hifQCfg => s.wrQCfg n v
  | .hifSqDb => s.wrSqDb n v
  | .hifCqDb => s.wrCqDb n v
  | .hifDbgCtrl => s.wrDbgCtrl v
  | .hifDbgToken => s.wrToken n v
  | .indCtrl => s.wrIndCtrl u v
  | .indEditHi => s.wrIndEdit u v
  | .sepCmd => s.wrSepCmd v
  | .umbCtrl => s.wrUmbCtrl v
  | .umbPartPwr => s.wrPartPwr v
  | .lnkCtrl => s.wrLnkCtrl u v
  | .lnkCrdAlloc => s.wrCrdAlloc u v
  | .wldCtrl => s.wrWldCtrl u v
  | .wldProgData => s.wrProgData u v
  | .gctEvtMask => s.wrEvtMask v
  | .krmCtxSeedLo | .krmCtxSeedHi | .krmCtxChkLo | .krmCtxChkHi => s.wrCtxSeed r n v
  | .krmVwSeedLo => s.wrVwSeed false v
  | .krmVwSeedHi => s.wrVwSeed true v
  | _ => s.plainWrite r u n v

/-- A write of the 4 bytes at an offset of BAR0; at a reserved offset, ignored (R7, R484). -/
def State.writeWord (s : State) (off : Nat) (v : W32) : State :=
  match Lock.ofOffset off with
  | some l => s.wrLock l v
  | none =>
    if 0x21000 ≤ off ∧ off < 0x21400 then s.wrMsix ((off - 0x21000) / 16) (off % 16 / 4) v
    else match Reg.ofOffset off with
      | some (r, u, n) => s.wrReg r u n v
      | none => s

/-- REGISTER_WRITE: a write to an offset of BAR0. One of 8 bytes writes the register at the offset, then the one 4 bytes above it; another size or a
misaligned offset is dropped with BAD_ACCESS (R7, R484). -/
def execRegisterWrite (off : Nat) (d : RegData) (s : State) : Host.Outcome State Fault Refusal :=
  let lo : W32 := d.v.extractLsb' 0 32
  .next (if d.size = 4 ∧ off % 4 = 0 then s.writeWord off lo
    else if d.size = 8 ∧ off % 8 = 0 then (s.writeWord off lo).writeWord (off + 4) (d.v.extractLsb' 32 32)
    else s.orReg .gctErr 0 0 1)

end Sys2Proof.Machine
end

