-- ==== Sys2Proof/Machine/LinkSlot.lean ====
section
/-! DEFINITION. The L slot: launch times, waits, peer copies and collectives (R297, R298, R312, R313, R369 to R372, R379). -/

namespace Sys2Proof.Machine

/-- The fields of an L-slot opcode: those that it does not use are zero (R275, R297). -/
def lOk (l : LSlot) (sa sb ch ev ts imm : Bool) : Bool :=
  hdrOk l.i false false false false false && (sa || l.sa == 0) && (sb || l.sb == 0) && (ch || l.ch == 0) && (ev || l.ev == 0) &&
    (ts || l.ts == 0) && (imm || l.imm16 == 0)

/-- An L-slot command. -/
def lCmd (l : LSlot) (op : Nat) (k : Cls) (legal : Bool) (body : State → Nat → Nat → SlotRes) : Slot := slotCmd l.i 7 op k false legal body

/-- LAT: the next wide instruction issues when device time reaches SA; at once, with the report of R313, when it is past (R298, R312). -/
def slotLat (l : LSlot) : Slot :=
  lCmd l 0x01 .a (lOk l true false false false false false) (fun s n x =>
    let c := s.core n
    let sa := c.sreg l.sa.val
    let now := s.tim.now.toNat
    if sa.2 then .status stPoison false
    else if now < sa.1.toNat then .done (s.setCore n { c with wait := if c.wait = .step then .stepLat sa.1 else .lat sa.1 }) [] none
    else if now = sa.1.toNat then .done s [] none
    else .done (s.late x (now - sa.1.toNat)) [] none)

/-- LAT_TIME_REACHED: device time has reached the SA of a LAT, and the core issues again (R312). -/
def execLatTimeReached (k : CoreId) (s : State) : Host.Outcome State Fault Refusal :=
  let c := s.core k.key
  match c.wait with
  | .lat t => .next (if t ≤ s.tim.now then s.setCore k.key { c with wait := .none } else s)
  | .stepLat t => .next (if t ≤ s.tim.now then s.setCore k.key { c with wait := .step } else s)
  | _ => .next s

/-- When a timeout of `sb` nanoseconds from now expires, 0 for none. -/
def State.expiry (s : State) (sb : W64) : W64 := if sb = 0 then 0 else s.tim.now + sb

/-- Whether event EV of a channel or handle has come (R298, R369, R371). -/
def State.eventDone (s : State) (x ch ev : Nat) : Bool := if ev = 0 then (s.chan x ch).posted && (s.chan x ch).full else (s.coll x ch).done

/-- LWAIT: waits for event EV of channel or handle CH, with timeout SB (R298). -/
def slotLwait (l : LSlot) : Slot :=
  lCmd l 0x02 .n (lOk l false true true true false false && decide (l.ev.val < 2)) (fun s1 n x =>
    let c := s1.core n
    let sb := c.sreg l.sb.val
    if sb.2 then .status stPoison false
    else if s1.eventDone x l.ch.val l.ev.val then .done s1 [] none
    else .wait (.lwait (s1.expiry sb.1) l.ch.val l.ev.val))

/-- LWAIT_TIMEOUT: the timeout of an LWAIT expires with its event not come: the context ends with LINK_TIMEOUT (R298, R300). -/
def execLwaitTimeout (k : CoreId) (s : State) : Host.Outcome State Fault Refusal :=
  let n := k.key
  match (s.core n).wait, s.coreSlot n with
  | .lwait t ch ev, some x => .next (if t ≠ 0 ∧ t ≤ s.tim.now ∧ !s.eventDone x ch ev then s.raise n x stLink 7 0x02 false else s)
  | _, _ => .next s

/-- The bytes of a tile in the order of its runs. -/
def State.tileBytes (s : State) (n : Nat) (t : TD) : List Byte := t.runs.flatMap (fun r => s.spaceRead n t.space r.1 r.2)

/-- The poison of each 64 bytes of those bytes: that of the units they come from. -/
def State.tilePo (s : State) (n : Nat) (t : TD) : List Bool :=
  let per := t.runs.flatMap (fun r => (List.range r.2).map (fun i => s.spacePo n t.space (r.1 + i) 1))
  (chunks 64 per.length per).map (fun c => c.any id)

/-- The runs of a tile are reachable (R300). -/
def State.tileReach (s : State) (x : Nat) (t : TD) : Bool := if t.space then s.devRuns x t.runs else localRuns t.runs

/-- LSEND: the tile TS goes to device SA[11:0] on channel CH; SB has no effect in the protocol of R369 (R298, log entry 61: DEDUCED). -/
def slotLsend (l : LSlot) : Slot :=
  lCmd l 0x03 .h (lOk l true true true false true false) (fun s n x =>
    let c := s.core n
    let p := c.treg l.ts.val
    let sa := c.sreg l.sa.val
    let sb := c.sreg l.sb.val
    let t := tdOf p.1
    if p.2 || sa.2 || sb.2 then .status stPoison false
    else match t.tileOk with
      | some e => .status e true
      | none =>
        if !s.tileReach x t then .status stPage false
        else if t.space && c.owes t.runs then .wait .stall
        else
          let data := s.tileBytes n t
          let po := s.tilePo n t
          let dst := sa.1.toNat % 4096
          if c.cur.isSome then .done (s.setCore n (c.holdIn { h := .lsend l.ch.val dst data po, word := c.pc, slot := 7, op := 0x03 })) [] none
          else .done (s.lsend n x l.ch.val dst data po) [] none)

/-- LRECV: the tile TS is posted as the receive buffer of channel CH, from device SA[11:0] (R298, R370). -/
def slotLrecv (l : LSlot) : Slot :=
  lCmd l 0x04 .h (lOk l true false true false true false) (fun s n x =>
    let c := s.core n
    let p := c.treg l.ts.val
    let sa := c.sreg l.sa.val
    let t := tdOf p.1
    if p.2 || sa.2 then .status stPoison false
    else match firstChk [t.tileOk, need (!intoVat t)] with
      | some e => .status e true
      | none =>
        let src := sa.1.toNat % 4096
        if !s.tileReach x t then .status stPage false
        else if c.cur.isSome then
          .done (s.setCore n (c.holdIn { h := .lrecv l.ch.val src t.space t.runs, word := c.pc, slot := 7, op := 0x04 })) [] none
        else match s.lrecv n x l.ch.val src t.space t.runs with
          | some s1 => .done s1 [] none
          | none => .wait .stall)

/-- LCOLL: the link engines' collective program starts at entry point EV on the BF16 buffer TS, with tag IMM16 and handle CH (R298,
R371, R372). -/
def slotLcoll (l : LSlot) : Slot :=
  lCmd l 0x05 .h (lOk l false false true true true true) (fun s n x =>
    let c := s.core n
    let p := c.treg l.ts.val
    let t := tdOf p.1
    let elems := t.rows * t.cols
    if p.2 then .status stPoison false
    else match firstChk [t.plainOk, need (t.space && t.fmt == 2)] with
      | some e => .status e true
      | none =>
        if !s.ctxMem x t.addr (2 * elems) then .status stPage false
        else if c.cur.isSome then
          .done (s.setCore n (c.holdIn { h := .lcoll l.ch.val l.ev.val l.imm16.toNat t.addr elems, word := c.pc, slot := 7, op := 0x05 })) [] none
        else match s.lcoll n x l.ch.val l.ev.val l.imm16.toNat t.addr elems with
          | some s1 => .done s1 [] none
          | none => .status stIllegal false)

/-- Every earlier Vat-write, DST to memory, DCP and LSEND of a core is acknowledged (R298). -/
def Core.fenced (c : Core) : Bool :=
  c.vwq.isEmpty && c.vwAck == 0 && c.xfers.all (fun t => t.kind != 2 && t.kind != 3) && c.lsendOut == 0

/-- LFENCE: waits for those acknowledgements, with timeout SB (R298). -/
def slotLfence (l : LSlot) : Slot :=
  lCmd l 0x06 .n (lOk l false true false false false false) (fun s1 n _ =>
    let c := s1.core n
    let sb := c.sreg l.sb.val
    if sb.2 then .status stPoison false
    else if c.fenced then .done s1 [] none
    else .wait (.lfence (s1.expiry sb.1)))

/-- LFENCE_TIMEOUT: the timeout of an LFENCE expires: the context ends with LINK_TIMEOUT (R298, R300). -/
def execLfenceTimeout (k : CoreId) (s : State) : Host.Outcome State Fault Refusal :=
  let n := k.key
  match (s.core n).wait, s.coreSlot n with
  | .lfence t, some x => .next (if t ≠ 0 ∧ t ≤ s.tim.now ∧ !(s.core n).fenced then s.raise n x stLink 7 0x06 false else s)
  | _, _ => .next s

end Sys2Proof.Machine
end

