-- ==== Sys2Proof/Machine/Vector.lean ====
section
/-! DEFINITION. The vector engine: the V0 slot's arithmetic pipe and the V1 slot's function pipe (R172 to R184, R282 to R287),
Kermes draws (R160, R167) and the statistics store (R233, R234). -/

namespace Sys2Proof.Machine

/-- The fields that a V-slot opcode uses. -/
structure VUse where
  vd : Bool := false
  va : Bool := false
  vb : Bool := false
  vc : Bool := false
  sa : Bool := false
  sb : Bool := false
  pd : Bool := false
  fmt : Bool := false
  fn : Bool := false
  mode : Bool := false
  lane : Bool := false
  imm : Bool := false
  immb : Bool := false
  sc : Bool := false
  sd : Bool := false
  d2 : Bool := false
  rnd : Bool := false
  sat : Bool := false
  fz : Bool := false
  cr : Bool := false

/-- The fields that an opcode does not use are zero, FL is as R286 asks, and the rounding field is no reserved one (R275). -/
def vOk (v : VSlot) (u : VUse) (fl : Bool) : Bool :=
  hdrOk v.i u.rnd u.sat u.fz u.cr fl && decide (v.i.rnd.val ≤ 4) &&
    (u.vd || v.vd == 0) && (u.va || v.va == 0) && (u.vb || v.vb == 0) && (u.vc || v.vc == 0) && (u.sa || v.sa == 0) &&
    (u.sb || v.sb == 0) && (u.pd || v.pd == 0) && (u.fmt || v.fmt == 0) && (u.fn || v.fn == 0) && (u.mode || v.mode == 0) &&
    (u.lane || v.lane == 0) && (u.imm || v.imm16 == 0) && (u.immb || v.imm16b == 0) && (u.sc || v.sc == 0) &&
    (u.sd || v.sd == 0) && (u.d2 || !v.d2)

/-- A V0-slot command. -/
def v0Cmd (v : VSlot) (op : Nat) (k : Cls) (legal : Bool) (body : State → Nat → Nat → SlotRes) : Slot := slotCmd v.i 1 op k true legal (fun s n x => body (s.demand n 0) n x)

/-- A V1-slot command. -/
def v1Cmd (v : VSlot) (op : Nat) (legal : Bool) (body : State → Nat → Nat → SlotRes) : Slot := slotCmd v.i 2 op .a true legal (fun s n x => body (s.demand n 0) n x)

/-- The lanes of VD after `f` in every active lane; inactive lanes keep their value (R276). -/
def vMap (c : Core) (v : VSlot) (vd : Nat) (f : Nat → Lane) : List Lane :=
  (List.range 64).map (fun l => if c.active v.i l then f l else c.lane vd l)

/-- A lane-by-lane operation on VA and VB. -/
def vBin (v : VSlot) (op : Nat) (legal : Bool) (f : W32 → W32 → W32) : Slot :=
  v0Cmd v op .a legal (fun s n _ =>
    let c := s.core n
    .done s [.v v.vd.val (vMap c v v.vd.val (fun l =>
      let a := c.lane v.va.val l
      let b := c.lane v.vb.val l
      (f a.1 b.1, a.2 || b.2)))] none)

/-- The fields of a floating-point V0 operation; SR is refused (R173). -/
def vFloatOk (v : VSlot) (vc : Bool) : Bool :=
  vOk v { vd := true, va := true, vb := true, vc := vc, rnd := true, fz := true } false && v.i.rnd != 4

/-- The rounding of a slot. -/
def Issue.mode (i : Issue) : Rnd := Rnd.ofCodeD i.rnd.val

/-- The number of active lanes. -/
def Core.activeCount (c : Core) (i : Issue) : Nat := ((List.range 64).filter (fun l => c.active i l)).length

/-- VADD. -/
def slotVadd (v : VSlot) : Slot :=
  vBin v 0x01 (vFloatOk v false) (fun a b => f32r (Issue.mode v.i) v.i.fz (FV.add (f32v a) (f32v b)))
/-- VSUB. -/
def slotVsub (v : VSlot) : Slot :=
  vBin v 0x02 (vFloatOk v false) (fun a b => f32r (Issue.mode v.i) v.i.fz (FV.add (f32v a) (FV.neg (f32v b))))
/-- VMUL. -/
def slotVmul (v : VSlot) : Slot :=
  vBin v 0x03 (vFloatOk v false) (fun a b => f32r (Issue.mode v.i) v.i.fz (FV.mul (f32v a) (f32v b)))

/-- VFMA: VA × VB + VC with one rounding. -/
def slotVfma (v : VSlot) : Slot :=
  v0Cmd v 0x04 .a (vFloatOk v true) (fun s n _ =>
    let c := s.core n
    .done s [.v v.vd.val (vMap c v v.vd.val (fun l =>
      let a := c.lane v.va.val l
      let b := c.lane v.vb.val l
      let d := c.lane v.vc.val l
      (f32r (Issue.mode v.i) v.i.fz (FV.add (FV.mul (f32v a.1) (f32v b.1)) (f32v d.1)), a.2 || b.2 || d.2)))] none)

/-- The fields of a V0 operation on VD, VA and VB that does not round. -/
def vPlainOk (v : VSlot) (sat : Bool) : Bool := vOk v { vd := true, va := true, vb := true, sat := sat } false

/-- The fields of VMAX and VMIN, which do not round but have FZ (R173). -/
def vOrderOk (v : VSlot) : Bool := vOk v { vd := true, va := true, vb := true, fz := true } false

/-- A subnormal result flushed where FZ is set (R28, R173). -/
def vFlush (v : VSlot) (w : W32) : W32 := if v.i.fz then BitVec.ofNat 32 (fp32.flush w.toNat) else w

/-- VMAX, in the order of R174. -/
def slotVmax (v : VSlot) : Slot := vBin v 0x05 (vOrderOk v) (fun a b => vFlush v (max32 a b))
/-- VMIN, in the order of R174. -/
def slotVmin (v : VSlot) : Slot := vBin v 0x06 (vOrderOk v) (fun a b => vFlush v (min32 a b))

/-- A lane-by-lane comparison into the active bits of PD; a poisoned operand of an active lane poisons the predicate, and the
inactive bits keep theirs (R276, R382). -/
def vCompare (v : VSlot) (op : Nat) (f : Nat → W32 → W32 → Bool) : Slot :=
  v0Cmd v op .a (vOk v { va := true, vb := true, pd := true, fn := true } false && decide (v.fn.toNat ≤ 4)) (fun s n _ =>
    let c := s.core n
    let old := c.preg v.pd.val
    let bad := (List.range 64).any (fun l => c.active v.i l && ((c.lane v.va.val l).2 || (c.lane v.vb.val l).2))
    let all := (List.range 64).all (fun l => c.active v.i l)
    .done s [.p v.pd.val (predOf (fun l => if c.active v.i l then f v.fn.toNat (c.lane v.va.val l).1 (c.lane v.vb.val l).1
      else old.1.getLsbD l)) (bad || (old.2 && !all))] none)

/-- VCMP. -/
def slotVcmp (v : VSlot) : Slot := vCompare v 0x08 vcmp

/-- VSEL: VA where the bit of PD is 1, else VB; a poisoned PD poisons the lanes (R382, log entry 42: DEDUCED). -/
def slotVsel (v : VSlot) : Slot :=
  v0Cmd v 0x09 .a (vOk v { vd := true, va := true, vb := true, pd := true } false) (fun s n _ =>
    let c := s.core n
    let p := c.preg v.pd.val
    .done s [.v v.vd.val (vMap c v v.vd.val (fun l =>
      let a := c.lane (if p.1.getLsbD l then v.va.val else v.vb.val) l
      (a.1, a.2 || p.2)))] none)

/-- VIADD. -/
def slotViadd (v : VSlot) : Slot :=
  vBin v 0x10 (vPlainOk v true) (fun a b => satW32 v.i.sat (a.toInt + b.toInt))
/-- VISUB. -/
def slotVisub (v : VSlot) : Slot :=
  vBin v 0x11 (vPlainOk v true) (fun a b => satW32 v.i.sat (a.toInt - b.toInt))
/-- VIMUL. -/
def slotVimul (v : VSlot) : Slot :=
  vBin v 0x12 (vPlainOk v true) (fun a b => satW32 v.i.sat (a.toInt * b.toInt))
/-- VAND. -/
def slotVand (v : VSlot) : Slot := vBin v 0x13 (vPlainOk v false) (· &&& ·)
/-- VOR. -/
def slotVor (v : VSlot) : Slot := vBin v 0x14 (vPlainOk v false) (· ||| ·)
/-- VXOR. -/
def slotVxor (v : VSlot) : Slot := vBin v 0x15 (vPlainOk v false) (· ^^^ ·)
/-- VSHL, by VB[4:0]. -/
def slotVshl (v : VSlot) : Slot :=
  vBin v 0x16 (vPlainOk v false) (fun a b => a <<< (b.toNat % 32))
/-- VSHR, by VB[4:0]. -/
def slotVshr (v : VSlot) : Slot :=
  vBin v 0x17 (vPlainOk v false) (fun a b => a >>> (b.toNat % 32))
/-- VSAR, by VB[4:0]. -/
def slotVsar (v : VSlot) : Slot :=
  vBin v 0x18 (vPlainOk v false) (fun a b => a.sshiftRight (b.toNat % 32))

/-- VICMP. -/
def slotVicmp (v : VSlot) : Slot := vCompare v 0x19 vicmp

/-- VIOTA: lane l ← l. -/
def slotViota (v : VSlot) : Slot :=
  v0Cmd v 0x1A .a (vOk v { vd := true } false) (fun s n _ =>
    .done s [.v v.vd.val (vMap (s.core n) v v.vd.val (fun l => (BitVec.ofNat 32 l, false)))] none)

/-- VBCAST: SA[31:0] in every active lane. -/
def slotVbcast (v : VSlot) : Slot :=
  v0Cmd v 0x1B .a (vOk v { vd := true, sa := true } false) (fun s n _ =>
    let a := (s.core n).sreg v.sa.val
    .done s [.v v.vd.val (vMap (s.core n) v v.vd.val (fun _ => (a.1.setWidth 32, a.2)))] none)

/-- The Kermes bits of lane `l` of a VST or VCVT: TENSOR = IMM16, COORD = SB + l (R162, R287). -/
def State.laneBits (s : State) (x : Nat) (v : VSlot) (sb : W64) (l : Nat) : Nat :=
  (kermesAt (s.ctxSeed x) streamConvert (s.ctx x).stepno.toNat v.imm16.toNat 0 (sb.toNat + l)).1.toNat % 65536

/-- A lane rounded to a format (R173): the code as the target's bits, and whether it saturated and drew. A NaN gives the canonical NaN, in
FP32 too (R29, log entry 43: DEDUCED); FZ flushes a subnormal result (R28). -/
def laneConv (fmt : Nat) (i : Issue) (r : Nat) (x : W32) : ConvR :=
  if fmt = 0 then { code := (f32r .rne i.fz (f32v x)).toNat }
  else
    let o := convert fmt (Issue.mode i) r false i.sat (f32v x)
    let c := if fmt = 1 then xf19OfContainer o.code else o.code
    let c := match FFmt.ofCode fmt with
      | some f => if i.fz then f.flush c else c
      | none => c
    { o with code := c }

/-- SR only narrows, RO only reaches FP32, XF19, BF16 and FP16, and SR's fields are used only under SR (R49, R173, R287). -/
def convOk (v : VSlot) : Bool :=
  let f := v.fmt.val
  (v.i.rnd != 4 || f != 0) && roOk v.i.rnd.val f

/-- VCVT (R283, R287). Saturations into FP8-E4M3 are counted by the Mordant unit (R47). -/
def slotVcvt (v : VSlot) : Slot :=
  let sr := v.i.rnd == 4
  v0Cmd v 0x20 .a (vOk v { vd := true, va := true, fmt := true, rnd := true, fz := true, sat := true, sb := sr, imm := sr } false &&
      decide (v.fmt.val ≤ 6) && convOk v) (fun s n x =>
    let c := s.core n
    let sb := c.sreg v.sb.val
    let f := v.fmt.val
    let res := fun l => laneConv f v.i (if sr then s.laneBits x v sb.1 l else 0) (c.lane v.va.val l).1
    let act := (List.range 64).filter (fun l => c.active v.i l)
    let k := (act.filter (fun l => f == 4 && (res l).sat && !(c.lane v.va.val l).2)).length
    let d := (act.filter (fun l => (res l).drew)).length
    .done ((s.bump .morCnt n 0 k).evalsUp 0 d) [.v v.vd.val (vMap c v v.vd.val (fun l =>
      (BitVec.ofNat 32 (res l).code, (c.lane v.va.val l).2 || (sr && sb.2))))] none)

/-- The address of lane `l` of a VLD or VST, and the alignment of its base (R287). -/
def vAddr (v : VSlot) (base : W64) (l : Nat) : Nat :=
  let w := if v.fmt.val < 2 then 4 else 2
  let m := v.imm16.toNat % 16
  if v.mode.val = 0 then (base + v.imm16.signExtend 64).toNat + w * l
  else if v.mode.val = 1 then base.toNat + w * (32 * (2 * m + l / 32) + l % 32)
  else base.toNat + w * (32 * (l % 32) + (2 * m + l / 32))

/-- The alignment of R287. -/
def vAligned (v : VSlot) (base : W64) : Bool :=
  if v.mode.val = 0 then (base + v.imm16.signExtend 64).toNat % 128 == 0
  else if v.fmt.val < 2 then base.toNat % 4096 == 0 else base.toNat % 2048 == 0

/-- The form of a VLD or VST: MODE 3 and FMT above 3 are refused (R283, R287); MODE 1 and 2 use IMM16[3:0] only (log entry 44: DEDUCED). -/
def vMemOk (v : VSlot) : Bool := v.mode != 3 && decide (v.fmt.val ≤ 3)

/-- A VLD or VST reaches the operand store (R300). -/
def vReach (v : VSlot) (base : W64) : Bool :=
  (List.range 64).all (fun l => decide (vAddr v base l + 4 ≤ 0x400000 + (if v.fmt.val < 2 then 0 else 2)))

/-- VLD: the operand store, widened exactly, a NaN to the canonical one (R29, R173, R287, log entry 43: DEDUCED). Bits 12:0 of an XF19
container are ignored (log entry 123: DESIGN CHOICE). -/
def slotVld (v : VSlot) : Slot :=
  v0Cmd v 0x21 .a (vOk v { vd := true, sa := true, imm := true, mode := true, fmt := true } (v.mode == 1 || v.mode == 2) && vMemOk v)
    (fun s n _ =>
      let c := s.core n
      let a := c.sreg v.sa.val
      if a.2 then .status stPoison false
      else if !vAligned v a.1 then .status stAlign true
      else if !vReach v a.1 then .status stPage false
      else
        let w := if v.fmt.val < 2 then 4 else 2
        .done s [.v v.vd.val (vMap c v v.vd.val (fun l =>
          let q := vAddr v a.1 l
          let k := c.loc.num q w
          (f32r .rne false (plainValue v.fmt.val k), c.loc.readPo q w)))] none)

/-- VST: the active lanes rounded to FMT into the operand store (R173, R287). -/
def slotVst (v : VSlot) : Slot :=
  let sr := v.i.rnd == 4
  v0Cmd v 0x22 .q (vOk v { va := true, sa := true, sb := sr, imm := true, mode := true, fmt := true, rnd := true, fz := true }
      (v.mode == 1 || v.mode == 2) && vMemOk v && convOk v) (fun s n x =>
    let c := s.core n
    let a := c.sreg v.sa.val
    let sb := c.sreg v.sb.val
    if a.2 then .status stPoison false
    else if !vAligned v a.1 then .status stAlign true
    else if !vReach v a.1 then .status stPage false
    else
      let w := if v.fmt.val < 2 then 4 else 2
      let act := (List.range 64).filter (fun l => c.active v.i l)
      let res := fun l => laneConv v.fmt.val v.i (if sr then s.laneBits x v sb.1 l else 0) (c.lane v.va.val l).1
      let ps := act.map (fun l => ({ addr := vAddr v a.1 l
                                     data := leBytes w (if v.fmt.val = 1 then xf19Container (res l).code else (res l).code)
                                     po := (c.lane v.va.val l).2 || (sr && sb.2) } : Piece))
      storeDone ((s.evalsUp 0 ((act.filter (fun l => (res l).drew)).length)).store n x 1 0x22 false ps) [])

/-- VEXT: SB ← VA lane LANE, zero-extended, when that lane is active (R276, R286). -/
def slotVext (v : VSlot) : Slot :=
  v0Cmd v 0x30 .a (vOk v { sb := true, va := true, lane := true } true) (fun s n _ =>
    let c := s.core n
    let a := c.lane v.va.val v.lane.val
    .done s (if c.active v.i v.lane.val then [.s v.sb.val (a.1.setWidth 64) a.2] else []) none)

/-- VINS: VD lane LANE ← SA[31:0], when that lane is active. -/
def slotVins (v : VSlot) : Slot :=
  v0Cmd v 0x31 .a (vOk v { vd := true, sa := true, lane := true } true) (fun s n _ =>
    let c := s.core n
    let a := c.sreg v.sa.val
    .done s [.v v.vd.val (vMap c v v.vd.val (fun l =>
      if l = v.lane.val then (a.1.setWidth 32, a.2) else c.lane v.vd.val l))] none)

/-! ## The function pipe -/

/-- The CR form: the instruction's bit, or a context in reference mode (R176, R204). -/
def State.crForm (s : State) (x : Nat) (v : VSlot) : Bool := v.i.cr || (s.ctx x).refmode

/-- The fields of a function of VA; SR is refused (R173). -/
def vFunOk (v : VSlot) (vb sa fn : Bool) : Bool :=
  vOk v { vd := true, va := true, vb := vb, sa := sa, fn := fn, rnd := true, fz := true, cr := true } false && v.i.rnd != 4

/-- The function code under which Config.functionPick chooses: with the rounding and FZ fields, on which a result may depend (R176). -/
def pickCode (v : VSlot) (f : Nat) : Nat := f + 4096 * (v.i.rnd.val + 8 * bit v.i.fz)

/-- The rounding of a result that is correctly rounded, or that is a selection or a product: RNE in a CR form, else the rounding field
(R173, R175). -/
def vMode (v : VSlot) (cr : Bool) : Rnd := if cr then .rne else Issue.mode v.i

/-- A function of VA within its bound of R175. -/
def vFun (v : VSlot) (op u : Nat) (ab : Option Int) (f : FV → FV) : Slot :=
  v1Cmd v op (vFunOk v false false false) (fun s n x =>
    let c := s.core n
    .done s [.v v.vd.val (vMap c v v.vd.val (fun l =>
      let a := c.lane v.va.val l
      (pipeResult (s.crForm x v) v.i.fz (pickCode v op) u ab a.1 0 (f (f32v a.1)), a.2)))] none)

/-- VEXP. -/
def slotVexp (v : VSlot) : Slot := vFun v 0x40 1 none (exExp false)
/-- VEXP2. -/
def slotVexp2 (v : VSlot) : Slot := vFun v 0x41 1 none (exExp true)
/-- VLOG. -/
def slotVlog (v : VSlot) : Slot := vFun v 0x42 1 none (exLog false)
/-- VLOG2. -/
def slotVlog2 (v : VSlot) : Slot := vFun v 0x43 1 none (exLog true)
/-- VRCP. -/
def slotVrcp (v : VSlot) : Slot := vFun v 0x44 1 none exRcp
/-- VRSQ. -/
def slotVrsq (v : VSlot) : Slot := vFun v 0x45 1 none exRsq

/-- VSQRT: correctly rounded, in the rounding field (R173), and with RNE in the CR form (R175). -/
def slotVsqrt (v : VSlot) : Slot :=
  v1Cmd v 0x46 (vFunOk v false false false) (fun s n x =>
    let c := s.core n
    .done s [.v v.vd.val (vMap c v v.vd.val (fun l =>
      let a := c.lane v.va.val l
      (f32r (vMode v (s.crForm x v)) v.i.fz (exSqrt (f32v a.1)), a.2)))] none)

/-- VDIV: VA / VB, correctly rounded in the rounding field (R175). -/
def slotVdiv (v : VSlot) : Slot :=
  v1Cmd v 0x47 (vFunOk v true false false) (fun s n _ =>
    let c := s.core n
    .done s [.v v.vd.val (vMap c v v.vd.val (fun l =>
      let a := c.lane v.va.val l
      let b := c.lane v.vb.val l
      (f32r (Issue.mode v.i) v.i.fz (FV.div (f32v a.1) (f32v b.1)), a.2 || b.2)))] none)

/-- VCOS. -/
def slotVcos (v : VSlot) : Slot := vFun v 0x48 1 (some (-24)) (exTrig true)
/-- VSIN. -/
def slotVsin (v : VSlot) : Slot := vFun v 0x49 1 (some (-24)) (exTrig false)

/-- The activation codes of R183. -/
def actCode (f : Nat) : Bool := decide (f ≤ 8) || (decide (0x10 ≤ f) && decide (f ≤ 0x12))

/-- Codes whose result calls no function of the pipe on this operand: a selection, a product or a constant, rounded once (log entry
20). -/
def actExact (f : Nat) (z : W32) : Bool :=
  decide (f ≤ 2) || f == 7 || (f == 5 && FV.lt (f32v 0) (f32v z))

/-- VACT's f(z) (R183): within 2 ulp, or 4 ulp and 2^−23 for the codes from 0x10 (R175). -/
def actVal (v : VSlot) (cr : Bool) (f : Nat) (al z : W32) : W32 :=
  let e := exAct f (f32v al) (f32v z)
  if actExact f z then f32r (vMode v cr) v.i.fz e
  else pipeResult cr v.i.fz (pickCode v (0x100 + f)) (if f < 0x10 then 2 else 4) (if f < 0x10 then none else some (-23)) z al e

/-- VACT.DI's f′ from z. -/
def actDerIn (cr : Bool) (f : Nat) (al z : W32) : W32 :=
  let e := exActD f (f32v al) (f32v z)
  if actExact f z then f32r .rne false e
  else pipeResult cr false (0x200 + f) (if f < 0x10 then 2 else 4) (if f < 0x10 then none else some (-23)) z al e

/-- VACT.D's f′ from y, evaluated in FP32 with RNE in the order written (R183, R184); a NaN y gives a NaN. -/
def actDerOut (cr : Bool) (f : Nat) (al y : W32) : W32 :=
  let pos := FV.lt (f32v 0) (f32v y)
  if isNan32 y then nan32
  else if f = 0 then one32
  else if f = 1 then (if pos then one32 else 0)
  else if f = 2 then (if pos then one32 else al)
  else if f = 3 then mul32k y (sub32k one32 y)
  else if f = 4 then sub32k one32 (mul32k y y)
  else if f = 5 then (if pos then one32 else add32k y al)
  else if f = 6 then sub32k one32 (pipeResult cr false 0x40 1 none (neg32 y) 0 (exExp false (f32v (neg32 y))))
  else if f = 7 then mul32k 0x40000000#32 (f32r .rne false (exSqrt (f32v y)))
  else y

/-- Whether α is positive and finite (R184). -/
def alphaOk (al : W32) : Bool := FV.lt (f32v 0) (f32v al) && (f32v al).isFin

/-- VACT: f(z) of VA (R183). -/
def slotVact (v : VSlot) : Slot :=
  v1Cmd v 0x50 (vFunOk v false true true && actCode v.fn.toNat) (fun s n x =>
    let c := s.core n
    let al := c.sreg v.sa.val
    let f := v.fn.toNat
    .done s [.v v.vd.val (vMap c v v.vd.val (fun l =>
      let a := c.lane v.va.val l
      (actVal v (s.crForm x v) f (al.1.setWidth 32) a.1, a.2 || (al.2 && (f == 2 || f == 5)))))] none)

/-- The product of dy with f′, in the instruction's rounding; LRELU and ELU with an α that is not positive and finite give the
canonical NaN (R183, R184, log entry 45: DEDUCED). -/
def actProduct (v : VSlot) (op : Nat) (legal : Bool) (der : Bool → Nat → W32 → W32 → W32) : Slot :=
  v1Cmd v op legal (fun s n x =>
    let c := s.core n
    let al := c.sreg v.sa.val
    let a32 : W32 := al.1.setWidth 32
    let f := v.fn.toNat
    let useA := f == 2 || f == 5
    .done s [.v v.vd.val (vMap c v v.vd.val (fun l =>
      let a := c.lane v.va.val l
      let b := c.lane v.vb.val l
      (if useA && !alphaOk a32 then nan32
        else f32r (Issue.mode v.i) v.i.fz (FV.mul (f32v a.1) (f32v (der (s.crForm x v) f a32 b.1))),
        a.2 || b.2 || (al.2 && useA))))] none)

/-- VACT.D: dy × f′ from y; a code of 0x10 or above is refused (R184). -/
def slotVactD (v : VSlot) : Slot :=
  actProduct v 0x51 (vFunOk v true true true && decide (v.fn.toNat ≤ 8)) actDerOut
/-- VACT.DI: dy × f′ from z. -/
def slotVactDi (v : VSlot) : Slot :=
  actProduct v 0x52 (vFunOk v true true true && actCode v.fn.toNat) actDerIn

/-- The reduction of R174 over a list: 0 SUM, 1 MAX, 2 MIN. -/
def vreduce (fn : Nat) (l : List W32) : W32 :=
  if fn = 0 then combine l
  else if fn = 1 then (match l with
    | [] => ninf32
    | a :: t => t.foldl max32 (max32 a a))
  else match l with
    | [] => inf32
    | a :: t => t.foldl min32 (min32 a a)

/-- VRED over n = SA elements in VA, VA + 1, …; the result goes to every lane of VD (R174, R284). A range beyond v63 is refused. A
poisoned active lane or count poisons the result (R382, log entry 46: DEDUCED). -/
def slotVred (v : VSlot) : Slot :=
  v1Cmd v 0x58 (vOk v { vd := true, va := true, sa := true, fn := true } false && decide (v.fn.toNat ≤ 2)) (fun s n _ =>
    let c := s.core n
    let a := c.sreg v.sa.val
    let k := a.1.toNat
    if 64 < v.va.val + ceilDiv k 64 then .status stIllegal true
    else
      let es := ((List.range k).filter (fun e => c.active v.i (e % 64))).map (fun e => c.lane (v.va.val + e / 64) (e % 64))
      let r := vreduce v.fn.toNat (es.map (fun e => e.1))
      .done s [.v v.vd.val (List.replicate 64 (r, a.2 || es.any (fun e => e.2)))] none)

/-- The lane result of VRNG (R167), FN 0 RAW, 1 UINT, 2 UNIF, 3 BERN, 4 NORM_BM, 5 NORM_TAB; `a` is the VA lane. The result of
NORM_BM and NORM_TAB is rounded once, in the rounding field (R173); the steps within NORM_BM round with RNE (log entry 47: DEDUCED). -/
def vrngLane (fn : Nat) (mode : Rnd) (cr : Bool) (y : W64 × W64) (a : W32) : W32 :=
  let y0 := y.1.toNat
  let lo := y0 % 2 ^ 32
  if fn = 0 then BitVec.ofNat 32 lo
  else if fn = 1 then BitVec.ofNat 32 (y0 * (if a = 0 then 2 ^ 32 else a.toNat) / 2 ^ 64)
  else if fn = 2 then f32r .rne false (FV.ofInt (lo / 256 : Nat) (-24))
  else if fn = 3 then (match f32v a with
    | .nan => 0
    | .inf sg => if sg then 0 else 1
    | .fin sg m =>
      let t := m.scaled (-32)
      if sg ∨ m.num = 0 then 0 else if lo < min (t.1 / t.2) (2 ^ 32) then 1 else 0)
  else if fn = 4 then
    let u1 := f32r .rne false (FV.ofInt (2 * (lo / 256) + 1 : Nat) (-25))
    let u2 := f32r .rne false (FV.ofInt (y.2.toNat % 2 ^ 32 / 256 : Nat) (-24))
    let ln := pipeResult cr false 0x42 1 none u1 0 (exLog false (f32v u1))
    let r := f32r .rne false (exSqrt (f32v (mul32k 0xC0000000#32 ln)))
    let th := mul32k (f32r .rne false (fxVal (2 * fxPi) 0 false)) u2
    f32r mode false (FV.mul (f32v r) (f32v (pipeResult cr false 0x48 1 (some (-24)) th 0 (exTrig true (f32v th)))))
  else
    let e := normalEntry (lo / 2 ^ 22)
    f32r mode false (FV.add (f32v e.1) (FV.mul (f32v e.2) (FV.ofInt ((lo % 2 ^ 22 : Nat) - 2 ^ 21) (-22))))

/-- VRNG (R160, R167, R285). A RAW that names one register for both halves leaves free values there (log entry 110: DESIGN CHOICE). -/
def slotVrng (v : VSlot) : Slot :=
  let m0 := v.mode.val % 2 == 1
  let m1 := decide (2 ≤ v.mode.val)
  v1Cmd v 0x60 (vOk v { vd := true, va := true, vb := true, vc := v.d2, sa := true, sb := true, fn := true, mode := true, imm := true
                        immb := true, sc := m0, sd := m1, d2 := true, rnd := true, fz := true, cr := true } false && v.i.rnd != 4 &&
      decide (v.fn.toNat ≤ 5) && (!m0 || v.sc.val % 2 == 0)) (fun s n x =>
    let c := s.core n
    let st := c.sreg v.sb.val
    let base := c.sreg v.sa.val
    let s0 := c.sreg v.sc.val
    let s1 := c.sreg (v.sc.val + 1)
    let sd := c.sreg v.sd.val
    if st.1.toNat / 2 ^ 32 = 0xFFFFFFFF then .faultIn (s.orReg .krmErr 0 0 4) stIllegal true
    else
      let seed : W64 := if m0 then BitVec.ofNat 64 (s0.1.toNat % 2 ^ 32 + s1.1.toNat % 2 ^ 32 * 2 ^ 32) else s.ctxSeed x
      let step := if m1 then sd.1.toNat % 2 ^ 32 else (s.ctx x).stepno.toNat
      let po := st.2 || base.2 || (m0 && (s0.2 || s1.2)) || (m1 && sd.2)
      let fn := v.fn.toNat
      let y := fun l => kermesAt seed st.1 step v.imm16.toNat v.imm16b.toNat (base.1.toNat + (c.lane v.vb.val l).1.toNat)
      let lanePo := fun l => po || (c.lane v.vb.val l).2 || ((fn == 1 || fn == 3) && (c.lane v.va.val l).2)
      let act := (List.range 64).filter (fun l => c.active v.i l)
      let nans := (act.filter (fun l => fn == 3 && isNan32 (c.lane v.va.val l).1 && !lanePo l)).length
      let flush := fun w : W32 => if v.i.fz && (fn == 4 || fn == 5) then BitVec.ofNat 32 (fp32.flush w.toNat) else w
      let w0 := RegW.v v.vd.val (vMap c v v.vd.val (fun l => (flush (vrngLane fn (Issue.mode v.i) (s.crForm x v) (y l) (c.lane v.va.val l).1), lanePo l)))
      let w1 := RegW.v v.vc.val (vMap c v v.vc.val (fun l => (BitVec.ofNat 32 ((y l).1.toNat / 2 ^ 32), lanePo l)))
      let both := RegW.v v.vd.val (vMap c v v.vd.val (fun l => (Config.freeValue 32 (s.free + l), lanePo l)))
      let t := (s.bump .morCnt n 1 nans).evalsUp 0 act.length
      if v.d2 && fn == 0 then (if v.vc = v.vd then .done (t.drawN 64) [both] none else .done t [w0, w1] none) else .done t [w0] none)

/-! ## The statistics store -/

/-- An entry (M, L, A) with its poison; every entry is zero until written (log entry 6: DESIGN CHOICE). -/
def Core.stat (c : Core) (e : Nat) : (W32 × W32 × W32) × Bool := AMap.get ((0, 0, 0), false) e c.stats

/-- The entries of the active lanes rewritten. -/
def Core.putStats (c : Core) (i : Issue) (base : Nat) (f : Nat → (W32 × W32 × W32) × Bool) : Core :=
  let act := (List.range 64).filter (fun l => c.active i l)
  let st := act.foldl (fun m l => AMap.put ((0, 0, 0), false) (base + l) (f l) m) c.stats
  { c with stats := st }

/-- A VOSM command: SA is the first entry, a multiple of 64 in the store (R284). -/
def vosm (v : VSlot) (op : Nat) (legal : Bool) (body : State → Nat → Nat → SlotRes) : Slot :=
  v1Cmd v op legal (fun s n _ =>
    let a := (s.core n).sreg v.sa.val
    if a.2 then .status stPoison false
    else if a.1.toNat % 64 ≠ 0 ∨ 2048 < a.1.toNat + 64 then .status stAlign true
    else body s n a.1.toNat)

/-- VOSM.I: M ← −∞, L ← +0, A ← 1 (R233). -/
def slotVosmI (v : VSlot) : Slot :=
  vosm v 0x68 (vOk v { sa := true } false)
    (fun s n b => .done (s.setCore n ((s.core n).putStats v.i b (fun _ => ((ninf32, 0, one32), false)))) [] none)

/-- α of R234 for the old and new maximum. -/
def osmAlpha (m0 m1 : W32) : W32 :=
  if isNan32 m0 || isNan32 m1 then nan32
  else if FV.eq (f32v m0) (f32v m1) then one32
  else if m0 = ninf32 then 0
  else f32r .rne true (exExp false (f32v (sub32 m0 m1)))

/-- VOSM.M: the running maximum and the rescale factor (R233, R234). -/
def slotVosmM (v : VSlot) : Slot :=
  vosm v 0x69 (vOk v { vd := true, va := true, sa := true } false && v.vd != 63) (fun s n b =>
    let c := s.core n
    let m := fun l => max32 (c.stat (b + l)).1.1 (c.lane v.va.val l).1
    let al := fun l => osmAlpha (c.stat (b + l)).1.1 (m l)
    let po := fun l => (c.stat (b + l)).2 || (c.lane v.va.val l).2
    let act := (List.range 64).filter (fun l => c.active v.i l)
    let nans := (act.filter (fun l => isNan32 (c.lane v.va.val l).1 && !po l)).length
    let s1 := s.setCore n (c.putStats v.i b (fun l => ((m l, (c.stat (b + l)).1.2.1, al l), po l)))
    .done (s1.bump .morCnt n 1 nans)
      [.v v.vd.val (vMap c v v.vd.val (fun l => (m l, po l))), .v (v.vd.val + 1) (vMap c v (v.vd.val + 1) (fun l => (al l, po l)))]
      none)

/-- VOSM.L: L ← add32(mul32(L, A), vs[l]). -/
def slotVosmL (v : VSlot) : Slot :=
  vosm v 0x6A (vOk v { va := true, sa := true } false) (fun s n b =>
    let c := s.core n
    .done (s.setCore n (c.putStats v.i b (fun l =>
      let e := c.stat (b + l)
      let a := c.lane v.va.val l
      ((e.1.1, add32 (mul32 e.1.2.1 e.1.2.2) a.1, e.1.2.2), e.2 || a.2)))) [] none)

/-- VOSM.F: vd[l] ← M; vd + 1[l] ← L. -/
def slotVosmF (v : VSlot) : Slot :=
  vosm v 0x6B (vOk v { vd := true, sa := true } false && v.vd != 63) (fun s n b =>
    let c := s.core n
    .done s [.v v.vd.val (vMap c v v.vd.val (fun l => ((c.stat (b + l)).1.1, (c.stat (b + l)).2))),
      .v (v.vd.val + 1) (vMap c v (v.vd.val + 1) (fun l => ((c.stat (b + l)).1.2.1, (c.stat (b + l)).2)))] none)

/-- VOSM.S: M ← vs[l]; L ← vs + 1[l]; A ← 1; VA = v63 names no second register and is refused (log entry 48: DEDUCED). -/
def slotVosmS (v : VSlot) : Slot :=
  vosm v 0x6C (vOk v { va := true, sa := true } false && v.va != 63) (fun s n b =>
    let c := s.core n
    .done (s.setCore n (c.putStats v.i b (fun l =>
      let a := c.lane v.va.val l
      let d := c.lane (v.va.val + 1) l
      ((a.1, d.1, one32), a.2 || d.2)))) [] none)

end Sys2Proof.Machine
end

