-- ==== Sys2Proof/Machine/Slots.lean ====
section
/-! DEFINITION. The slot commands: each is presented to its core, and with the last slot of a wide instruction the wide instruction issues (R244,
R275). What each slot does stands with its family; the sequencer's own issue of the instruction memory stands at the end (R273). -/

namespace Sys2Proof.Machine

/-- The slot that a command presents, where it presents one. -/
def slotOf : Instr → Option Slot
  | .add v => some (slotAdd v)
  | .sub v => some (slotSub v)
  | .and v => some (slotAnd v)
  | .or v => some (slotOr v)
  | .xor v => some (slotXor v)
  | .shl v => some (slotShl v)
  | .shr v => some (slotShr v)
  | .sar v => some (slotSar v)
  | .mul v => some (slotMul v)
  | .mulhu v => some (slotMulhu v)
  | .min v => some (slotMin v)
  | .max v => some (slotMax v)
  | .addi v => some (slotAddi v)
  | .andi v => some (slotAndi v)
  | .ori v => some (slotOri v)
  | .xori v => some (slotXori v)
  | .shli v => some (slotShli v)
  | .shri v => some (slotShri v)
  | .movi v => some (slotMovi v)
  | .cmpEq v => some (slotCmpEq v)
  | .cmpNe v => some (slotCmpNe v)
  | .cmpLt v => some (slotCmpLt v)
  | .cmpLtu v => some (slotCmpLtu v)
  | .cmpiEq v => some (slotCmpiEq v)
  | .cmpiLt v => some (slotCmpiLt v)
  | .pand v => some (slotPand v)
  | .por v => some (slotPor v)
  | .pxor v => some (slotPxor v)
  | .pnot v => some (slotPnot v)
  | .pset v => some (slotPset v)
  | .jmp v => some (slotJmp v)
  | .jr v => some (slotJr v)
  | .call v => some (slotCall v)
  | .loop v => some (slotLoop v)
  | .crd v => some (slotCrd v)
  | .cwr v => some (slotCwr v)
  | .clvl v => some (slotClvl v)
  | .tld v => some (slotTld v)
  | .tst v => some (slotTst v)
  | .taddr v => some (slotTaddr v)
  | .torg v => some (slotTorg v)
  | .lds v => some (slotLds v)
  | .sts v => some (slotSts v)
  | .cspec v => some (slotCspec v)
  | .ccommit v => some (slotCcommit v)
  | .ccommitStep v => some (slotCcommitStep v)
  | .halt v => some (slotHalt v)
  | .vadd v => some (slotVadd v)
  | .vsub v => some (slotVsub v)
  | .vmul v => some (slotVmul v)
  | .vfma v => some (slotVfma v)
  | .vmax v => some (slotVmax v)
  | .vmin v => some (slotVmin v)
  | .vcmp v => some (slotVcmp v)
  | .vsel v => some (slotVsel v)
  | .viadd v => some (slotViadd v)
  | .visub v => some (slotVisub v)
  | .vimul v => some (slotVimul v)
  | .vand v => some (slotVand v)
  | .vor v => some (slotVor v)
  | .vxor v => some (slotVxor v)
  | .vshl v => some (slotVshl v)
  | .vshr v => some (slotVshr v)
  | .vsar v => some (slotVsar v)
  | .vicmp v => some (slotVicmp v)
  | .viota v => some (slotViota v)
  | .vbcast v => some (slotVbcast v)
  | .vcvt v => some (slotVcvt v)
  | .vld v => some (slotVld v)
  | .vst v => some (slotVst v)
  | .vext v => some (slotVext v)
  | .vins v => some (slotVins v)
  | .vexp v => some (slotVexp v)
  | .vexp2 v => some (slotVexp2 v)
  | .vlog v => some (slotVlog v)
  | .vlog2 v => some (slotVlog2 v)
  | .vrcp v => some (slotVrcp v)
  | .vrsq v => some (slotVrsq v)
  | .vsqrt v => some (slotVsqrt v)
  | .vdiv v => some (slotVdiv v)
  | .vcos v => some (slotVcos v)
  | .vsin v => some (slotVsin v)
  | .vact v => some (slotVact v)
  | .vactD v => some (slotVactD v)
  | .vactDi v => some (slotVactDi v)
  | .vred v => some (slotVred v)
  | .vrng v => some (slotVrng v)
  | .vosmI v => some (slotVosmI v)
  | .vosmM v => some (slotVosmM v)
  | .vosmL v => some (slotVosmL v)
  | .vosmF v => some (slotVosmF v)
  | .vosmS v => some (slotVosmS v)
  | .wld v => some (slotWld v)
  | .wmm v => some (slotWmm v)
  | .wck v => some (slotWck v)
  | .wfl v => some (slotWfl v)
  | .mmm v => some (slotMmm v)
  | .mdx v => some (slotMdx v)
  | .mdw v => some (slotMdw v)
  | .mfl v => some (slotMfl v)
  | .mvw v => some (slotMvw v)
  | .tqz v => some (slotTqz v)
  | .tdq v => some (slotTdq v)
  | .trot v => some (slotTrot v)
  | .tcv v => some (slotTcv v)
  | .tstatAmax v => some (slotTstatAmax v)
  | .tstatChk v => some (slotTstatChk v)
  | .tstatFin v => some (slotTstatFin v)
  | .dld v => some (slotDld v)
  | .dpf v => some (slotDpf v)
  | .dldWait v => some (slotDldWait v)
  | .dst v => some (slotDst v)
  | .dcp v => some (slotDcp v)
  | .dstCollector v => some (slotDstCollector v)
  | .dstWalkRequest v => some (slotDstWalkRequest v)
  | .dstRelease v => some (slotDstRelease v)
  | .dstEdit v => some (slotDstEdit v)
  | .lat v => some (slotLat v)
  | .lwait v => some (slotLwait v)
  | .lsend v => some (slotLsend v)
  | .lrecv v => some (slotLrecv v)
  | .lcoll v => some (slotLcoll v)
  | .lfence v => some (slotLfence v)
  | _ => none

/-- A slot command. -/
def slotRun (c : Instr) (q : Slot) (s : State) : Host.Outcome State Fault Refusal := wideCmd slotOf c q s

/-- ADD, as `slotAdd` has it. -/
def execAdd (v : CSlot) (s : State) : Host.Outcome State Fault Refusal := slotRun (.add v) (slotAdd v) s
/-- SUB, as `slotSub` has it. -/
def execSub (v : CSlot) (s : State) : Host.Outcome State Fault Refusal := slotRun (.sub v) (slotSub v) s
/-- AND, as `slotAnd` has it. -/
def execAnd (v : CSlot) (s : State) : Host.Outcome State Fault Refusal := slotRun (.and v) (slotAnd v) s
/-- OR, as `slotOr` has it. -/
def execOr (v : CSlot) (s : State) : Host.Outcome State Fault Refusal := slotRun (.or v) (slotOr v) s
/-- XOR, as `slotXor` has it. -/
def execXor (v : CSlot) (s : State) : Host.Outcome State Fault Refusal := slotRun (.xor v) (slotXor v) s
/-- SHL, as `slotShl` has it. -/
def execShl (v : CSlot) (s : State) : Host.Outcome State Fault Refusal := slotRun (.shl v) (slotShl v) s
/-- SHR, as `slotShr` has it. -/
def execShr (v : CSlot) (s : State) : Host.Outcome State Fault Refusal := slotRun (.shr v) (slotShr v) s
/-- SAR, as `slotSar` has it. -/
def execSar (v : CSlot) (s : State) : Host.Outcome State Fault Refusal := slotRun (.sar v) (slotSar v) s
/-- MUL, as `slotMul` has it. -/
def execMul (v : CSlot) (s : State) : Host.Outcome State Fault Refusal := slotRun (.mul v) (slotMul v) s
/-- MULHU, as `slotMulhu` has it. -/
def execMulhu (v : CSlot) (s : State) : Host.Outcome State Fault Refusal := slotRun (.mulhu v) (slotMulhu v) s
/-- MIN, as `slotMin` has it. -/
def execMin (v : CSlot) (s : State) : Host.Outcome State Fault Refusal := slotRun (.min v) (slotMin v) s
/-- MAX, as `slotMax` has it. -/
def execMax (v : CSlot) (s : State) : Host.Outcome State Fault Refusal := slotRun (.max v) (slotMax v) s
/-- ADDI, as `slotAddi` has it. -/
def execAddi (v : CSlot) (s : State) : Host.Outcome State Fault Refusal := slotRun (.addi v) (slotAddi v) s
/-- ANDI, as `slotAndi` has it. -/
def execAndi (v : CSlot) (s : State) : Host.Outcome State Fault Refusal := slotRun (.andi v) (slotAndi v) s
/-- ORI, as `slotOri` has it. -/
def execOri (v : CSlot) (s : State) : Host.Outcome State Fault Refusal := slotRun (.ori v) (slotOri v) s
/-- XORI, as `slotXori` has it. -/
def execXori (v : CSlot) (s : State) : Host.Outcome State Fault Refusal := slotRun (.xori v) (slotXori v) s
/-- SHLI, as `slotShli` has it. -/
def execShli (v : CSlot) (s : State) : Host.Outcome State Fault Refusal := slotRun (.shli v) (slotShli v) s
/-- SHRI, as `slotShri` has it. -/
def execShri (v : CSlot) (s : State) : Host.Outcome State Fault Refusal := slotRun (.shri v) (slotShri v) s
/-- MOVI, as `slotMovi` has it. -/
def execMovi (v : CSlot) (s : State) : Host.Outcome State Fault Refusal := slotRun (.movi v) (slotMovi v) s
/-- CMP_EQ, as `slotCmpEq` has it. -/
def execCmpEq (v : CSlot) (s : State) : Host.Outcome State Fault Refusal := slotRun (.cmpEq v) (slotCmpEq v) s
/-- CMP_NE, as `slotCmpNe` has it. -/
def execCmpNe (v : CSlot) (s : State) : Host.Outcome State Fault Refusal := slotRun (.cmpNe v) (slotCmpNe v) s
/-- CMP_LT, as `slotCmpLt` has it. -/
def execCmpLt (v : CSlot) (s : State) : Host.Outcome State Fault Refusal := slotRun (.cmpLt v) (slotCmpLt v) s
/-- CMP_LTU, as `slotCmpLtu` has it. -/
def execCmpLtu (v : CSlot) (s : State) : Host.Outcome State Fault Refusal := slotRun (.cmpLtu v) (slotCmpLtu v) s
/-- CMPI_EQ, as `slotCmpiEq` has it. -/
def execCmpiEq (v : CSlot) (s : State) : Host.Outcome State Fault Refusal := slotRun (.cmpiEq v) (slotCmpiEq v) s
/-- CMPI_LT, as `slotCmpiLt` has it. -/
def execCmpiLt (v : CSlot) (s : State) : Host.Outcome State Fault Refusal := slotRun (.cmpiLt v) (slotCmpiLt v) s
/-- PAND, as `slotPand` has it. -/
def execPand (v : CSlot) (s : State) : Host.Outcome State Fault Refusal := slotRun (.pand v) (slotPand v) s
/-- POR, as `slotPor` has it. -/
def execPor (v : CSlot) (s : State) : Host.Outcome State Fault Refusal := slotRun (.por v) (slotPor v) s
/-- PXOR, as `slotPxor` has it. -/
def execPxor (v : CSlot) (s : State) : Host.Outcome State Fault Refusal := slotRun (.pxor v) (slotPxor v) s
/-- PNOT, as `slotPnot` has it. -/
def execPnot (v : CSlot) (s : State) : Host.Outcome State Fault Refusal := slotRun (.pnot v) (slotPnot v) s
/-- PSET, as `slotPset` has it. -/
def execPset (v : CSlot) (s : State) : Host.Outcome State Fault Refusal := slotRun (.pset v) (slotPset v) s
/-- JMP, as `slotJmp` has it. -/
def execJmp (v : CSlot) (s : State) : Host.Outcome State Fault Refusal := slotRun (.jmp v) (slotJmp v) s
/-- JR, as `slotJr` has it. -/
def execJr (v : CSlot) (s : State) : Host.Outcome State Fault Refusal := slotRun (.jr v) (slotJr v) s
/-- CALL, as `slotCall` has it. -/
def execCall (v : CSlot) (s : State) : Host.Outcome State Fault Refusal := slotRun (.call v) (slotCall v) s
/-- LOOP, as `slotLoop` has it. -/
def execLoop (v : CSlot) (s : State) : Host.Outcome State Fault Refusal := slotRun (.loop v) (slotLoop v) s
/-- CRD, as `slotCrd` has it. -/
def execCrd (v : CSlot) (s : State) : Host.Outcome State Fault Refusal := slotRun (.crd v) (slotCrd v) s
/-- CWR, as `slotCwr` has it. -/
def execCwr (v : CSlot) (s : State) : Host.Outcome State Fault Refusal := slotRun (.cwr v) (slotCwr v) s
/-- CLVL, as `slotClvl` has it. -/
def execClvl (v : CSlot) (s : State) : Host.Outcome State Fault Refusal := slotRun (.clvl v) (slotClvl v) s
/-- TLD, as `slotTld` has it. -/
def execTld (v : CSlot) (s : State) : Host.Outcome State Fault Refusal := slotRun (.tld v) (slotTld v) s
/-- TST, as `slotTst` has it. -/
def execTst (v : CSlot) (s : State) : Host.Outcome State Fault Refusal := slotRun (.tst v) (slotTst v) s
/-- TADDR, as `slotTaddr` has it. -/
def execTaddr (v : CSlot) (s : State) : Host.Outcome State Fault Refusal := slotRun (.taddr v) (slotTaddr v) s
/-- TORG, as `slotTorg` has it. -/
def execTorg (v : CSlot) (s : State) : Host.Outcome State Fault Refusal := slotRun (.torg v) (slotTorg v) s
/-- LDS, as `slotLds` has it. -/
def execLds (v : CSlot) (s : State) : Host.Outcome State Fault Refusal := slotRun (.lds v) (slotLds v) s
/-- STS, as `slotSts` has it. -/
def execSts (v : CSlot) (s : State) : Host.Outcome State Fault Refusal := slotRun (.sts v) (slotSts v) s
/-- CSPEC, as `slotCspec` has it. -/
def execCspec (v : CSlot) (s : State) : Host.Outcome State Fault Refusal := slotRun (.cspec v) (slotCspec v) s
/-- CCOMMIT, as `slotCcommit` has it. -/
def execCcommit (v : CSlot) (s : State) : Host.Outcome State Fault Refusal := slotRun (.ccommit v) (slotCcommit v) s
/-- CCOMMIT_STEP, as `slotCcommitStep` has it. -/
def execCcommitStep (v : CSlot) (s : State) : Host.Outcome State Fault Refusal := slotRun (.ccommitStep v) (slotCcommitStep v) s
/-- HALT, as `slotHalt` has it. -/
def execHalt (v : CSlot) (s : State) : Host.Outcome State Fault Refusal := slotRun (.halt v) (slotHalt v) s
/-- VADD, as `slotVadd` has it. -/
def execVadd (v : VSlot) (s : State) : Host.Outcome State Fault Refusal := slotRun (.vadd v) (slotVadd v) s
/-- VSUB, as `slotVsub` has it. -/
def execVsub (v : VSlot) (s : State) : Host.Outcome State Fault Refusal := slotRun (.vsub v) (slotVsub v) s
/-- VMUL, as `slotVmul` has it. -/
def execVmul (v : VSlot) (s : State) : Host.Outcome State Fault Refusal := slotRun (.vmul v) (slotVmul v) s
/-- VFMA, as `slotVfma` has it. -/
def execVfma (v : VSlot) (s : State) : Host.Outcome State Fault Refusal := slotRun (.vfma v) (slotVfma v) s
/-- VMAX, as `slotVmax` has it. -/
def execVmax (v : VSlot) (s : State) : Host.Outcome State Fault Refusal := slotRun (.vmax v) (slotVmax v) s
/-- VMIN, as `slotVmin` has it. -/
def execVmin (v : VSlot) (s : State) : Host.Outcome State Fault Refusal := slotRun (.vmin v) (slotVmin v) s
/-- VCMP, as `slotVcmp` has it. -/
def execVcmp (v : VSlot) (s : State) : Host.Outcome State Fault Refusal := slotRun (.vcmp v) (slotVcmp v) s
/-- VSEL, as `slotVsel` has it. -/
def execVsel (v : VSlot) (s : State) : Host.Outcome State Fault Refusal := slotRun (.vsel v) (slotVsel v) s
/-- VIADD, as `slotViadd` has it. -/
def execViadd (v : VSlot) (s : State) : Host.Outcome State Fault Refusal := slotRun (.viadd v) (slotViadd v) s
/-- VISUB, as `slotVisub` has it. -/
def execVisub (v : VSlot) (s : State) : Host.Outcome State Fault Refusal := slotRun (.visub v) (slotVisub v) s
/-- VIMUL, as `slotVimul` has it. -/
def execVimul (v : VSlot) (s : State) : Host.Outcome State Fault Refusal := slotRun (.vimul v) (slotVimul v) s
/-- VAND, as `slotVand` has it. -/
def execVand (v : VSlot) (s : State) : Host.Outcome State Fault Refusal := slotRun (.vand v) (slotVand v) s
/-- VOR, as `slotVor` has it. -/
def execVor (v : VSlot) (s : State) : Host.Outcome State Fault Refusal := slotRun (.vor v) (slotVor v) s
/-- VXOR, as `slotVxor` has it. -/
def execVxor (v : VSlot) (s : State) : Host.Outcome State Fault Refusal := slotRun (.vxor v) (slotVxor v) s
/-- VSHL, as `slotVshl` has it. -/
def execVshl (v : VSlot) (s : State) : Host.Outcome State Fault Refusal := slotRun (.vshl v) (slotVshl v) s
/-- VSHR, as `slotVshr` has it. -/
def execVshr (v : VSlot) (s : State) : Host.Outcome State Fault Refusal := slotRun (.vshr v) (slotVshr v) s
/-- VSAR, as `slotVsar` has it. -/
def execVsar (v : VSlot) (s : State) : Host.Outcome State Fault Refusal := slotRun (.vsar v) (slotVsar v) s
/-- VICMP, as `slotVicmp` has it. -/
def execVicmp (v : VSlot) (s : State) : Host.Outcome State Fault Refusal := slotRun (.vicmp v) (slotVicmp v) s
/-- VIOTA, as `slotViota` has it. -/
def execViota (v : VSlot) (s : State) : Host.Outcome State Fault Refusal := slotRun (.viota v) (slotViota v) s
/-- VBCAST, as `slotVbcast` has it. -/
def execVbcast (v : VSlot) (s : State) : Host.Outcome State Fault Refusal := slotRun (.vbcast v) (slotVbcast v) s
/-- VCVT, as `slotVcvt` has it. -/
def execVcvt (v : VSlot) (s : State) : Host.Outcome State Fault Refusal := slotRun (.vcvt v) (slotVcvt v) s
/-- VLD, as `slotVld` has it. -/
def execVld (v : VSlot) (s : State) : Host.Outcome State Fault Refusal := slotRun (.vld v) (slotVld v) s
/-- VST, as `slotVst` has it. -/
def execVst (v : VSlot) (s : State) : Host.Outcome State Fault Refusal := slotRun (.vst v) (slotVst v) s
/-- VEXT, as `slotVext` has it. -/
def execVext (v : VSlot) (s : State) : Host.Outcome State Fault Refusal := slotRun (.vext v) (slotVext v) s
/-- VINS, as `slotVins` has it. -/
def execVins (v : VSlot) (s : State) : Host.Outcome State Fault Refusal := slotRun (.vins v) (slotVins v) s
/-- VEXP, as `slotVexp` has it. -/
def execVexp (v : VSlot) (s : State) : Host.Outcome State Fault Refusal := slotRun (.vexp v) (slotVexp v) s
/-- VEXP2, as `slotVexp2` has it. -/
def execVexp2 (v : VSlot) (s : State) : Host.Outcome State Fault Refusal := slotRun (.vexp2 v) (slotVexp2 v) s
/-- VLOG, as `slotVlog` has it. -/
def execVlog (v : VSlot) (s : State) : Host.Outcome State Fault Refusal := slotRun (.vlog v) (slotVlog v) s
/-- VLOG2, as `slotVlog2` has it. -/
def execVlog2 (v : VSlot) (s : State) : Host.Outcome State Fault Refusal := slotRun (.vlog2 v) (slotVlog2 v) s
/-- VRCP, as `slotVrcp` has it. -/
def execVrcp (v : VSlot) (s : State) : Host.Outcome State Fault Refusal := slotRun (.vrcp v) (slotVrcp v) s
/-- VRSQ, as `slotVrsq` has it. -/
def execVrsq (v : VSlot) (s : State) : Host.Outcome State Fault Refusal := slotRun (.vrsq v) (slotVrsq v) s
/-- VSQRT, as `slotVsqrt` has it. -/
def execVsqrt (v : VSlot) (s : State) : Host.Outcome State Fault Refusal := slotRun (.vsqrt v) (slotVsqrt v) s
/-- VDIV, as `slotVdiv` has it. -/
def execVdiv (v : VSlot) (s : State) : Host.Outcome State Fault Refusal := slotRun (.vdiv v) (slotVdiv v) s
/-- VCOS, as `slotVcos` has it. -/
def execVcos (v : VSlot) (s : State) : Host.Outcome State Fault Refusal := slotRun (.vcos v) (slotVcos v) s
/-- VSIN, as `slotVsin` has it. -/
def execVsin (v : VSlot) (s : State) : Host.Outcome State Fault Refusal := slotRun (.vsin v) (slotVsin v) s
/-- VACT, as `slotVact` has it. -/
def execVact (v : VSlot) (s : State) : Host.Outcome State Fault Refusal := slotRun (.vact v) (slotVact v) s
/-- VACT_D, as `slotVactD` has it. -/
def execVactD (v : VSlot) (s : State) : Host.Outcome State Fault Refusal := slotRun (.vactD v) (slotVactD v) s
/-- VACT_DI, as `slotVactDi` has it. -/
def execVactDi (v : VSlot) (s : State) : Host.Outcome State Fault Refusal := slotRun (.vactDi v) (slotVactDi v) s
/-- VRED, as `slotVred` has it. -/
def execVred (v : VSlot) (s : State) : Host.Outcome State Fault Refusal := slotRun (.vred v) (slotVred v) s
/-- VRNG, as `slotVrng` has it. -/
def execVrng (v : VSlot) (s : State) : Host.Outcome State Fault Refusal := slotRun (.vrng v) (slotVrng v) s
/-- VOSM_I, as `slotVosmI` has it. -/
def execVosmI (v : VSlot) (s : State) : Host.Outcome State Fault Refusal := slotRun (.vosmI v) (slotVosmI v) s
/-- VOSM_M, as `slotVosmM` has it. -/
def execVosmM (v : VSlot) (s : State) : Host.Outcome State Fault Refusal := slotRun (.vosmM v) (slotVosmM v) s
/-- VOSM_L, as `slotVosmL` has it. -/
def execVosmL (v : VSlot) (s : State) : Host.Outcome State Fault Refusal := slotRun (.vosmL v) (slotVosmL v) s
/-- VOSM_F, as `slotVosmF` has it. -/
def execVosmF (v : VSlot) (s : State) : Host.Outcome State Fault Refusal := slotRun (.vosmF v) (slotVosmF v) s
/-- VOSM_S, as `slotVosmS` has it. -/
def execVosmS (v : VSlot) (s : State) : Host.Outcome State Fault Refusal := slotRun (.vosmS v) (slotVosmS v) s
/-- WLD, as `slotWld` has it. -/
def execWld (v : WSlot) (s : State) : Host.Outcome State Fault Refusal := slotRun (.wld v) (slotWld v) s
/-- WMM, as `slotWmm` has it. -/
def execWmm (v : WSlot) (s : State) : Host.Outcome State Fault Refusal := slotRun (.wmm v) (slotWmm v) s
/-- WCK, as `slotWck` has it. -/
def execWck (v : WSlot) (s : State) : Host.Outcome State Fault Refusal := slotRun (.wck v) (slotWck v) s
/-- WFL, as `slotWfl` has it. -/
def execWfl (v : WSlot) (s : State) : Host.Outcome State Fault Refusal := slotRun (.wfl v) (slotWfl v) s
/-- MMM, as `slotMmm` has it. -/
def execMmm (v : MSlot) (s : State) : Host.Outcome State Fault Refusal := slotRun (.mmm v) (slotMmm v) s
/-- MDX, as `slotMdx` has it. -/
def execMdx (v : MSlot) (s : State) : Host.Outcome State Fault Refusal := slotRun (.mdx v) (slotMdx v) s
/-- MDW, as `slotMdw` has it. -/
def execMdw (v : MSlot) (s : State) : Host.Outcome State Fault Refusal := slotRun (.mdw v) (slotMdw v) s
/-- MFL, as `slotMfl` has it. -/
def execMfl (v : MSlot) (s : State) : Host.Outcome State Fault Refusal := slotRun (.mfl v) (slotMfl v) s
/-- MVW, as `slotMvw` has it. -/
def execMvw (v : MSlot) (s : State) : Host.Outcome State Fault Refusal := slotRun (.mvw v) (slotMvw v) s
/-- TQZ, as `slotTqz` has it. -/
def execTqz (v : TSlot) (s : State) : Host.Outcome State Fault Refusal := slotRun (.tqz v) (slotTqz v) s
/-- TDQ, as `slotTdq` has it. -/
def execTdq (v : TSlot) (s : State) : Host.Outcome State Fault Refusal := slotRun (.tdq v) (slotTdq v) s
/-- TROT, as `slotTrot` has it. -/
def execTrot (v : TSlot) (s : State) : Host.Outcome State Fault Refusal := slotRun (.trot v) (slotTrot v) s
/-- TCV, as `slotTcv` has it. -/
def execTcv (v : TSlot) (s : State) : Host.Outcome State Fault Refusal := slotRun (.tcv v) (slotTcv v) s
/-- TSTAT_AMAX, as `slotTstatAmax` has it. -/
def execTstatAmax (v : TSlot) (s : State) : Host.Outcome State Fault Refusal := slotRun (.tstatAmax v) (slotTstatAmax v) s
/-- TSTAT_CHK, as `slotTstatChk` has it. -/
def execTstatChk (v : TSlot) (s : State) : Host.Outcome State Fault Refusal := slotRun (.tstatChk v) (slotTstatChk v) s
/-- TSTAT_FIN, as `slotTstatFin` has it. -/
def execTstatFin (v : TSlot) (s : State) : Host.Outcome State Fault Refusal := slotRun (.tstatFin v) (slotTstatFin v) s
/-- DLD, as `slotDld` has it. -/
def execDld (v : DSlot) (s : State) : Host.Outcome State Fault Refusal := slotRun (.dld v) (slotDld v) s
/-- DPF, as `slotDpf` has it. -/
def execDpf (v : DSlot) (s : State) : Host.Outcome State Fault Refusal := slotRun (.dpf v) (slotDpf v) s
/-- DLD_WAIT, as `slotDldWait` has it. -/
def execDldWait (v : DSlot) (s : State) : Host.Outcome State Fault Refusal := slotRun (.dldWait v) (slotDldWait v) s
/-- DST, as `slotDst` has it. -/
def execDst (v : DSlot) (s : State) : Host.Outcome State Fault Refusal := slotRun (.dst v) (slotDst v) s
/-- DCP, as `slotDcp` has it. -/
def execDcp (v : DSlot) (s : State) : Host.Outcome State Fault Refusal := slotRun (.dcp v) (slotDcp v) s
/-- DST_COLLECTOR, as `slotDstCollector` has it. -/
def execDstCollector (v : DSlot) (s : State) : Host.Outcome State Fault Refusal := slotRun (.dstCollector v) (slotDstCollector v) s
/-- DST_WALK_REQUEST, as `slotDstWalkRequest` has it. -/
def execDstWalkRequest (v : DSlot) (s : State) : Host.Outcome State Fault Refusal := slotRun (.dstWalkRequest v) (slotDstWalkRequest v) s
/-- DST_RELEASE, as `slotDstRelease` has it. -/
def execDstRelease (v : DSlot) (s : State) : Host.Outcome State Fault Refusal := slotRun (.dstRelease v) (slotDstRelease v) s
/-- DST_EDIT, as `slotDstEdit` has it. -/
def execDstEdit (v : DSlot) (s : State) : Host.Outcome State Fault Refusal := slotRun (.dstEdit v) (slotDstEdit v) s
/-- LAT, as `slotLat` has it. -/
def execLat (v : LSlot) (s : State) : Host.Outcome State Fault Refusal := slotRun (.lat v) (slotLat v) s
/-- LWAIT, as `slotLwait` has it. -/
def execLwait (v : LSlot) (s : State) : Host.Outcome State Fault Refusal := slotRun (.lwait v) (slotLwait v) s
/-- LSEND, as `slotLsend` has it. -/
def execLsend (v : LSlot) (s : State) : Host.Outcome State Fault Refusal := slotRun (.lsend v) (slotLsend v) s
/-- LRECV, as `slotLrecv` has it. -/
def execLrecv (v : LSlot) (s : State) : Host.Outcome State Fault Refusal := slotRun (.lrecv v) (slotLrecv v) s
/-- LCOLL, as `slotLcoll` has it. -/
def execLcoll (v : LSlot) (s : State) : Host.Outcome State Fault Refusal := slotRun (.lcoll v) (slotLcoll v) s
/-- LFENCE, as `slotLfence` has it. -/
def execLfence (v : LSlot) (s : State) : Host.Outcome State Fault Refusal := slotRun (.lfence v) (slotLfence v) s

/-! ## The sequencer -/

/-- A slot that spells no instruction: an unlisted opcode, a reserved KIND or FN, or a NOP with a field set (R274, R275). -/
def badSlot (k : CoreId) (n : Nat) (w : BitVec 128) : Slot :=
  slotCmd { k := k } n (slotOp w) .a false false (fun s _ _ => .done s [] none)

/-- Slot `n` of a word of instruction memory: none for a NOP (R273, R274). -/
def slotAt (k : CoreId) (w : BitVec 1024) (n : Nat) : Option Slot :=
  let b := slotBits w n
  if b = 0 then none
  else match (decodeSlot k n b).bind slotOf with
    | some q => some q
    | none => some (badSlot k n b)

/-- The slots of a word of instruction memory. -/
def slotsOfWord (k : CoreId) (w : BitVec 1024) : List Slot := (List.range 8).filterMap (slotAt k w)

/-- The wide instruction at the PC of a core, as its sequencer issues it from instruction memory; nothing while the core issues nothing, or while
slots have been presented from outside. -/
def issueAt (k : CoreId) (s : State) : State :=
  let n := k.key
  match s.issuer n with
  | none => s
  | some x =>
    if s.coreState n = .fused ∨ (s.core n).word ≠ [] then s
    else runWord n x (slotsOfWord k (AMap.get 0 (s.core n).pc.toNat (s.core n).imem)) s

end Sys2Proof.Machine
end

