-- ==== Sys2Proof/Machine/Dispatch.lean ====
section
/-! DEFINITION. The effect of a command on everything but the queue: one arm per constructor, each one direct call. -/

namespace Sys2Proof.Machine

/-- The outcome of one command (10_programming_model, 95_what_each_step_holds). -/
def exec (i : Instr) (s : State) : Host.Outcome State Fault Refusal :=
  match i with
  | .add c => Sys2Proof.Machine.execAdd c s
  | .sub c => Sys2Proof.Machine.execSub c s
  | .and c => Sys2Proof.Machine.execAnd c s
  | .or c => Sys2Proof.Machine.execOr c s
  | .xor c => Sys2Proof.Machine.execXor c s
  | .shl c => Sys2Proof.Machine.execShl c s
  | .shr c => Sys2Proof.Machine.execShr c s
  | .sar c => Sys2Proof.Machine.execSar c s
  | .mul c => Sys2Proof.Machine.execMul c s
  | .mulhu c => Sys2Proof.Machine.execMulhu c s
  | .min c => Sys2Proof.Machine.execMin c s
  | .max c => Sys2Proof.Machine.execMax c s
  | .addi c => Sys2Proof.Machine.execAddi c s
  | .andi c => Sys2Proof.Machine.execAndi c s
  | .ori c => Sys2Proof.Machine.execOri c s
  | .xori c => Sys2Proof.Machine.execXori c s
  | .shli c => Sys2Proof.Machine.execShli c s
  | .shri c => Sys2Proof.Machine.execShri c s
  | .movi c => Sys2Proof.Machine.execMovi c s
  | .cmpEq c => Sys2Proof.Machine.execCmpEq c s
  | .cmpNe c => Sys2Proof.Machine.execCmpNe c s
  | .cmpLt c => Sys2Proof.Machine.execCmpLt c s
  | .cmpLtu c => Sys2Proof.Machine.execCmpLtu c s
  | .cmpiEq c => Sys2Proof.Machine.execCmpiEq c s
  | .cmpiLt c => Sys2Proof.Machine.execCmpiLt c s
  | .pand c => Sys2Proof.Machine.execPand c s
  | .por c => Sys2Proof.Machine.execPor c s
  | .pxor c => Sys2Proof.Machine.execPxor c s
  | .pnot c => Sys2Proof.Machine.execPnot c s
  | .pset c => Sys2Proof.Machine.execPset c s
  | .jmp c => Sys2Proof.Machine.execJmp c s
  | .jr c => Sys2Proof.Machine.execJr c s
  | .call c => Sys2Proof.Machine.execCall c s
  | .loop c => Sys2Proof.Machine.execLoop c s
  | .crd c => Sys2Proof.Machine.execCrd c s
  | .cwr c => Sys2Proof.Machine.execCwr c s
  | .clvl c => Sys2Proof.Machine.execClvl c s
  | .tld c => Sys2Proof.Machine.execTld c s
  | .tst c => Sys2Proof.Machine.execTst c s
  | .taddr c => Sys2Proof.Machine.execTaddr c s
  | .torg c => Sys2Proof.Machine.execTorg c s
  | .lds c => Sys2Proof.Machine.execLds c s
  | .sts c => Sys2Proof.Machine.execSts c s
  | .cspec c => Sys2Proof.Machine.execCspec c s
  | .ccommit c => Sys2Proof.Machine.execCcommit c s
  | .ccommitStep c => Sys2Proof.Machine.execCcommitStep c s
  | .halt c => Sys2Proof.Machine.execHalt c s
  | .vadd v => Sys2Proof.Machine.execVadd v s
  | .vsub v => Sys2Proof.Machine.execVsub v s
  | .vmul v => Sys2Proof.Machine.execVmul v s
  | .vfma v => Sys2Proof.Machine.execVfma v s
  | .vmax v => Sys2Proof.Machine.execVmax v s
  | .vmin v => Sys2Proof.Machine.execVmin v s
  | .vcmp v => Sys2Proof.Machine.execVcmp v s
  | .vsel v => Sys2Proof.Machine.execVsel v s
  | .viadd v => Sys2Proof.Machine.execViadd v s
  | .visub v => Sys2Proof.Machine.execVisub v s
  | .vimul v => Sys2Proof.Machine.execVimul v s
  | .vand v => Sys2Proof.Machine.execVand v s
  | .vor v => Sys2Proof.Machine.execVor v s
  | .vxor v => Sys2Proof.Machine.execVxor v s
  | .vshl v => Sys2Proof.Machine.execVshl v s
  | .vshr v => Sys2Proof.Machine.execVshr v s
  | .vsar v => Sys2Proof.Machine.execVsar v s
  | .vicmp v => Sys2Proof.Machine.execVicmp v s
  | .viota v => Sys2Proof.Machine.execViota v s
  | .vbcast v => Sys2Proof.Machine.execVbcast v s
  | .vcvt v => Sys2Proof.Machine.execVcvt v s
  | .vld v => Sys2Proof.Machine.execVld v s
  | .vst v => Sys2Proof.Machine.execVst v s
  | .vext v => Sys2Proof.Machine.execVext v s
  | .vins v => Sys2Proof.Machine.execVins v s
  | .vexp v => Sys2Proof.Machine.execVexp v s
  | .vexp2 v => Sys2Proof.Machine.execVexp2 v s
  | .vlog v => Sys2Proof.Machine.execVlog v s
  | .vlog2 v => Sys2Proof.Machine.execVlog2 v s
  | .vrcp v => Sys2Proof.Machine.execVrcp v s
  | .vrsq v => Sys2Proof.Machine.execVrsq v s
  | .vsqrt v => Sys2Proof.Machine.execVsqrt v s
  | .vdiv v => Sys2Proof.Machine.execVdiv v s
  | .vcos v => Sys2Proof.Machine.execVcos v s
  | .vsin v => Sys2Proof.Machine.execVsin v s
  | .vact v => Sys2Proof.Machine.execVact v s
  | .vactD v => Sys2Proof.Machine.execVactD v s
  | .vactDi v => Sys2Proof.Machine.execVactDi v s
  | .vred v => Sys2Proof.Machine.execVred v s
  | .vrng v => Sys2Proof.Machine.execVrng v s
  | .vosmI v => Sys2Proof.Machine.execVosmI v s
  | .vosmM v => Sys2Proof.Machine.execVosmM v s
  | .vosmL v => Sys2Proof.Machine.execVosmL v s
  | .vosmF v => Sys2Proof.Machine.execVosmF v s
  | .vosmS v => Sys2Proof.Machine.execVosmS v s
  | .wld w => Sys2Proof.Machine.execWld w s
  | .wmm w => Sys2Proof.Machine.execWmm w s
  | .wck w => Sys2Proof.Machine.execWck w s
  | .wfl w => Sys2Proof.Machine.execWfl w s
  | .mmm m => Sys2Proof.Machine.execMmm m s
  | .mdx m => Sys2Proof.Machine.execMdx m s
  | .mdw m => Sys2Proof.Machine.execMdw m s
  | .mfl m => Sys2Proof.Machine.execMfl m s
  | .mvw m => Sys2Proof.Machine.execMvw m s
  | .tqz t => Sys2Proof.Machine.execTqz t s
  | .tdq t => Sys2Proof.Machine.execTdq t s
  | .trot t => Sys2Proof.Machine.execTrot t s
  | .tcv t => Sys2Proof.Machine.execTcv t s
  | .tstatAmax t => Sys2Proof.Machine.execTstatAmax t s
  | .tstatChk t => Sys2Proof.Machine.execTstatChk t s
  | .tstatFin t => Sys2Proof.Machine.execTstatFin t s
  | .dld d => Sys2Proof.Machine.execDld d s
  | .dst d => Sys2Proof.Machine.execDst d s
  | .dstCollector d => Sys2Proof.Machine.execDstCollector d s
  | .dstWalkRequest d => Sys2Proof.Machine.execDstWalkRequest d s
  | .dstRelease d => Sys2Proof.Machine.execDstRelease d s
  | .dstEdit d => Sys2Proof.Machine.execDstEdit d s
  | .dcp d => Sys2Proof.Machine.execDcp d s
  | .dpf d => Sys2Proof.Machine.execDpf d s
  | .dldWait d => Sys2Proof.Machine.execDldWait d s
  | .lat l => Sys2Proof.Machine.execLat l s
  | .latTimeReached k => Sys2Proof.Machine.execLatTimeReached k s
  | .lwait l => Sys2Proof.Machine.execLwait l s
  | .lwaitTimeout k => Sys2Proof.Machine.execLwaitTimeout k s
  | .lsend l => Sys2Proof.Machine.execLsend l s
  | .lrecv l => Sys2Proof.Machine.execLrecv l s
  | .lcoll l => Sys2Proof.Machine.execLcoll l s
  | .lfence l => Sys2Proof.Machine.execLfence l s
  | .lfenceTimeout k => Sys2Proof.Machine.execLfenceTimeout k s
  | .epochIssueLimit k => Sys2Proof.Machine.execEpochIssueLimit k s
  | .vatWrite k j => Sys2Proof.Machine.execVatWrite k j s
  | .vatWriteAck k => Sys2Proof.Machine.execVatWriteAck k s
  | .collectorPartial k j => Sys2Proof.Machine.execCollectorPartial k j s
  | .finDeltasReceive k => Sys2Proof.Machine.execFinDeltasReceive k s
  | .shadowDigestReceive k => Sys2Proof.Machine.execShadowDigestReceive k s
  | .verdict slot run => Sys2Proof.Machine.execVerdict slot run s
  | .redyeVerdict slot lrec => Sys2Proof.Machine.execRedyeVerdict slot lrec s
  | .weldBudgetTrap w => Sys2Proof.Machine.execWeldBudgetTrap w s
  | .epochCommit k => Sys2Proof.Machine.execEpochCommit k s
  | .epochAbort slot run => Sys2Proof.Machine.execEpochAbort slot run s
  | .stepCommit slot => Sys2Proof.Machine.execStepCommit slot s
  | .drainComplete slot => Sys2Proof.Machine.execDrainComplete slot s
  | .saveBoundaryReached slot => Sys2Proof.Machine.execSaveBoundaryReached slot s
  | .weldAdd a => Sys2Proof.Machine.execWeldAdd a s
  | .weldSub a => Sys2Proof.Machine.execWeldSub a s
  | .weldAnd a => Sys2Proof.Machine.execWeldAnd a s
  | .weldOr a => Sys2Proof.Machine.execWeldOr a s
  | .weldXor a => Sys2Proof.Machine.execWeldXor a s
  | .weldShl a => Sys2Proof.Machine.execWeldShl a s
  | .weldShr a => Sys2Proof.Machine.execWeldShr a s
  | .weldSar a => Sys2Proof.Machine.execWeldSar a s
  | .weldMul a => Sys2Proof.Machine.execWeldMul a s
  | .weldMulhu a => Sys2Proof.Machine.execWeldMulhu a s
  | .weldSlt a => Sys2Proof.Machine.execWeldSlt a s
  | .weldSltu a => Sys2Proof.Machine.execWeldSltu a s
  | .weldMin a => Sys2Proof.Machine.execWeldMin a s
  | .weldMax a => Sys2Proof.Machine.execWeldMax a s
  | .weldAddi a => Sys2Proof.Machine.execWeldAddi a s
  | .weldAndi a => Sys2Proof.Machine.execWeldAndi a s
  | .weldOri a => Sys2Proof.Machine.execWeldOri a s
  | .weldXori a => Sys2Proof.Machine.execWeldXori a s
  | .weldShli a => Sys2Proof.Machine.execWeldShli a s
  | .weldShri a => Sys2Proof.Machine.execWeldShri a s
  | .weldLui a => Sys2Proof.Machine.execWeldLui a s
  | .weldLd a => Sys2Proof.Machine.execWeldLd a s
  | .weldSt a => Sys2Proof.Machine.execWeldSt a s
  | .weldLdx a => Sys2Proof.Machine.execWeldLdx a s
  | .weldStx a => Sys2Proof.Machine.execWeldStx a s
  | .weldBeq a => Sys2Proof.Machine.execWeldBeq a s
  | .weldBne a => Sys2Proof.Machine.execWeldBne a s
  | .weldBlt a => Sys2Proof.Machine.execWeldBlt a s
  | .weldBge a => Sys2Proof.Machine.execWeldBge a s
  | .weldBltu a => Sys2Proof.Machine.execWeldBltu a s
  | .weldJal a => Sys2Proof.Machine.execWeldJal a s
  | .weldJr a => Sys2Proof.Machine.execWeldJr a s
  | .weldRet a => Sys2Proof.Machine.execWeldRet a s
  | .weldTrap a => Sys2Proof.Machine.execWeldTrap a s
  | .stageSend link => Sys2Proof.Machine.execStageSend link s
  | .stageAddSend link => Sys2Proof.Machine.execStageAddSend link s
  | .stageAddWrite link => Sys2Proof.Machine.execStageAddWrite link s
  | .stageCopySend link => Sys2Proof.Machine.execStageCopySend link s
  | .stageCopy link => Sys2Proof.Machine.execStageCopy link s
  | .stageWait link => Sys2Proof.Machine.execStageWait link s
  | .collChunkReceive link h g => Sys2Proof.Machine.execCollChunkReceive link h g s
  | .walkRequest e => Sys2Proof.Machine.execWalkRequest e s
  | .pinPhase e j => Sys2Proof.Machine.execPinPhase e j s
  | .pageDelivered e j => Sys2Proof.Machine.execPageDelivered e j s
  | .slotRelease e j => Sys2Proof.Machine.execSlotRelease e j s
  | .stageCopyDone e j => Sys2Proof.Machine.execStageCopyDone e j s
  | .editBatch e => Sys2Proof.Machine.execEditBatch e s
  | .spillPage e => Sys2Proof.Machine.execSpillPage e s
  | .spillCopyDone e => Sys2Proof.Machine.execSpillCopyDone e s
  | .ageingSweep e => Sys2Proof.Machine.execAgeingSweep e s
  | .indEnable e => Sys2Proof.Machine.execIndEnable e s
  | .indEditSubmit e v => Sys2Proof.Machine.execIndEditSubmit e v s
  | .bind c => Sys2Proof.Machine.execBind c s
  | .unbind c => Sys2Proof.Machine.execUnbind c s
  | .load c => Sys2Proof.Machine.execLoad c s
  | .submit c => Sys2Proof.Machine.execSubmit c s
  | .admissionDecision slot => Sys2Proof.Machine.execAdmissionDecision slot s
  | .cancel c => Sys2Proof.Machine.execCancel c s
  | .save c => Sys2Proof.Machine.execSave c s
  | .restore c => Sys2Proof.Machine.execRestore c s
  | .clear c => Sys2Proof.Machine.execClear c s
  | .restoreCkpt c => Sys2Proof.Machine.execRestoreCkpt c s
  | .restorePeer c => Sys2Proof.Machine.execRestorePeer c s
  | .prewake slot => Sys2Proof.Machine.execPrewake slot s
  | .programLaunch slot => Sys2Proof.Machine.execProgramLaunch slot s
  | .promiseOverrun slot => Sys2Proof.Machine.execPromiseOverrun slot s
  | .unitWake u => Sys2Proof.Machine.execUnitWake u s
  | .unitSleep u => Sys2Proof.Machine.execUnitSleep u s
  | .testRequest k cause => Sys2Proof.Machine.execTestRequest k cause s
  | .calibration c => Sys2Proof.Machine.execCalibration c s
  | .syncSend => Sys2Proof.Machine.execSyncSend s
  | .sync link f => Sys2Proof.Machine.execSync link f s
  | .delayMeasure => Sys2Proof.Machine.execDelayMeasure s
  | .delayReq link f crcOk => Sys2Proof.Machine.execDelayReq link f crcOk s
  | .delayResp link f => Sys2Proof.Machine.execDelayResp link f s
  | .syncTimeout => Sys2Proof.Machine.execSyncTimeout s
  | .holdoverTimeout => Sys2Proof.Machine.execHoldoverTimeout s
  | .ppsEdge => Sys2Proof.Machine.execPpsEdge s
  | .ppsLost => Sys2Proof.Machine.execPpsLost s
  | .timSetWrite v => Sys2Proof.Machine.execTimSetWrite v s
  | .latchedPairRead r => Sys2Proof.Machine.execLatchedPairRead r s
  | .scrub stack unit f => Sys2Proof.Machine.execScrub stack unit f s
  | .rowRepairDone stack row => Sys2Proof.Machine.execRowRepairDone stack row s
  | .stackFrame stack => Sys2Proof.Machine.execStackFrame stack s
  | .vwrArm part j v => Sys2Proof.Machine.execVwrArm part j v s
  | .vwrDisarm part j v => Sys2Proof.Machine.execVwrDisarm part j v s
  | .vwrDrainComplete part j => Sys2Proof.Machine.execVwrDrainComplete part j s
  | .hostRead w addr n => Sys2Proof.Machine.execHostRead w addr n s
  | .hostWrite w addr bytes poisoned => Sys2Proof.Machine.execHostWrite w addr bytes poisoned s
  | .stackIdleRefresh stack => Sys2Proof.Machine.execStackIdleRefresh stack s
  | .t3Completion tag c => Sys2Proof.Machine.execT3Completion tag c s
  | .t3CompletionTimeout tag => Sys2Proof.Machine.execT3CompletionTimeout tag s
  | .putReq link h g => Sys2Proof.Machine.execPutReq link h g s
  | .putGo link h g => Sys2Proof.Machine.execPutGo link h g s
  | .putData link h g => Sys2Proof.Machine.execPutData link h g s
  | .putDone link h g => Sys2Proof.Machine.execPutDone link h g s
  | .messageForward link h g => Sys2Proof.Machine.execMessageForward link h g s
  | .forwardStallTimeout link tc => Sys2Proof.Machine.execForwardStallTimeout link tc s
  | .nak link h => Sys2Proof.Machine.execNak link h s
  | .idle link h => Sys2Proof.Machine.execIdle link h s
  | .replayTimeout link => Sys2Proof.Machine.execReplayTimeout link s
  | .linkEnable link => Sys2Proof.Machine.execLinkEnable link s
  | .linkRetrain link cause => Sys2Proof.Machine.execLinkRetrain link cause s
  | .trainingComplete link r => Sys2Proof.Machine.execTrainingComplete link r s
  | .lnkCrdAllocWrite link v => Sys2Proof.Machine.execLnkCrdAllocWrite link v s
  | .testPassComplete k r => Sys2Proof.Machine.execTestPassComplete k r s
  | .stepReplay slot => Sys2Proof.Machine.execStepReplay slot s
  | .refereeCompare slot => Sys2Proof.Machine.execRefereeCompare slot s
  | .partitionReset part cause => Sys2Proof.Machine.execPartitionReset part cause s
  | .partitionResetDone part => Sys2Proof.Machine.execPartitionResetDone part s
  | .deviceReset cause => Sys2Proof.Machine.execDeviceReset cause s
  | .commitDigestReceive slot member step digest => Sys2Proof.Machine.execCommitDigestReceive slot member step digest s
  | .checkGroupTimeout slot => Sys2Proof.Machine.execCheckGroupTimeout slot s
  | .shardListReceive slot member digests => Sys2Proof.Machine.execShardListReceive slot member digests s
  | .saveTimer slot => Sys2Proof.Machine.execSaveTimer slot s
  | .saveStart slot => Sys2Proof.Machine.execSaveStart slot s
  | .pieceCaptured => Sys2Proof.Machine.execPieceCaptured s
  | .saveDone => Sys2Proof.Machine.execSaveDone s
  | .saveStreamReceive src slot region offset data last => Sys2Proof.Machine.execSaveStreamReceive src slot region offset data last s
  | .sepSaveRequest v => Sys2Proof.Machine.execSepSaveRequest v s
  | .sepPeerSaveRequest v => Sys2Proof.Machine.execSepPeerSaveRequest v s
  | .sepAbandon v => Sys2Proof.Machine.execSepAbandon v s
  | .ochreSample readings => Sys2Proof.Machine.execOchreSample readings s
  | .lifeFit => Sys2Proof.Machine.execLifeFit s
  | .sqDoorbell q v => Sys2Proof.Machine.execSqDoorbell q v s
  | .cqDoorbell q v => Sys2Proof.Machine.execCqDoorbell q v s
  | .qCfgWrite q v => Sys2Proof.Machine.execQCfgWrite q v s
  | .t3WindowWrite off v => Sys2Proof.Machine.execT3WindowWrite off v s
  | .dbgNew => Sys2Proof.Machine.execDbgNew s
  | .dbgSubmit => Sys2Proof.Machine.execDbgSubmit s
  | .setEndpointId eid => Sys2Proof.Machine.execSetEndpointId eid s
  | .pldmMonitoringRequest body => Sys2Proof.Machine.execPldmMonitoringRequest body s
  | .requestUpdate body => Sys2Proof.Machine.execRequestUpdate body s
  | .verifyComplete body => Sys2Proof.Machine.execVerifyComplete body s
  | .activateFirmware body => Sys2Proof.Machine.execActivateFirmware body s
  | .getVersion body => Sys2Proof.Machine.execGetVersion body s
  | .getCapabilities body => Sys2Proof.Machine.execGetCapabilities body s
  | .negotiateAlgorithms body => Sys2Proof.Machine.execNegotiateAlgorithms body s
  | .getDigests body => Sys2Proof.Machine.execGetDigests body s
  | .getCertificate body => Sys2Proof.Machine.execGetCertificate body s
  | .challenge body => Sys2Proof.Machine.execChallenge body s
  | .getMeasurements body => Sys2Proof.Machine.execGetMeasurements body s
  | .boot kat => Sys2Proof.Machine.execBoot kat s
  | .bringUpReady => Sys2Proof.Machine.execBringUpReady s
  | .powerOnReset => Sys2Proof.Machine.execPowerOnReset s
  | .devRstN => Sys2Proof.Machine.execDevRstN s
  | .warm => Sys2Proof.Machine.execWarm s
  | .partRst parts => Sys2Proof.Machine.execPartRst parts s
  | .prepareOff => Sys2Proof.Machine.execPrepareOff s
  | .offReady => Sys2Proof.Machine.execOffReady s
  | .hostLinkReset flr => Sys2Proof.Machine.execHostLinkReset flr s
  | .d3hotEntry => Sys2Proof.Machine.execD3hotEntry s
  | .umbPartPwrWrite v => Sys2Proof.Machine.execUmbPartPwrWrite v s
  | .powerInterval mw => Sys2Proof.Machine.execPowerInterval mw s
  | .thermalSample temps => Sys2Proof.Machine.execThermalSample temps s
  | .krmCtxSeedWrite slot check hi v => Sys2Proof.Machine.execKrmCtxSeedWrite slot check hi v s
  | .vwSeedWrite v => Sys2Proof.Machine.execVwSeedWrite v s
  | .vwSeedCopyDone => Sys2Proof.Machine.execVwSeedCopyDone s
  | .wldLoad w => Sys2Proof.Machine.execWldLoad w s
  | .wldLoadDone w => Sys2Proof.Machine.execWldLoadDone w s
  | .clrData w => Sys2Proof.Machine.execClrData w s
  | .wldProgDataWrite w v => Sys2Proof.Machine.execWldProgDataWrite w v s
  | .woaAccDataRead k => Sys2Proof.Machine.execWoaAccDataRead k s
  | .madAccDataRead k => Sys2Proof.Machine.execMadAccDataRead k s
  | .lockWrite off v => Sys2Proof.Machine.execLockWrite off v s
  | .evtMaskWrite v => Sys2Proof.Machine.execEvtMaskWrite v s
  | .registerWrite off d => Sys2Proof.Machine.execRegisterWrite off d s
  | .flitFailed link cause seq => Sys2Proof.Machine.execFlitFailed link cause seq s
  | .twinDigestReceive slot ch digests => Sys2Proof.Machine.execTwinDigestReceive slot ch digests s
  | .droopEvent part inst => Sys2Proof.Machine.execDroopEvent part inst s
  | .cxlSnoop addr => Sys2Proof.Machine.execCxlSnoop addr s
  | .partitionWakeDone part => Sys2Proof.Machine.execPartitionWakeDone part s
  | .restorePieceDone slot => Sys2Proof.Machine.execRestorePieceDone slot s
  | .dataMovementComplete k j => Sys2Proof.Machine.execDataMovementComplete k j s
  | .perstNRelease => Sys2Proof.Machine.execPerstNRelease s

end Sys2Proof.Machine
end

