-- ==== Sys2Proof/Machine/Upset.lean ====
section
/-! DEFINITION. What happens of itself: the errors of R380 with their containment, wide instructions that a sequencer issues from instruction memory,
and the end of array instructions in flight (R78, R80, R81, R96, R104, R122, R330, R333, R335, R380, R381; log entry 130: DESIGN CHOICE). -/

namespace Sys2Proof.Machine

/-- Poison created in a core's structure, reported with a SOURCE (R380, R406). -/
def State.poisonMade (s : State) (n source addr : Nat) : State :=
  (s.bump .errCnt 0 0 1).errLog { scope := 1, source := source, part := n / 100, inst := n % 100, addr := addr }

/-- A word of accumulator storage poisoned. -/
def accBad (m : Acc) (w : Nat) : Acc := AMap.put (0, 0) w ((AMap.get (0, 0) w m).1, 3) m

/-- A 64-byte unit of a core's operand store or Vat poisoned. -/
def Core.unitBad (c : Core) (u : Nat) : Core := { c with loc := c.loc.setPo u true }

/-- The core of a number. -/
def coreOf (n : Nat) : CoreId := { part := Fin.ofNat 4 (n / 100), phys := Fin.ofNat 100 n }

/-- An error in a core's registers, instruction memory, arrays, Vat or operand store (R78, R81, R96, R104, R330, R380). -/
def State.coreUpset (s : State) (n : Nat) : Happening → State
  | .woaAcc _ a w =>
    let s1 := s.setCore n { s.core n with woaAcc := accBad (s.core n).woaAcc (8192 * (a % 2) + w % 8192) }
    (s1.orReg .woaErr n 0 (BitVec.ofNat 32 (2 ^ (a % 2)))).poisonMade n 0x01 0
  | .woaLatch _ a wt i =>
    let s1 := s.setCore n { s.core n with badLatch := (s.core n).badLatch ++ [(a % 2, wt, i % 64)] }
    (s1.orReg .woaErr n 0 (BitVec.ofNat 32 (4 * 2 ^ (a % 2)))).poisonMade n 0x01 0
  | .madAcc _ a w =>
    let s1 := s.setCore n { s.core n with madAcc := accBad (s.core n).madAcc (4096 * (a % 4) + w % 4096) }
    (s1.orReg .madErr n 0 (BitVec.ofNat 32 (2 ^ (a % 4)))).poisonMade n 0x02 0
  | .madFeed _ a =>
    let s1 := s.setCore n { s.core n with badFeed := (s.core n).badFeed ++ [a % 4] }
    (s1.orReg .madErr n 0 (BitVec.ofNat 32 (16 * 2 ^ (a % 4)))).poisonMade n 0x02 0
  | .vatCe _ => s.orReg .vatErr n 0 1
  | .vatUe _ u => ((s.setCore n ((s.core n).unitBad (65536 + u % 32768))).bump .errCnt 0 0 1).vatErr n 1 1 (64 * (u % 32768))
  | .operandUe _ u => (s.setCore n ((s.core n).unitBad (u % 65536))).poisonMade n 0x0B (64 * (u % 65536))
  | .sReg _ r => (s.setCore n ((s.core n).putReg (.s (r % 64) ((s.core n).sreg (r % 64)).1 true))).poisonMade n 0x0B 0
  | .pReg _ r => (s.setCore n ((s.core n).putReg (.p (r % 16) ((s.core n).preg (r % 16)).1 true))).poisonMade n 0x0B 0
  | .tReg _ r => (s.setCore n ((s.core n).putReg (.t (r % 32) ((s.core n).treg (r % 32)).1 true))).poisonMade n 0x0B 0
  | .vLane _ r l => (s.setCore n ((s.core n).putReg (.v (r % 64) ((List.range 64).map (fun k =>
      (((s.core n).lane (r % 64) k).1, ((s.core n).lane (r % 64) k).2 || k == l % 64)))))).poisonMade n 0x0B 0
  | .imem _ w => s.setCore n { s.core n with badWords := (s.core n).badWords ++ [w % 4096] }
  | _ => s

/-- What happens of itself. -/
def State.happen (s : State) : Happening → State
  | .issue c => issueAt (coreOf c) s
  | .weld k => s.weldIssue (k % 500)
  | .landed c => s.setCore (coreOf c).key { s.core (coreOf c).key with flight := [] }
  | .storeUe p u =>
    let a := storeAddr (p % 4) (64 * (u % 3145728))
    ((s.setMem (s.mem.setPo (a / 64) true)).bump .errCnt 0 0 1).errLog { scope := 1, source := 0x0C, part := p % 4, addr := a }
  | .symbol p u i v => s.setMem (s.mem.upset ((p % 4) * 0x140000000 + u % 0x140000000) (i % 72) v)
  | .retireUe e i =>
    let g := s.ind (e % 48)
    s.setInd (e % 48) { g with retire := g.retire.zipIdx.map (fun r => if r.2 = i then { r.1 with po := true } else r.1) }
  | .symbols n k => (s.fecCorrected (n % 48) k)
  | .regulator p bad => s.setPart (p % 4) { s.part (p % 4) with regBad := bad }
  | .onDie k => s.bump .memCnt (k % 20) 3 1
  | .control p src i =>
    if s.partResets then s.partitionReset (p % 4) { source := BitVec.ofNat 8 src, inst := BitVec.ofNat 16 i } else s
  | .device src i => s.deviceReset { source := BitVec.ofNat 8 src, inst := BitVec.ofNat 16 i }
  | h => s.coreUpset (coreOf (coreNo h)).key h
where
  /-- the core that an error names -/
  coreNo : Happening → Nat
    | .woaAcc c _ _ | .woaLatch c _ _ _ | .madAcc c _ _ | .madFeed c _ | .vatCe c | .vatUe c _ | .operandUe c _ | .sReg c _ | .pReg c _
    | .vLane c _ _ | .tReg c _ | .imem c _ => c
    | _ => 0

end Sys2Proof.Machine
end

