-- ==== Sys2Proof/Machine/Tick.lean ====
section
/-! DEFINITION. A tick, the step on an empty queue (R302, R303, R307; log entries 2 and 130: DESIGN CHOICE). -/

namespace Sys2Proof.Machine

/-- Device time advances by 1 ns at the corrected rate, or by 40 ns while every fabric clock stands still and the Umber domain keeps time (R302, R303,
R307). -/
def State.advance (s : State) : State :=
  if s.clocksStopped then s.setTim { s.tim with now := s.tim.now + 40 }
  else
    let t := (s.tim.frac + 2 ^ 32 + s.tim.rate).toNat
    s.setTim { s.tim with now := s.tim.now + BitVec.ofNat 64 (t / 2 ^ 32), frac := t % 2 ^ 32 }

/-- One tick: device time advances, calibrations whose interval has come are served (R329), and what happens of itself happens; nothing while power-on reset is held. -/
def tick (s : State) : State :=
  if s.mgmt.powerOn then s
  else match Config.happens s.free with
    | none => s.advance.serveCalib.draw
    | some h => s.advance.serveCalib.draw.happen h

end Sys2Proof.Machine
end

