-- ==== Sys2Proof/Safety.lean ====
section
/-! DEFINITION. What counts as a safe step: one that answers a next state. A command stops the block only where it is a slot of a core
that the part does not have. -/

namespace Sys2Proof

/-- The issue header of a command that is a slot of a wide instruction. -/
def Instr.issueOf : Instr → Option Issue
  | .add x => some x.i
  | .sub x => some x.i
  | .and x => some x.i
  | .or x => some x.i
  | .xor x => some x.i
  | .shl x => some x.i
  | .shr x => some x.i
  | .sar x => some x.i
  | .mul x => some x.i
  | .mulhu x => some x.i
  | .min x => some x.i
  | .max x => some x.i
  | .addi x => some x.i
  | .andi x => some x.i
  | .ori x => some x.i
  | .xori x => some x.i
  | .shli x => some x.i
  | .shri x => some x.i
  | .movi x => some x.i
  | .cmpEq x => some x.i
  | .cmpNe x => some x.i
  | .cmpLt x => some x.i
  | .cmpLtu x => some x.i
  | .cmpiEq x => some x.i
  | .cmpiLt x => some x.i
  | .pand x => some x.i
  | .por x => some x.i
  | .pxor x => some x.i
  | .pnot x => some x.i
  | .pset x => some x.i
  | .jmp x => some x.i
  | .jr x => some x.i
  | .call x => some x.i
  | .loop x => some x.i
  | .crd x => some x.i
  | .cwr x => some x.i
  | .clvl x => some x.i
  | .tld x => some x.i
  | .tst x => some x.i
  | .taddr x => some x.i
  | .torg x => some x.i
  | .lds x => some x.i
  | .sts x => some x.i
  | .cspec x => some x.i
  | .ccommit x => some x.i
  | .ccommitStep x => some x.i
  | .halt x => some x.i
  | .vadd x => some x.i
  | .vsub x => some x.i
  | .vmul x => some x.i
  | .vfma x => some x.i
  | .vmax x => some x.i
  | .vmin x => some x.i
  | .vcmp x => some x.i
  | .vsel x => some x.i
  | .viadd x => some x.i
  | .visub x => some x.i
  | .vimul x => some x.i
  | .vand x => some x.i
  | .vor x => some x.i
  | .vxor x => some x.i
  | .vshl x => some x.i
  | .vshr x => some x.i
  | .vsar x => some x.i
  | .vicmp x => some x.i
  | .viota x => some x.i
  | .vbcast x => some x.i
  | .vcvt x => some x.i
  | .vld x => some x.i
  | .vst x => some x.i
  | .vext x => some x.i
  | .vins x => some x.i
  | .vexp x => some x.i
  | .vexp2 x => some x.i
  | .vlog x => some x.i
  | .vlog2 x => some x.i
  | .vrcp x => some x.i
  | .vrsq x => some x.i
  | .vsqrt x => some x.i
  | .vdiv x => some x.i
  | .vcos x => some x.i
  | .vsin x => some x.i
  | .vact x => some x.i
  | .vactD x => some x.i
  | .vactDi x => some x.i
  | .vred x => some x.i
  | .vrng x => some x.i
  | .vosmI x => some x.i
  | .vosmM x => some x.i
  | .vosmL x => some x.i
  | .vosmF x => some x.i
  | .vosmS x => some x.i
  | .wld x => some x.i
  | .wmm x => some x.i
  | .wck x => some x.i
  | .wfl x => some x.i
  | .mmm x => some x.i
  | .mdx x => some x.i
  | .mdw x => some x.i
  | .mfl x => some x.i
  | .mvw x => some x.i
  | .tqz x => some x.i
  | .tdq x => some x.i
  | .trot x => some x.i
  | .tcv x => some x.i
  | .tstatAmax x => some x.i
  | .tstatChk x => some x.i
  | .tstatFin x => some x.i
  | .dld x => some x.i
  | .dst x => some x.i
  | .dstCollector x => some x.i
  | .dstWalkRequest x => some x.i
  | .dstRelease x => some x.i
  | .dstEdit x => some x.i
  | .dcp x => some x.i
  | .dpf x => some x.i
  | .dldWait x => some x.i
  | .lat x => some x.i
  | .latTimeReached _ => none
  | .lwait x => some x.i
  | .lwaitTimeout _ => none
  | .lsend x => some x.i
  | .lrecv x => some x.i
  | .lcoll x => some x.i
  | .lfence x => some x.i
  | .lfenceTimeout _ => none
  | .epochIssueLimit _ => none
  | .vatWrite _ _ => none
  | .vatWriteAck _ => none
  | .collectorPartial _ _ => none
  | .finDeltasReceive _ => none
  | .shadowDigestReceive _ => none
  | .verdict _ _ => none
  | .redyeVerdict _ _ => none
  | .weldBudgetTrap _ => none
  | .epochCommit _ => none
  | .epochAbort _ _ => none
  | .stepCommit _ => none
  | .drainComplete _ => none
  | .saveBoundaryReached _ => none
  | .weldAdd _ => none
  | .weldSub _ => none
  | .weldAnd _ => none
  | .weldOr _ => none
  | .weldXor _ => none
  | .weldShl _ => none
  | .weldShr _ => none
  | .weldSar _ => none
  | .weldMul _ => none
  | .weldMulhu _ => none
  | .weldSlt _ => none
  | .weldSltu _ => none
  | .weldMin _ => none
  | .weldMax _ => none
  | .weldAddi _ => none
  | .weldAndi _ => none
  | .weldOri _ => none
  | .weldXori _ => none
  | .weldShli _ => none
  | .weldShri _ => none
  | .weldLui _ => none
  | .weldLd _ => none
  | .weldSt _ => none
  | .weldLdx _ => none
  | .weldStx _ => none
  | .weldBeq _ => none
  | .weldBne _ => none
  | .weldBlt _ => none
  | .weldBge _ => none
  | .weldBltu _ => none
  | .weldJal _ => none
  | .weldJr _ => none
  | .weldRet _ => none
  | .weldTrap _ => none
  | .stageSend _ => none
  | .stageAddSend _ => none
  | .stageAddWrite _ => none
  | .stageCopySend _ => none
  | .stageCopy _ => none
  | .stageWait _ => none
  | .collChunkReceive _ _ _ => none
  | .walkRequest _ => none
  | .pinPhase _ _ => none
  | .pageDelivered _ _ => none
  | .slotRelease _ _ => none
  | .stageCopyDone _ _ => none
  | .editBatch _ => none
  | .spillPage _ => none
  | .spillCopyDone _ => none
  | .ageingSweep _ => none
  | .indEnable _ => none
  | .indEditSubmit _ _ => none
  | .bind _ => none
  | .unbind _ => none
  | .load _ => none
  | .submit _ => none
  | .admissionDecision _ => none
  | .cancel _ => none
  | .save _ => none
  | .restore _ => none
  | .clear _ => none
  | .restoreCkpt _ => none
  | .restorePeer _ => none
  | .prewake _ => none
  | .programLaunch _ => none
  | .promiseOverrun _ => none
  | .unitWake _ => none
  | .unitSleep _ => none
  | .testRequest _ _ => none
  | .calibration _ => none
  | .syncSend => none
  | .sync _ _ => none
  | .delayMeasure => none
  | .delayReq _ _ _ => none
  | .delayResp _ _ => none
  | .syncTimeout => none
  | .holdoverTimeout => none
  | .ppsEdge => none
  | .ppsLost => none
  | .timSetWrite _ => none
  | .latchedPairRead _ => none
  | .scrub _ _ _ => none
  | .rowRepairDone _ _ => none
  | .stackFrame _ => none
  | .vwrArm _ _ _ => none
  | .vwrDisarm _ _ _ => none
  | .vwrDrainComplete _ _ => none
  | .hostRead _ _ _ => none
  | .hostWrite _ _ _ _ => none
  | .stackIdleRefresh _ => none
  | .t3Completion _ _ => none
  | .t3CompletionTimeout _ => none
  | .putReq _ _ _ => none
  | .putGo _ _ _ => none
  | .putData _ _ _ => none
  | .putDone _ _ _ => none
  | .messageForward _ _ _ => none
  | .forwardStallTimeout _ _ => none
  | .nak _ _ => none
  | .idle _ _ => none
  | .replayTimeout _ => none
  | .linkEnable _ => none
  | .linkRetrain _ _ => none
  | .trainingComplete _ _ => none
  | .lnkCrdAllocWrite _ _ => none
  | .testPassComplete _ _ => none
  | .stepReplay _ => none
  | .refereeCompare _ => none
  | .partitionReset _ _ => none
  | .partitionResetDone _ => none
  | .deviceReset _ => none
  | .commitDigestReceive _ _ _ _ => none
  | .checkGroupTimeout _ => none
  | .shardListReceive _ _ _ => none
  | .saveTimer _ => none
  | .saveStart _ => none
  | .pieceCaptured => none
  | .saveDone => none
  | .saveStreamReceive _ _ _ _ _ _ => none
  | .sepSaveRequest _ => none
  | .sepPeerSaveRequest _ => none
  | .sepAbandon _ => none
  | .ochreSample _ => none
  | .lifeFit => none
  | .sqDoorbell _ _ => none
  | .cqDoorbell _ _ => none
  | .qCfgWrite _ _ => none
  | .t3WindowWrite _ _ => none
  | .dbgNew => none
  | .dbgSubmit => none
  | .setEndpointId _ => none
  | .pldmMonitoringRequest _ => none
  | .requestUpdate _ => none
  | .verifyComplete _ => none
  | .activateFirmware _ => none
  | .getVersion _ => none
  | .getCapabilities _ => none
  | .negotiateAlgorithms _ => none
  | .getDigests _ => none
  | .getCertificate _ => none
  | .challenge _ => none
  | .getMeasurements _ => none
  | .boot _ => none
  | .bringUpReady => none
  | .powerOnReset => none
  | .devRstN => none
  | .warm => none
  | .partRst _ => none
  | .prepareOff => none
  | .offReady => none
  | .hostLinkReset _ => none
  | .d3hotEntry => none
  | .umbPartPwrWrite _ => none
  | .powerInterval _ => none
  | .thermalSample _ => none
  | .krmCtxSeedWrite _ _ _ _ => none
  | .vwSeedWrite _ => none
  | .vwSeedCopyDone => none
  | .wldLoad _ => none
  | .wldLoadDone _ => none
  | .clrData _ => none
  | .wldProgDataWrite _ _ => none
  | .woaAccDataRead _ => none
  | .madAccDataRead _ => none
  | .lockWrite _ _ => none
  | .evtMaskWrite _ => none
  | .registerWrite _ _ => none
  | .flitFailed _ _ _ => none
  | .twinDigestReceive _ _ _ => none
  | .droopEvent _ _ => none
  | .cxlSnoop _ => none
  | .partitionWakeDone _ => none
  | .restorePieceDone _ => none
  | .dataMovementComplete _ _ => none
  | .perstNRelease => none

end Sys2Proof

namespace Sys2Proof.Machine

/-- An outcome that is a next state. -/
def completes (o : Host.Outcome State Fault Refusal) : Bool :=
  match o with
  | .next _ => true
  | .fault _ => false
  | .refused _ => false

/-- The memories of the block stand in their canonical form: equal memories are equal data (log entry 8: DESIGN CHOICE). -/
def State.memWf (s : State) : Bool := s.mem.wf && s.host.wf

/-- A command names no slot of a core that the part does not have (R3, R388). -/
def safe (i : Instr) (s : State) : Bool :=
  match i.issueOf with
  | some h => decide (s.coreState h.k.key ≠ .fused)
  | none => true

end Sys2Proof.Machine
end

