-- ==== Sys2Proof/WellFormed.lean ====
section
/-! DEFINITION. What a command's operands may be beyond their types: the sizes of messages, stamps, addresses and lists that the
manual gives. A command that fails the check is none that a sender can form; `exec` gives it a meaning all the same. -/

namespace Sys2Proof

/-- A time stamp of a time-class flit: 9 bytes (R358). -/
def stamp (t : Nat) : Bool := decide (t < 2 ^ 72)

/-- A peer-copy message: at most 64 DATA flits of 64 bytes, one poison bit for each, an OFFSET of 8 bytes (R357). -/
def PutMsg.ok (g : PutMsg) : Bool :=
  decide (g.data.length ≤ 4096) && decide (g.poison.length = ceilDiv g.data.length 64) && decide (g.offset < 2 ^ 64)

/-- A collective chunk message: at most 64 DATA flits of 32 elements, one poison bit for each (R357, R372). -/
def CollMsg.ok (g : CollMsg) : Bool :=
  decide (g.elems.length ≤ 2048) && decide (g.poison.length = ceilDiv g.elems.length 32) && decide (g.first < 2 ^ 64)

/-- A HEAD as it stands on the wire: one byte for each of HOPS, HPTR and NDATA, 15 ROUTE entries (R357). -/
def RawMsg.ok (g : RawMsg) : Bool :=
  decide (g.hops < 256) && decide (g.hptr < 256) && decide (g.route.length = 15) && decide (g.data.length ≤ 4096 ∧ g.data.length % 64 = 0) &&
  decide (g.poison.length = g.data.length / 64)

/-- A SYNC flit (R358). -/
def SyncFlit.ok (f : SyncFlit) : Bool := stamp f.tTx && stamp f.tRx

/-- A DELAY_RESP flit (R358). -/
def DelayResp.ok (f : DelayResp) : Bool := stamp f.t1 && stamp f.t2 && stamp f.t3 && stamp f.t4

/-- A tier-3 reply: at most 4,096 bytes (17_host_boot_management, "requests"). -/
def T3Reply.ok : T3Reply → Bool
  | .data b _ => decide (b.length ≤ 4096)
  | .written => true
  | .error => true

/-- A host access: 1 to `m` bytes at an address of 64 bits. -/
def hostRange (a n m : Nat) : Bool := decide (a < 2 ^ 64) && decide (1 ≤ n) && decide (n ≤ m)

/-- The offset of a register in BAR0, which is 256 MiB in size (R482, R484). -/
def regOffset (o : Nat) : Bool := decide (o < 2 ^ 28) && decide (o % 4 = 0)

/-- A calibration: a stack has 64 pseudo-channels (R340). -/
def Calibration.ok : Calibration → Bool
  | .link _ => true
  | .stack _ _ r => r.all (fun p => decide (p < 64))

/-- The operands of a command are ones that a sender can form. -/
def Instr.wf : Instr → Bool
  | .add _ => true
  | .sub _ => true
  | .and _ => true
  | .or _ => true
  | .xor _ => true
  | .shl _ => true
  | .shr _ => true
  | .sar _ => true
  | .mul _ => true
  | .mulhu _ => true
  | .min _ => true
  | .max _ => true
  | .addi _ => true
  | .andi _ => true
  | .ori _ => true
  | .xori _ => true
  | .shli _ => true
  | .shri _ => true
  | .movi _ => true
  | .cmpEq _ => true
  | .cmpNe _ => true
  | .cmpLt _ => true
  | .cmpLtu _ => true
  | .cmpiEq _ => true
  | .cmpiLt _ => true
  | .pand _ => true
  | .por _ => true
  | .pxor _ => true
  | .pnot _ => true
  | .pset _ => true
  | .jmp _ => true
  | .jr _ => true
  | .call _ => true
  | .loop _ => true
  | .crd _ => true
  | .cwr _ => true
  | .clvl _ => true
  | .tld _ => true
  | .tst _ => true
  | .taddr _ => true
  | .torg _ => true
  | .lds _ => true
  | .sts _ => true
  | .cspec _ => true
  | .ccommit _ => true
  | .ccommitStep _ => true
  | .halt _ => true
  | .vadd _ => true
  | .vsub _ => true
  | .vmul _ => true
  | .vfma _ => true
  | .vmax _ => true
  | .vmin _ => true
  | .vcmp _ => true
  | .vsel _ => true
  | .viadd _ => true
  | .visub _ => true
  | .vimul _ => true
  | .vand _ => true
  | .vor _ => true
  | .vxor _ => true
  | .vshl _ => true
  | .vshr _ => true
  | .vsar _ => true
  | .vicmp _ => true
  | .viota _ => true
  | .vbcast _ => true
  | .vcvt _ => true
  | .vld _ => true
  | .vst _ => true
  | .vext _ => true
  | .vins _ => true
  | .vexp _ => true
  | .vexp2 _ => true
  | .vlog _ => true
  | .vlog2 _ => true
  | .vrcp _ => true
  | .vrsq _ => true
  | .vsqrt _ => true
  | .vdiv _ => true
  | .vcos _ => true
  | .vsin _ => true
  | .vact _ => true
  | .vactD _ => true
  | .vactDi _ => true
  | .vred _ => true
  | .vrng _ => true
  | .vosmI _ => true
  | .vosmM _ => true
  | .vosmL _ => true
  | .vosmF _ => true
  | .vosmS _ => true
  | .wld _ => true
  | .wmm _ => true
  | .wck _ => true
  | .wfl _ => true
  | .mmm _ => true
  | .mdx _ => true
  | .mdw _ => true
  | .mfl _ => true
  | .mvw _ => true
  | .tqz _ => true
  | .tdq _ => true
  | .trot _ => true
  | .tcv _ => true
  | .tstatAmax _ => true
  | .tstatChk _ => true
  | .tstatFin _ => true
  | .dld _ => true
  | .dst _ => true
  | .dstCollector _ => true
  | .dstWalkRequest _ => true
  | .dstRelease _ => true
  | .dstEdit _ => true
  | .dcp _ => true
  | .dpf _ => true
  | .dldWait _ => true
  | .lat _ => true
  | .latTimeReached _ => true
  | .lwait _ => true
  | .lwaitTimeout _ => true
  | .lsend _ => true
  | .lrecv _ => true
  | .lcoll _ => true
  | .lfence _ => true
  | .lfenceTimeout _ => true
  | .epochIssueLimit _ => true
  | .vatWrite _ _ => true
  | .vatWriteAck _ => true
  | .collectorPartial _ _ => true
  | .finDeltasReceive _ => true
  | .shadowDigestReceive _ => true
  | .verdict _ _ => true
  | .redyeVerdict _ _ => true
  | .weldBudgetTrap _ => true
  | .epochCommit _ => true
  | .epochAbort _ _ => true
  | .stepCommit _ => true
  | .drainComplete _ => true
  | .saveBoundaryReached _ => true
  | .weldAdd _ => true
  | .weldSub _ => true
  | .weldAnd _ => true
  | .weldOr _ => true
  | .weldXor _ => true
  | .weldShl _ => true
  | .weldShr _ => true
  | .weldSar _ => true
  | .weldMul _ => true
  | .weldMulhu _ => true
  | .weldSlt _ => true
  | .weldSltu _ => true
  | .weldMin _ => true
  | .weldMax _ => true
  | .weldAddi _ => true
  | .weldAndi _ => true
  | .weldOri _ => true
  | .weldXori _ => true
  | .weldShli _ => true
  | .weldShri _ => true
  | .weldLui _ => true
  | .weldLd _ => true
  | .weldSt _ => true
  | .weldLdx _ => true
  | .weldStx _ => true
  | .weldBeq _ => true
  | .weldBne _ => true
  | .weldBlt _ => true
  | .weldBge _ => true
  | .weldBltu _ => true
  | .weldJal _ => true
  | .weldJr _ => true
  | .weldRet _ => true
  | .weldTrap _ => true
  | .stageSend _ => true
  | .stageAddSend _ => true
  | .stageAddWrite _ => true
  | .stageCopySend _ => true
  | .stageCopy _ => true
  | .stageWait _ => true
  | .collChunkReceive _ _ g => g.ok
  | .walkRequest _ => true
  | .pinPhase _ _ => true
  | .pageDelivered _ _ => true
  | .slotRelease _ _ => true
  | .stageCopyDone _ _ => true
  | .editBatch _ => true
  | .spillPage _ => true
  | .spillCopyDone _ => true
  | .ageingSweep _ => true
  | .indEnable _ => true
  | .indEditSubmit _ _ => true
  | .bind _ => true
  | .unbind _ => true
  | .load _ => true
  | .submit _ => true
  | .admissionDecision _ => true
  | .cancel _ => true
  | .save _ => true
  | .restore _ => true
  | .clear _ => true
  | .restoreCkpt _ => true
  | .restorePeer _ => true
  | .prewake _ => true
  | .programLaunch _ => true
  | .promiseOverrun _ => true
  | .unitWake _ => true
  | .unitSleep _ => true
  | .testRequest _ _ => true
  | .calibration c => c.ok
  | .syncSend => true
  | .sync _ f => f.ok
  | .delayMeasure => true
  | .delayReq _ f _ => stamp f.t1
  | .delayResp _ f => f.ok
  | .syncTimeout => true
  | .holdoverTimeout => true
  | .ppsEdge => true
  | .ppsLost => true
  | .timSetWrite _ => true
  | .latchedPairRead _ => true
  | .scrub _ u _ => decide (u < 2 ^ 30)
  | .rowRepairDone _ r => decide (r < 2 ^ 25)
  | .stackFrame _ => true
  | .vwrArm _ _ _ => true
  | .vwrDisarm _ _ _ => true
  | .vwrDrainComplete _ _ => true
  | .hostRead _ a n => hostRange a n 4096
  | .hostWrite _ a b _ => hostRange a b.length 512
  | .stackIdleRefresh _ => true
  | .t3Completion t c => decide (t < 1024) && c.ok
  | .t3CompletionTimeout t => decide (t < 1024)
  | .putReq _ _ g => g.ok
  | .putGo _ _ g => g.ok
  | .putData _ _ g => g.ok
  | .putDone _ _ g => g.ok
  | .messageForward _ _ g => g.ok
  | .forwardStallTimeout _ _ => true
  | .nak _ _ => true
  | .idle _ _ => true
  | .replayTimeout _ => true
  | .linkEnable _ => true
  | .linkRetrain _ _ => true
  | .trainingComplete _ _ => true
  | .lnkCrdAllocWrite _ _ => true
  | .testPassComplete _ _ => true
  | .stepReplay _ => true
  | .refereeCompare _ => true
  | .partitionReset _ _ => true
  | .partitionResetDone _ => true
  | .deviceReset _ => true
  | .commitDigestReceive _ _ _ _ => true
  | .checkGroupTimeout _ => true
  | .shardListReceive _ _ d => !d.isEmpty
  | .saveTimer _ => true
  | .saveStart _ => true
  | .pieceCaptured => true
  | .saveDone => true
  | .saveStreamReceive _ _ _ _ d _ => !d.isEmpty
  | .sepSaveRequest _ => true
  | .sepPeerSaveRequest _ => true
  | .sepAbandon _ => true
  | .ochreSample _ => true
  | .lifeFit => true
  | .sqDoorbell _ _ => true
  | .cqDoorbell _ _ => true
  | .qCfgWrite _ _ => true
  | .t3WindowWrite o _ => regOffset o
  | .dbgNew => true
  | .dbgSubmit => true
  | .setEndpointId _ => true
  | .pldmMonitoringRequest _ => true
  | .requestUpdate _ => true
  | .verifyComplete _ => true
  | .activateFirmware _ => true
  | .getVersion _ => true
  | .getCapabilities _ => true
  | .negotiateAlgorithms _ => true
  | .getDigests _ => true
  | .getCertificate _ => true
  | .challenge _ => true
  | .getMeasurements _ => true
  | .boot k => k.all (fun u => decide (u < 2068))
  | .bringUpReady => true
  | .powerOnReset => true
  | .devRstN => true
  | .warm => true
  | .partRst _ => true
  | .prepareOff => true
  | .offReady => true
  | .hostLinkReset _ => true
  | .d3hotEntry => true
  | .umbPartPwrWrite _ => true
  | .powerInterval _ => true
  | .thermalSample t => decide (t.length = 4)
  | .krmCtxSeedWrite _ _ _ _ => true
  | .vwSeedWrite _ => true
  | .vwSeedCopyDone => true
  | .wldLoad _ => true
  | .wldLoadDone _ => true
  | .clrData _ => true
  | .wldProgDataWrite _ _ => true
  | .woaAccDataRead _ => true
  | .madAccDataRead _ => true
  | .lockWrite o _ => regOffset o
  | .evtMaskWrite _ => true
  | .registerWrite o _ => decide (o < 2 ^ 28)
  | .flitFailed _ _ q => decide (q < 1024)
  | .twinDigestReceive _ _ d => decide (d.length ≤ 512)
  | .droopEvent _ _ => true
  | .cxlSnoop a => decide (a < 2 ^ 64)
  | .partitionWakeDone _ => true
  | .restorePieceDone _ => true
  | .dataMovementComplete _ _ => true
  | .perstNRelease => true

end Sys2Proof
end

