-- ==== Sys2Proof/Certificates/Slice0/Obligations.lean ====
section
/-! DEFINITION. The statements about the model, each a closed proposition, with the words that they share. A statement about the result of a slot says
what `exec` answers for a wide instruction that holds that slot alone; how the slots of one wide instruction act together is a statement of its own
(`WideInstructionsActAsOne`). -/

namespace Sys2Proof.Claim

open Sys2Proof.Machine

/-! ## The words of the statements about slots -/

/-- Core `k` issues for context slot `x`: the part has it, it carries a logical index of a partition bound to the slot, the context runs,
the core has not ended its program, waits for no LAT, step commit or issue limit, and has no tier-3 DLD in flight. -/
def issues (s : State) (k : CoreId) (x : Nat) : Bool :=
  decide (s.coreState k.key ≠ .fused) && decide (s.coreSlot k.key = some x) && decide ((s.ctx x).st = .running) &&
  !(s.core k.key).halted && !(s.core k.key).blocked && !(s.core k.key).t3Busy

/-- Core `k` issues for context slot `x`, no slot of its wide instruction has been presented, and the word fetches without an uncorrectable error
(R380). -/
def runs (s : State) (k : CoreId) (x : Nat) : Bool :=
  issues s k x && decide ((s.core k.key).word = []) && !(s.core k.key).badWords.contains (s.core k.key).pc.toNat

/-- The header of a slot that is the only one of its wide instruction and uses none of RND, SAT, FZ, CR and FL (R274). -/
def hdr (k : CoreId) (p : Fin 16) (neg : Bool) : Issue := { k := k, pred := p, pneg := neg }

/-- The predicate of a slot is not poisoned, and its bit 0, inverted under PNEG, is `b` (R276). -/
def predIs (s : State) (h : Issue) (b : Bool) : Bool :=
  !((s.core h.k.key).preg h.pred.val).2 && ((((s.core h.k.key).preg h.pred.val).1.getLsbD 0 != h.pneg) == b)

/-- The predicate of a slot is not poisoned: what a V slot needs, whose predicate acts lane by lane. -/
def predClean (s : State) (h : Issue) : Bool := !((s.core h.k.key).preg h.pred.val).2

/-- A core after a wide instruction that writes registers `ws` and branches to `t`: the register writes are performed, and the PC moves to the branch
target, else to the next word, modulo 4,096 (R244, R281). -/
def ends (c : Core) (ws : List RegW) (t : Option (BitVec 12)) : Core :=
  { ({ c with wait := .none } : Core).putRegs ws with word := [], pc := t.getD (c.pc + 1) }

/-- The state in which the wide instruction of core `k` has done no more than write registers and set the PC: every other core, every memory, every
context and every register of BAR0 is as it was. -/
def wrote (s : State) (h : Issue) (ws : List RegW) (t : Option (BitVec 12)) : State :=
  s.setCore h.k.key (ends (s.core h.k.key) ws t)

/-- A scalar register with its poison. -/
def sr (s : State) (k : CoreId) (r : Fin 64) : W64 × Bool := (s.core k.key).sreg r.val
/-- A predicate register with its poison. -/
def pr (s : State) (k : CoreId) (r : Fin 16) : W64 × Bool := (s.core k.key).preg r.val
/-- A descriptor register with its poison. -/
def tr (s : State) (k : CoreId) (r : Nat) : BitVec 256 × Bool := (s.core k.key).treg r

/-- Every bit of a predicate. -/
def everyBit (b : Bool) : W64 := if b then BitVec.allOnes 64 else 0

/-- Signed values. -/
def sgn (a : W64) : Int := a.toInt
/-! ## The C slot -/

/-- The scalar rows of R280 with the value and the poison of RD: shifts use bits 5:0 of their amount, MIN and MAX are signed. -/
def scalarRows (h : Issue) (d a b : Fin 64) (imm : W64) (x y : W64 × Bool) : List (Instr × W64 × Bool) :=
  [(.add { i := h, rd := d, ra := a, rb := b }, x.1 + y.1, x.2 || y.2),
   (.sub { i := h, rd := d, ra := a, rb := b }, x.1 - y.1, x.2 || y.2),
   (.and { i := h, rd := d, ra := a, rb := b }, x.1 &&& y.1, x.2 || y.2),
   (.or { i := h, rd := d, ra := a, rb := b }, x.1 ||| y.1, x.2 || y.2),
   (.xor { i := h, rd := d, ra := a, rb := b }, x.1 ^^^ y.1, x.2 || y.2),
   (.shl { i := h, rd := d, ra := a, rb := b }, BitVec.ofNat 64 (x.1.toNat * 2 ^ (y.1.toNat % 64)), x.2 || y.2),
   (.shr { i := h, rd := d, ra := a, rb := b }, BitVec.ofNat 64 (x.1.toNat / 2 ^ (y.1.toNat % 64)), x.2 || y.2),
   (.sar { i := h, rd := d, ra := a, rb := b }, x.1.sshiftRight (y.1.toNat % 64), x.2 || y.2),
   (.mul { i := h, rd := d, ra := a, rb := b }, BitVec.ofNat 64 (x.1.toNat * y.1.toNat), x.2 || y.2),
   (.mulhu { i := h, rd := d, ra := a, rb := b }, BitVec.ofNat 64 (x.1.toNat * y.1.toNat / 2 ^ 64), x.2 || y.2),
   (.min { i := h, rd := d, ra := a, rb := b }, if sgn x.1 < sgn y.1 then x.1 else y.1, x.2 || y.2),
   (.max { i := h, rd := d, ra := a, rb := b }, if sgn x.1 < sgn y.1 then y.1 else x.1, x.2 || y.2),
   (.addi { i := h, rd := d, ra := a, imm := imm }, x.1 + imm, x.2),
   (.andi { i := h, rd := d, ra := a, imm := imm }, x.1 &&& imm, x.2),
   (.ori { i := h, rd := d, ra := a, imm := imm }, x.1 ||| imm, x.2),
   (.xori { i := h, rd := d, ra := a, imm := imm }, x.1 ^^^ imm, x.2),
   (.shli { i := h, rd := d, ra := a, imm := imm }, BitVec.ofNat 64 (x.1.toNat * 2 ^ (imm.toNat % 64)), x.2),
   (.shri { i := h, rd := d, ra := a, imm := imm }, BitVec.ofNat 64 (x.1.toNat / 2 ^ (imm.toNat % 64)), x.2),
   (.movi { i := h, rd := d, imm := imm }, imm, false)]

/-- The compare and predicate rows of R280 with the value and the poison of PD: `x`, `y` are RA and RB, `u`, `v` are PA and PB. -/
def predicateRows (h : Issue) (d : Fin 16) (a b : Fin 64) (pa pb : Fin 16) (imm : W64) (z : Bool) (x y u v : W64 × Bool) :
    List (Instr × W64 × Bool) :=
  [(.cmpEq { i := h, pd := d, ra := a, rb := b }, everyBit (decide (x.1 = y.1)), x.2 || y.2),
   (.cmpNe { i := h, pd := d, ra := a, rb := b }, everyBit (decide (x.1 ≠ y.1)), x.2 || y.2),
   (.cmpLt { i := h, pd := d, ra := a, rb := b }, everyBit (decide (sgn x.1 < sgn y.1)), x.2 || y.2),
   (.cmpLtu { i := h, pd := d, ra := a, rb := b }, everyBit (decide (x.1.toNat < y.1.toNat)), x.2 || y.2),
   (.cmpiEq { i := h, pd := d, ra := a, imm := imm }, everyBit (decide (x.1 = imm)), x.2),
   (.cmpiLt { i := h, pd := d, ra := a, imm := imm }, everyBit (decide (sgn x.1 < sgn imm)), x.2),
   (.pand { i := h, pd := d, pa := pa, pb := pb }, u.1 &&& v.1, u.2 || v.2),
   (.por { i := h, pd := d, pa := pa, pb := pb }, u.1 ||| v.1, u.2 || v.2),
   (.pxor { i := h, pd := d, pa := pa, pb := pb }, u.1 ^^^ v.1, u.2 || v.2),
   (.pnot { i := h, pd := d, pa := pa }, ~~~u.1, u.2),
   (.pset { i := h, pd := d, imm := if z then 1 else 0 }, everyBit z, false)]

/-- The branch rows of R280 whose operand is not poisoned, with the register writes and the branch target: `w` is the word address of the
wide instruction. LOOP decrements RD and branches while the new value is not 0. -/
def branchRows (h : Issue) (d a : Fin 64) (t w : BitVec 12) (x y : W64) : List (Instr × List RegW × Option (BitVec 12)) :=
  [(.jmp { i := h, tgt := t }, [], some t),
   (.jr { i := h, ra := a }, [], some (BitVec.ofNat 12 (x.toNat % 4096))),
   (.call { i := h, rd := d, tgt := t }, [.s d.val (BitVec.ofNat 64 ((w.toNat + 1) % 4096)) false], some t),
   (.loop { i := h, rd := d, tgt := t }, [.s d.val (y - 1) false], if y - 1 = 0 then none else some t)]

/-- A core of `s` with its operand store replaced. -/
def withStore (s : State) (k : CoreId) (m : Mem) : State := s.setCore k.key { s.core k.key with loc := m }

/-- The control registers of R280 that hold a value whether or not an epoch is open, with that value: VLEN, LCORE, CTXCORE, CTXCORES,
STEPNO and LEVELSEL, for a core that carries logical index `l`. -/
def controlRows (s : State) (k : CoreId) (x l : Nat) : List (Nat × W64) :=
  [(0, 64), (1, BitVec.ofNat 64 l), (2, BitVec.ofNat 64 ((s.ctxCores x).idxOf k.key)), (3, BitVec.ofNat 64 (s.ctxCores x).length),
   (4, (s.ctx x).stepno.setWidth 64), (7, (s.core k.key).level)]

/-- The offset RA + IMM of a core, where it can be used: RA is not poisoned, the offset is aligned and lies in the 4 MiB operand store. -/
def localAt (s : State) (k : CoreId) (a : Fin 64) (imm : W64) (align o : Nat) : Bool :=
  !(sr s k a).2 && decide (((sr s k a).1 + imm).toNat = o) && decide (o % align = 0) && decide (o < 0x400000)

/-! ## The V slots -/

/-- The header of a slot, the only one of its wide instruction, with its rounding field, SAT, FZ, CR and FL (R274). -/
def hdrR (k : CoreId) (p : Fin 16) (neg : Bool) (rnd : Fin 8) (sat fz cr fl : Bool) : Issue :=
  { k := k, pred := p, pneg := neg, rnd := rnd, sat := sat, fz := fz, cr := cr, fl := fl }

/-- Lane `l` is active: bit `l` of the predicate, inverted under PNEG (R276). -/
def on (s : State) (k : CoreId) (p : Fin 16) (neg : Bool) (l : Nat) : Bool := (pr s k p).1.getLsbD l != neg

/-- The active lanes, in order. -/
def lanesOn (s : State) (k : CoreId) (p : Fin 16) (neg : Bool) : List Nat := (List.range 64).filter (fun l => on s k p neg l)

/-- A lane of a vector register with its poison. -/
def vl (s : State) (k : CoreId) (r l : Nat) : Lane := (s.core k.key).lane r l

/-- The 64 lanes of a destination: `f` in every active lane, its old value in every other (R276). -/
def outLanes (s : State) (k : CoreId) (p : Fin 16) (neg : Bool) (d : Nat) (f : Nat → Lane) : List Lane :=
  (List.range 64).map (fun l => if on s k p neg l then f l else vl s k d l)

/-- The state in which the vector engine of a core is awake: a sleeping one wakes on demand (R315). -/
def engine (s : State) (k : CoreId) : State := s.demandUnit (.core k.key 0)

/-- A 32-bit signed result: SAT 0 saturates, SAT 1 wraps (R283). -/
def int32 (wrap : Bool) (i : Int) : W32 := BitVec.ofInt 32 (if wrap then i else max (-2 ^ 31) (min (2 ^ 31 - 1) i))

/-- A subnormal result flushed under FZ (R28, R173). -/
def flushed (fz : Bool) (r : W32) : W32 := if fz then BitVec.ofNat 32 (fp32.flush r.toNat) else r

/-- The arithmetic rows of R283 with the value and the poison of a lane of VD from the lanes of VA, VB and VC: a floating-point result is
rounded once. -/
def vectorRows (k : CoreId) (p : Fin 16) (neg : Bool) (rnd : Fin 8) (fz sat : Bool) (d a b c : Fin 64) :
    List (Instr × (Lane → Lane → Lane → Lane)) :=
  let hr := hdrR k p neg rnd false fz false false
  let hs := hdrR k p neg 0 sat false false false
  let hf := hdrR k p neg 0 false fz false false
  let h := hdr k p neg
  let f := fun v => f32r (Rnd.ofCodeD rnd.val) fz v
  let two := fun (g : W32 → W32 → W32) (x y _ : Lane) => (g x.1 y.1, x.2 || y.2)
  [(.vadd { i := hr, vd := d, va := a, vb := b }, two (fun x y => f (FV.add (f32v x) (f32v y)))),
   (.vsub { i := hr, vd := d, va := a, vb := b }, two (fun x y => f (FV.add (f32v x) (FV.neg (f32v y))))),
   (.vmul { i := hr, vd := d, va := a, vb := b }, two (fun x y => f (FV.mul (f32v x) (f32v y)))),
   (.vfma { i := hr, vd := d, va := a, vb := b, vc := c },
     fun x y z => (f (FV.add (FV.mul (f32v x.1) (f32v y.1)) (f32v z.1)), x.2 || y.2 || z.2)),
   (.vmax { i := hf, vd := d, va := a, vb := b }, two (fun x y => flushed fz (max32 x y))),
   (.vmin { i := hf, vd := d, va := a, vb := b }, two (fun x y => flushed fz (min32 x y))),
   (.viadd { i := hs, vd := d, va := a, vb := b }, two (fun x y => int32 sat (x.toInt + y.toInt))),
   (.visub { i := hs, vd := d, va := a, vb := b }, two (fun x y => int32 sat (x.toInt - y.toInt))),
   (.vimul { i := hs, vd := d, va := a, vb := b }, two (fun x y => int32 sat (x.toInt * y.toInt))),
   (.vand { i := h, vd := d, va := a, vb := b }, two (fun x y => x &&& y)),
   (.vor { i := h, vd := d, va := a, vb := b }, two (fun x y => x ||| y)),
   (.vxor { i := h, vd := d, va := a, vb := b }, two (fun x y => x ^^^ y)),
   (.vshl { i := h, vd := d, va := a, vb := b }, two (fun x y => BitVec.ofNat 32 (x.toNat * 2 ^ (y.toNat % 32)))),
   (.vshr { i := h, vd := d, va := a, vb := b }, two (fun x y => BitVec.ofNat 32 (x.toNat / 2 ^ (y.toNat % 32)))),
   (.vsar { i := h, vd := d, va := a, vb := b }, two (fun x y => BitVec.ofInt 32 (x.toInt / 2 ^ (y.toNat % 32))))]

/-- The conditions 0 EQ, 1 NE, 2 LT, 3 LE and 4 unordered on operands of which one is or is not unordered, that are equal, or the first of
which is below the second; a NaN operand makes all but NE and unordered false (R283). -/
def condition (n : Nat) (un eq lt : Bool) : Bool :=
  [!un && eq, un || !eq, !un && lt, !un && (lt || eq), un].getD n false

/-- The compare rows of R283. -/
def compareRows (h : Issue) (pd : Fin 16) (a b : Fin 64) (fn : Byte) : List (Instr × (W32 → W32 → Bool)) :=
  [(.vcmp { i := h, pd := pd, va := a, vb := b, fn := fn },
     fun x y => condition fn.toNat (isNan32 x || isNan32 y) (FV.eq (f32v x) (f32v y)) (FV.lt (f32v x) (f32v y))),
   (.vicmp { i := h, pd := pd, va := a, vb := b, fn := fn },
     fun x y => condition fn.toNat false (decide (x = y)) (decide (x.toInt < y.toInt)))]

/-- Bytes of an element of FMT 0x0 to 0x3 in the operand store (R23, R26). -/
def elemBytes (fmt : Fin 16) : Nat := if fmt.val < 2 then 4 else 2

/-- The address of lane `l` of a VLD or VST: linear from SA + IMM16, or the two rows or the two columns 2m and 2m + 1 of a tile (R287). -/
def laneAddr (mode : Fin 4) (fmt : Fin 16) (imm : BitVec 16) (base : W64) (l : Nat) : Nat :=
  let m := imm.toNat % 16
  match mode with
  | 0 => (base + imm.signExtend 64).toNat + elemBytes fmt * l
  | 1 => base.toNat + elemBytes fmt * (32 * (2 * m + l / 32) + l % 32)
  | _ => base.toNat + elemBytes fmt * (32 * (l % 32) + 2 * m + l / 32)

/-- A VLD or VST can be performed: MODE and FMT are listed, SA is not poisoned and aligned as R287 asks, and every lane lies in the operand
store. -/
def laneAddrOk (s : State) (k : CoreId) (mode : Fin 4) (fmt : Fin 16) (imm : BitVec 16) (a : Fin 64) : Bool :=
  decide (mode.val < 3) && decide (fmt.val < 4) && !(sr s k a).2 &&
  (if mode = 0 then decide (((sr s k a).1 + imm.signExtend 64).toNat % 128 = 0)
   else decide ((sr s k a).1.toNat % (1024 * elemBytes fmt) = 0)) &&
  (List.range 64).all (fun l => decide (laneAddr mode fmt imm (sr s k a).1 l + elemBytes fmt ≤ 0x400000))

/-- Two values differ by at most `d`. -/
def within (a b : FV) (d : Mag) : Bool :=
  (FV.add a (FV.neg b)).isFin && !FV.lt (.fin false d) (FV.add a (FV.neg b)) && !FV.lt (.fin false d) (FV.add b (FV.neg a))

/-- A result of the function pipe for the exact result `z`: the correctly rounded one; a form that is not CR may also give another FP32 value
within the larger of `u` ulp and 2^a of a finite result (R175, R176). -/
def within175 (cr : Bool) (u : Nat) (a : Option Int) (z : FV) (r : W32) : Prop :=
  r = f32r .rne false z ∨ (cr = false ∧ z.isFin = true ∧ within (f32v r) z (boundOf u a z) = true)

/-- The rows of the function pipe with one operand: the bound of R175 in ulp and as a power of two, and the exact function. -/
def functionRows (h : Issue) (d a : Fin 64) : List (Instr × Nat × Option Int × (FV → FV)) :=
  [(.vexp { i := h, vd := d, va := a }, 1, none, exExp false), (.vexp2 { i := h, vd := d, va := a }, 1, none, exExp true),
   (.vlog { i := h, vd := d, va := a }, 1, none, exLog false), (.vlog2 { i := h, vd := d, va := a }, 1, none, exLog true),
   (.vrcp { i := h, vd := d, va := a }, 1, none, exRcp), (.vrsq { i := h, vd := d, va := a }, 1, none, exRsq),
   (.vcos { i := h, vd := d, va := a }, 1, some (-24), exTrig true), (.vsin { i := h, vd := d, va := a }, 1, some (-24), exTrig false)]

/-- Activations that select, multiply by α or give a constant, which is rounded once: LIN, RELU, LRELU, RELU2, and ELU above 0 (R183). -/
def selects (fn : Nat) (z : W32) : Bool := decide (fn ≤ 2) || decide (fn = 7) || (decide (fn = 5) && FV.lt (f32v 0) (f32v z))

/-- An entry of the statistics store: M, L, A and their poison (R233). -/
def stat (s : State) (k : CoreId) (e : Nat) : (W32 × W32 × W32) × Bool := (s.core k.key).stat e

/-- A core of `s`, its vector engine awake, with its statistics store replaced. -/
def withStats (s : State) (k : CoreId) (m : AMap ((W32 × W32 × W32) × Bool)) : State :=
  (engine s k).setCore k.key { (engine s k).core k.key with stats := m }

/-- The entries of a statistics store after the active lanes have written theirs from entry `b` on. -/
def statsAre (s : State) (k : CoreId) (p : Fin 16) (neg : Bool) (b : Nat) (m : AMap ((W32 × W32 × W32) × Bool))
    (f : Nat → (W32 × W32 × W32) × Bool) : Prop :=
  ∀ e, AMap.get ((0, 0, 0), false) e m =
    if b ≤ e ∧ e < b + 64 ∧ on s k p neg (e - b) = true then f (e - b) else stat s k e

/-! ## The W, M and T slots -/

/-- A state in which a slot of core `k` begins: the core's wait is over. -/
def begun (s : State) (k : CoreId) : State := s.setCore k.key { s.core k.key with wait := .none }

/-- The same with unit `u` of the core awake: 1 and 2 the Woad arrays, 3 to 6 the Madder arrays, 7 the Mordant unit (R315). -/
def awakeUnit (s : State) (k : CoreId) (u : Nat) : State := (begun s k).demandUnit (.core k.key u)

/-- The same with the instruction in flight in an array: 0 and 1 in a Woad array, 2 to 5 in a Madder array (R80, R122). -/
def inFlight (s : State) (k : CoreId) (u key : Nat) : State := (awakeUnit s k u).fly k.key key

/-- What an instruction of an array that stores nothing leaves alone: memory, contexts, every other core, and in its own core the register
files, the PC, the operand store and the Vat, the open epochs. -/
def quiet (s u : State) (k : CoreId) : Prop :=
  u.mem = s.mem ∧ u.host = s.host ∧ u.ctxs = s.ctxs ∧ u.out = s.out ∧ (∀ n, n ≠ k.key → u.core n = s.core n) ∧
  (u.core k.key).s = (s.core k.key).s ∧ (u.core k.key).p = (s.core k.key).p ∧ (u.core k.key).v = (s.core k.key).v ∧
  (u.core k.key).t = (s.core k.key).t ∧ (u.core k.key).level = (s.core k.key).level ∧ (u.core k.key).pc = (s.core k.key).pc ∧
  (u.core k.key).loc = (s.core k.key).loc ∧ (u.core k.key).vat = (s.core k.key).vat ∧
  (u.core k.key).epochs = (s.core k.key).epochs

/-- What a slot with a tile to write answers, from the state `u` in which the write is its last effect (R257, R299, R331): while no epoch is open, and
where every byte lies in a declared speculative region, it is performed; else the current epoch holds it. -/
def stores (u : State) (h : Issue) (x slot op : Nat) (dev : Bool) (ps : List Piece) (o : Host.Outcome State Fault Refusal) : Prop :=
  let c := u.core h.k.key
  let near := c.epochs = [] ∨ ∀ p, p ∈ ps → ∀ i, i < p.data.length → u.inRegion h.k.key x dev (p.addr + i) = true
  (near → dev = false → o = .next (wrote (u.localWrite h.k.key ps) h [] none)) ∧
  (near → dev = true → ps.any (fun p => u.captureHolds p.addr) = false → (u.performWrite x ps).2 = false →
    o = .next (wrote (u.performWrite x ps).1 h [] none)) ∧
  (c.cur.isSome = true → near ∨ o = .next (wrote (u.setCore h.k.key (c.holdIn { h := .write dev ps, word := c.pc, slot := slot, op := op })) h [] none))

/-- A core can count for two tensors more without a 33rd counter-file entry (R137). -/
def cfRoom (s : State) (k : CoreId) : Bool := decide ((s.core k.key).cfUsed.length < 31)

/-- The tile of a shape in rows and columns (R288). -/
def tileRows (shape : Fin 4) : Nat := if shape.val < 2 then 32 else 64
/-- Its columns. -/
def tileCols (shape : Fin 4) : Nat := if shape.val = 0 then 32 else 64

/-- A table of R × C elements. -/
def table {α : Type} (r c : Nat) (f : Nat → Nat → α) : List (List α) := (List.range r).map (fun i => (List.range c).map (fun j => f i j))

/-- The operand lines of a Madder product: row i of A and column j of B in the orientation of the opcode, over the K range, converted on their
way in (R27, R90, R91), and the rounding of its running sums with the Kermes bits of SR (R162). In reference mode sums are FP32 with RNE
(R204). A parity error in the array's feeder latches poisons its A operand (R96). -/
def productOf (s : State) (k : CoreId) (x : Nat) (o : Orient) (m : MSlot) (len : Nat) : MadJob :=
  let ref := (s.ctx x).refmode
  let a := tdOf (tr s k m.ta.val).1
  let b := tdOf (tr s k m.tb.val).1
  let k0 := (sr s k m.sk0).1.toNat
  let conv := if m.conv && !ref then Rnd.rz else .rne
  let og := madOrigin o a b
  let rnd := m.sr && !ref
  let tensor := if rnd then s.tensorId k.key (tdOf (tr s k m.tc.val).1) else 0
  { rows := (List.range (tileRows m.shape)).map (fun i =>
      (s.madLine k.key a conv false (madPosA o i) k0 len).map (fun e => (e.1, e.2 || (s.core k.key).badFeed.contains m.arr.val)))
    cols := (List.range (tileCols m.shape)).map (fun q => s.madLine k.key b conv (o == .mdx) (madPosB o q) k0 len)
    fp16 := m.afmt && !ref
    mode := if rnd then .sr else .rne
    bits := fun i q z => if rnd then accumBits (s.ctxSeed x) (s.ctx x).stepno.toNat tensor (og.1 + i) (og.2.1 + q) z else 0
    kb := og.2.2 + k0 }

/-- A Madder product issues: its operands are not poisoned, the checks of R74, R85, R90, R98, R112, R163 and R235 pass, no save pauses it and
its operands lie in the operand store or the Vat. -/
def productRuns (s : State) (k : CoreId) (x : Nat) (o : Orient) (m : MSlot) (len : Nat) : Bool :=
  let a := tdOf (tr s k m.ta.val).1
  let b := tdOf (tr s k m.tb.val).1
  let k0 := (sr s k m.sk0).1.toNat
  let ext := madExtent o (tileRows m.shape) (tileCols m.shape) (k0 + len)
  !(tr s k m.ta.val).2 && !(tr s k m.tb.val).2 && !((m.pa || m.vt || m.sr) && (tr s k m.tc.val).2) && !(sr s k m.sk0).2 &&
  !((m.rs || m.vt) && (sr s k m.sx).2) &&
  decide (sr s k m.sklen = (BitVec.ofNat 64 len, false)) && decide (len < 2 ^ 64) &&
  decide (madChk s x k.key o m a b (tdOf (tr s k m.tc.val).1) (sr s k m.sx).1.toNat k0 len = none) && !(m.start && s.savePauses x) &&
  s.runsOk x false (a.spans ext.1.1 ext.1.2 ++ b.spans ext.2.1 ext.2.2) && (!m.rs || decide ((sr s k m.sx).1.toNat + 128 ≤ 0x400000))

/-- The row of a product: its opcode number, its orientation and the command. -/
def productRows (m : MSlot) : List (Nat × Orient × Instr) := [(1, .mmm, .mmm m), (2, .mdx, .mdx m), (3, .mdw, .mdw m)]

/-- A tile descriptor of a core, taken apart. -/
def td (s : State) (k : CoreId) (r : Fin 32) : TD := tdOf (tr s k r.val).1

/-- A record of the record area can be read: it lies in the context's memory and no unit of it is poisoned (R300). -/
def recReads (s : State) (k : CoreId) (x i : Nat) : Bool := s.ctxRange x (s.recAddr k.key i) 64 && !s.devPo (s.recAddr k.key i) 64

/-- What begins a T-slot instruction that names tensor records (R138): the Mordant unit is awake, and the totals of the records that the step
names for the first time are cleared. -/
def begins (s : State) (k : CoreId) (x : Nat) (l : List TD) : State := (awakeUnit s k 7).tBegin k.key x (recsOf l)

/-- A T-slot instruction can issue on descriptors TS and TD: neither is poisoned, their forms pass the checks `form`, and the bytes that it
reads and writes can be reached. -/
def tReady (s : State) (k : CoreId) (x : Nat) (a b : Fin 32) (form : List Chk) (reads writes : List (Nat × Nat)) : Bool :=
  !(tr s k a.val).2 && !(tr s k b.val).2 && decide (firstChk form = none) && s.runsOk x (td s k a).space reads &&
  s.runsOk x (td s k b).space writes && cfRoom s k

/-- The elements that TQZ quantises in row r of its destination, in the domain of the lake: by columns under TRN, rotated under ROT (R124, R127,
R131). -/
def tqzRow (s : State) (k : CoreId) (a b : TD) (trn : Bool) (r : Nat) : List (FV × Bool) :=
  let row := (List.range b.cols).map (fun q => if trn then s.elemV k.key a q r else s.elemV k.key a r q)
  if b.rot then (rotateRow false b.rotSize b.rotSeed (row.map (fun e => (f32r .rne false e.1, e.2)))).map (fun e => (f32v e.1, e.2)) else row

/-- The lakes of row r, each quantised from the elements that it holds, with the Kermes bits of its coordinates under SR (R129 to R135, R162). -/
def tqzLakes (s : State) (k : CoreId) (x : Nat) (a b : TD) (trn : Bool) (r : Nat) : List QLake :=
  let n := lakeElems b.fmt b.block
  let tensor := if b.rnd = 4 then s.tensorId k.key b else 0
  let els := (tqzRow s k a b trn r).zipIdx.map (fun e =>
    ({ v := e.1.1, po := e.1.2, bits := if b.rnd = 4 then s.convBits x tensor (b.row0 + r) (b.col0 + e.2) else 0 } : QElem))
  (chunks n els.length els).zipIdx.map (fun l =>
    quantLake b (Rnd.ofCodeD b.rnd) (s.free + (r * ((b.cols + n - 1) / n) + l.2) * 1024) l.1)

/-- The values of a lake tile, row by row, inversely rotated under INV (R193). -/
def tdqRow (s : State) (k : CoreId) (a : TD) (inv : Bool) (r : Nat) : List (FV × Bool) :=
  let v := (s.lakeRow k.key a r 0 a.cols).values a.cols
  if inv then (rotateRow true a.rotSize a.rotSeed (v.map (fun e => (f32r .ro false e.1, e.2)))).map (fun e => (f32v e.1, e.2)) else v

/-- The runs of words that TSTAT.AMAX writes: blocks, rows, tile, as GRAN selects (R135). -/
def amaxRuns (gran : Fin 8) (block : Bool) (rows : List (List (FV × Bool))) : List (W32 × Bool) :=
  (if natBit gran.val 0 then rows.flatMap (fun r => (chunks (if block then 32 else 16) r.length r).map amaxOut) else []) ++
  (if natBit gran.val 1 then rows.map amaxOut else []) ++ (if natBit gran.val 2 then [amaxOut (rows.flatMap (fun r => r))] else [])

/-! ## The D and L slots -/

/-- The transfers of a kind that a core has in flight: 0 DLD, 1 DPF, 2 DST, 3 DCP. -/
def flying (s : State) (k : CoreId) (kind : Nat) : List Xfer := (s.core k.key).xfers.filter (fun t => t.kind == kind)

/-- No run of a copy leaves or enters tier 3. -/
def nearRuns (l : List (Nat × Nat × Nat)) : Bool := l.all (fun r => !isT3 r.1)

/-- What DST to memory and DCP answer, from the state `u` in which their write is the last effect (R257, R296, R298, R299): performed, with the
transfer that LFENCE waits for, where no epoch is open or every byte lies in a declared speculative region; else held in the current epoch. -/
def moves (u : State) (h : Issue) (x op kind : Nat) (ps : List Piece) (o : Host.Outcome State Fault Refusal) : Prop :=
  let c := u.core h.k.key
  let near := c.epochs = [] ∨ ∀ p, p ∈ ps → ∀ i, i < p.data.length → u.inRegion h.k.key x true (p.addr + i) = true
  (near → ps.any (fun p => u.captureHolds p.addr) = false → (u.performWrite x ps).2 = false →
    o = .next (wrote ((u.performWrite x ps).1.addXfer h.k.key { kind := kind, tag := c.cur }) h [] none)) ∧
  (c.cur.isSome = true → near ∨
    o = .next (wrote (u.setCore h.k.key (c.holdIn { h := .write true ps, word := c.pc, slot := 6, op := op })) h [] none))

/-- The state in which a D slot has read the runs `l` of device memory: errors of the memory are found, and the accesses are charged to the context
(R336, R346). -/
def readRuns (s : State) (k : CoreId) (x : Nat) (l : List (Nat × Nat)) : State := ((begun s k).demandReads l).chargeRuns (.slot x) l

/-- The state in which a wide instruction of one slot has done no more than raise a status at execution (R301). -/
def faults (s : State) (h : Issue) (x slot op code : Nat) : State :=
  (wrote s h [] none).raiseAll h.k.key x (s.core h.k.key).pc
    [{ slot := slot, op := op, code := code, atIssue := false, tag := (s.core h.k.key).cur }]

/-- A core that may send outside an epoch: it has no open epoch and no released instruction that still waits (R299). -/
def outside (s : State) (k : CoreId) : Bool := (s.core k.key).cur.isNone && (s.core k.key).epochs.isEmpty && (s.core k.key).rel.isEmpty

/-- The state in which the current epoch of a core holds one more instruction, with its word, slot and opcode (R257). -/
def held (s : State) (k : CoreId) (slot op : Nat) (h : Held) : State :=
  s.setCore k.key ((begun s k).core k.key |>.holdIn { h := h, word := (s.core k.key).pc, slot := slot, op := op })

/-! ## Vat-writes, partials, verdicts and commits -/

/-- The word of FP32 value `j` in 64 bytes at an address. -/
def word32 (m : Mem) (a j : Nat) : W32 := BitVec.ofNat 32 (m.num (a + 4 * j) 4)

/-- A Vat-write that passes the checks of R342 at entry `e` of the table of partition `p`: armed, owned by the source, not INVALID, and not
draining. -/
def vatAllowed (s : State) (w : VatW) (p e part src : Nat) : Bool :=
  decide (s.regionAt w.addr = some (p, e)) && (s.region p e).armed && !(s.region p e).draining && !(s.region p e).invalid &&
  decide ((s.region p e).ownerPart = part) && decide ((s.region p e).ownerSrc = src) && !s.pinnedAt w.slot w.addr

/-- An epoch ready to commit: closed by its CCOMMIT, and passed or accepted by its verdict (R256). -/
def ready (e : Epoch) : Bool := e.ccommit.isSome && (e.verdict == some .pass || e.verdict == some .accept)

/-- The default policy of R152 on the fields of a layer record and the summed deltas. -/
def policy152 (level nanMax satRate ovfRate failMax : Nat) (rerunUsed : Bool) (tol0 tol1 : W32) (d : Delta) : Verdict :=
  let nan := decide (nanMax < d.nan)
  let sat := decide (satRate * d.elems < d.sat * 2 ^ 20)
  let ovf := decide (ovfRate * d.elems < d.ovf * 2 ^ 20)
  let bad := decide (failMax < d.failed)
  let tol := f32v (if level = 0 then tol0 else tol1)
  let far := FV.lt (FV.mul (FV.ofInt 16 0) (FV.mul tol tol)) (f32v d.errMax)
  let rerun := fun (l : Nat) => if level = 2 ∨ l ≤ level ∨ 2 < l ∨ rerunUsed = true then Verdict.exhausted else .rerun l
  if !nan && !sat && !ovf && !bad then .pass
  else if level = 2 then .exhausted
  else if rerunUsed then (if nan then .exhausted else .accept)
  else if nan || far || level == 1 then rerun 2
  else rerun (level + 1)

/-- The comparison counters as a verdict with nothing to compare leaves them: advanced by 0 (R396). -/
def counted (s : State) : State := (s.bump .errCnt 0 2 0).bump .errCnt 0 3 0

/-- A run whose verdict can be taken now, by core `n` with layer record `i` of the run's first deltas: the context runs, every participant's
deltas are held, no earlier run of that core waits, no digest of the run is held, no arbitration is open, the record can be
read, and the core applies the default policy. -/
def judged (s : State) (x n i : Nat) (run : Run) : Bool :=
  decide ((s.ctx x).st = .running) && decide (((s.ctx x).fins.find? (fun f => f.run == run)).map (fun f => f.lrec) = some i) &&
  decide (s.verdictCore x run.layer.toNat = some n) && s.runReady x run && (tilesOf (s.ctx x).digs run).isEmpty && (s.ctx x).arb.state == 0 &&
  (s.ctx x).fins.all (fun g => !(Run.before g.run run && s.verdictCore x g.run.layer.toNat == some n && s.runReady x g.run)) &&
  (counted s).ctxRange x ((counted s).recAddr n i) 64 && !(counted s).devPo ((counted s).recAddr n i) 64 &&
  !natBit ((counted s).reg .morCtrl n 0).toNat 0

/-- The deltas of a run summed. -/
def summed (s : State) (x : Nat) (run : Run) : Delta :=
  ((s.ctx x).fins.filter (fun g => g.run == run)).foldl (fun a g => ((a.add g.w).add g.x).add g.y) {}

/-! ## The Weld sequencers -/

/-- The budget of one invocation (R271). -/
def budgetOf : WeldId → Nat
  | .mordant _ | .indigo _ => 2048
  | _ => 2 ^ 24

/-- A sequencer runs an invocation with budget left. -/
def weldRuns (s : State) (w : WeldId) : Bool :=
  natBit (s.reg .wldStatus w.key 0).toNat 0 && decide ((s.weld w.key).count < budgetOf w)

/-- Register w0 reads zero (R266). -/
def wreg (s : State) (w : WeldId) (r : Fin 16) : W32 := if r = 0 then 0 else AMap.get 0 r.val (s.weld w.key).w

/-- The registers of a sequencer with one written; w0 keeps reading zero. -/
def wput (s : State) (w : WeldId) (r : Fin 16) (v : W32) : AMap W32 :=
  if r = 0 then (s.weld w.key).w else AMap.put 0 r.val v (s.weld w.key).w

/-- The state after one instruction of a sequencer: counted, with the given PC, registers and data memory; nothing else of the block changes but
the model's own counter of free values. -/
def welded (s : State) (w : WeldId) (pc : BitVec 12) (regs data : AMap W32) : State :=
  ((s.bump .wldCnt w.key 1 1).draw).setWeld w.key
    { s.weld w.key with pc := pc, count := (s.weld w.key).count + 1, w := regs, data := data }

/-- The two-operand arithmetic of R269 on the values of ra and rb, modulo 2³². -/
def weldArith (a : WeldA) (x y : W32) : List (Instr × W32) :=
  [(.weldAdd a, x + y), (.weldSub a, x - y), (.weldAnd a, x &&& y), (.weldOr a, x ||| y), (.weldXor a, x ^^^ y),
   (.weldShl a, BitVec.ofNat 32 (x.toNat * 2 ^ (y.toNat % 32))), (.weldShr a, BitVec.ofNat 32 (x.toNat / 2 ^ (y.toNat % 32))),
   (.weldSar a, BitVec.ofInt 32 (x.toInt / 2 ^ (y.toNat % 32))), (.weldMul a, BitVec.ofNat 32 (x.toNat * y.toNat)),
   (.weldMulhu a, BitVec.ofNat 32 (x.toNat * y.toNat / 2 ^ 32)), (.weldSlt a, if x.toInt < y.toInt then 1 else 0),
   (.weldSltu a, if x.toNat < y.toNat then 1 else 0), (.weldMin a, if x.toInt < y.toInt then x else y),
   (.weldMax a, if x.toInt < y.toInt then y else x)]

/-- The arithmetic with an immediate: signed for ADDI, zero-extended for ANDI, ORI and XORI, its low five bits for the shifts. -/
def weldImmediate (a : WeldI) (x : W32) : List (Instr × W32) :=
  [(.weldAddi a, x + BitVec.ofInt 32 a.imm.toInt), (.weldAndi a, x &&& BitVec.ofNat 32 a.imm.toNat), (.weldOri a, x ||| BitVec.ofNat 32 a.imm.toNat),
   (.weldXori a, x ^^^ BitVec.ofNat 32 a.imm.toNat), (.weldShli a, BitVec.ofNat 32 (x.toNat * 2 ^ (a.imm.toNat % 32))),
   (.weldShri a, BitVec.ofNat 32 (x.toNat / 2 ^ (a.imm.toNat % 32)))]

/-- The conditions of the branches. -/
def weldBranches (a : WeldB) (x y : W32) : List (Instr × Bool) :=
  [(.weldBeq a, decide (x = y)), (.weldBne a, decide (x ≠ y)), (.weldBlt a, decide (x.toInt < y.toInt)), (.weldBge a, decide (y.toInt ≤ x.toInt)),
   (.weldBltu a, decide (x.toNat < y.toNat))]

/-- An invocation ended by a trap on a sequencer other than a link engine's: cause and PC stand in WLD_STATUS, ACTIVE is clear, and the trap is
counted (R270). -/
def trapped (s : State) (w : WeldId) (cause : Nat) : State :=
  ((((s.setFld .wldStatus w.key 0 7 4 cause).setFld .wldStatus w.key 0 19 8 (s.weld w.key).pc.toNat).bump .wldCnt w.key 2 1).setFld
    .wldStatus w.key 0 0 0 0)

/-- A sequencer that is not a link engine's, which the host units read at RET and at a trap without further effect. -/
def plainWeld : WeldId → Bool
  | .link _ => false
  | _ => true

/-- The words of a link engine's I/O space that a program reads with the same value whatever ran before (R372): the handle, its tag, buffer and
length, the ring and its slice. -/
def linkWords (s : State) (n : Fin 48) (i : Inv) : List (Nat × Nat) :=
  let v := s.coll i.slot i.ch
  let sl := (s.collCfg n.val i.ch).slice v.elems i.ring
  [(0x100, i.ch), (0x104, v.tag), (0x108, v.addr % 2 ^ 32), (0x10C, v.addr / 2 ^ 32), (0x110, v.elems), (0x114, i.ring), (0x118, sl.1), (0x11C, sl.2),
   (0x12C, i.completed), (0x130, bit i.abandoned)]

/-! ## Collectives -/

/-- A link engine whose program still runs and has command `c` of operation `op` at the head of its queue, `rest` behind it. -/
def stands (s : State) (n : Fin 48) (i : Inv) (c : StageCmd) (rest : List StageCmd) (op : Nat) : Bool :=
  decide ((s.link n.val).inv = some { i with queue := c :: rest }) && c.op == op && !i.ended

/-- The engine with its first command completed. -/
def stepped (s : State) (n : Fin 48) (i : Inv) (rest : List StageCmd) : State :=
  s.setLink n.val { s.link n.val with inv := some { i with queue := rest, completed := i.completed + 1 } }

/-- The first element and the end of the chunk that a command moves, in the buffer (R373, R374). -/
def chunkAt (s : State) (n : Fin 48) (i : Inv) (c : StageCmd) : Nat × Nat :=
  (s.collCfg n.val i.ch).range (s.coll i.slot i.ch).elems i.ring c.dim c.chunk

/-- The links towards and from the neighbours along a command's dimension. -/
def towards (s : State) (n : Fin 48) (i : Inv) (c : StageCmd) : Nat := (s.collCfg n.val i.ch).link i.ring (2 * c.dim)
/-- The link from the previous position. -/
def before (s : State) (n : Fin 48) (i : Inv) (c : StageCmd) : Nat := (s.collCfg n.val i.ch).link i.ring (2 * c.dim + 1)

/-- The local elements of a command's chunk. -/
def mineAt (s : State) (n : Fin 48) (i : Inv) (c : StageCmd) : List Nat :=
  let r := chunkAt s n i c
  (List.range (r.2 - r.1)).map (fun e => s.devNum ((s.coll i.slot i.ch).addr + 2 * (r.1 + e)) 2)

/-- No unit of the local chunk is poisoned. -/
def mineClean (s : State) (n : Fin 48) (i : Inv) (c : StageCmd) : Bool :=
  let r := chunkAt s n i c
  r.2 - r.1 == 0 || !s.devPo ((s.coll i.slot i.ch).addr + 2 * r.1) (2 * (r.2 - r.1))

/-- The chunk has come from the previous position whole, in one clean message that stands alone in the receive buffer. -/
def arrived (s : State) (n : Fin 48) (i : Inv) (c : StageCmd) (m : CollMsg) : Bool :=
  let r := chunkAt s n i c
  decide ((s.link (before s n i c)).chunks = [m]) && m.slot.val == i.slot && m.ch.val == i.ch && m.first == r.1 &&
  decide (m.elems.length = r.2 - r.1) && decide (r.1 < r.2) && m.poison.all (fun b => !b)

/-- The state with that message taken out of the buffer and its entries free. -/
def taken (s : State) (n : Fin 48) (i : Inv) (c : StageCmd) (m : CollMsg) : State :=
  (s.setLink (before s n i c) { s.link (before s n i c) with chunks := [] }).returnEntries (before s n i c) 1 (1 + (m.elems.length + 31) / 32)

/-- The sums of R374: FP32 with RNE, rounded to BF16 with the Kermes bits of the link stream at the buffer's tag, the stage and the element. -/
def sumsAt (s : State) (n : Fin 48) (i : Inv) (c : StageCmd) (m : CollMsg) : List Nat :=
  (m.elems.zip (mineAt s n i c)).zipIdx.map (fun p =>
    (bf16.round .sr (srBits (s.ctxSeed i.slot) streamLink (s.ctx i.slot).stepno.toNat (s.coll i.slot i.ch).tag c.stage ((chunkAt s n i c).1 + p.2)) false
      (f32v (add32 (BitVec.ofNat 32 (p.1.1.toNat * 65536)) (BitVec.ofNat 32 (p.1.2 * 65536))))).1)

/-- BF16 codes written to the local chunk. -/
def writesChunk (s u : State) (n : Fin 48) (i : Inv) (c : StageCmd) (l : List Nat) : State × Bool :=
  u.performWrite i.slot [{ addr := (s.coll i.slot i.ch).addr + 2 * (chunkAt s n i c).1, data := l.flatMap (fun e => leBytes 2 e) }]

/-- BF16 codes sent to the next position. -/
def sendsChunk (s u : State) (n : Fin 48) (i : Inv) (c : StageCmd) (l : List Nat) : State :=
  u.sendChunk (towards s n i c) i.slot i.ch (s.coll i.slot i.ch).tag c.stage (chunkAt s n i c).1 l

/-- The credits that a header returns fit the allocation of their class (R360). -/
def credits (s : State) (n : Fin 48) (h : FlitHead) : Bool :=
  decide (AMap.get 0 h.crdTc (s.link n.val).credits + 8 * h.crdN ≤ s.crdAlloc n.val h.crdTc)

/-- CTXCORES, STEPNO and the digests of the 1 MiB blocks of a collective's buffer, as twins exchange them (R398). -/
def twinWords (s : State) (x : Nat) (v : CollState) : List W64 :=
  BitVec.ofNat 64 (s.ctxCores x).length :: (s.ctx x).stepno.setWidth 64 :: blockDigests (s.unitDigests v.addr v.elems)

/-! ## Indigo -/

/-- A walk request that engine `e` may take (R215): a free walk slot, ENABLE, fields in range and aligned, a completion record and a descriptor
that the context reaches, a sound descriptor of a sequence whose home has not been reset, and buffer slots within the operand store. -/
def walkTakes (s : State) (e : Nat) (r : WalkReq) : Bool :=
  let w := walkForm r.req
  let q := seqOf (s.devRead w.seq 64)
  s.indOn e && decide ((s.ind e).walks.length < 32) && w.ok && w.aligned && s.ctxMemStore r.slot w.done 64 && s.ctxRange r.slot w.seq 64 &&
  !s.devPo w.seq 64 && q.ok && !(s.ind q.home).wasReset && decide (w.dest + w.slots * q.slotBytes ≤ 0x400000)

/-- The page-table entries of a walk, in order (R211, R216). -/
def walkPtes (s : State) (w : Walk) : List Nat :=
  let f := walkForm w.req
  let q := seqOf (s.devRead f.seq 64)
  (List.range ((f.t1 + 63) / 64 - f.t0 / 64)).map (fun k => q.ptBase + 8 * (f.layer * q.pagesMax + (f.t0 / 64 + k)))

/-- A walk that may pin now: its home enabled and not reset, its descriptor sound, every page present in a reachable frame, no entry that the memory
path refuses to write, no PIN at 63, no more tier-3 pages than its limit, and prefetch by LOOKAHEAD or the engine's default (R214, R216, R223, R228, R230). -/
def mayPin (s : State) (e : Nat) (w : Walk) : Bool :=
  let f := walkForm w.req
  let q := seqOf (s.devRead f.seq 64)
  !w.pinned && !(s.ind w.home).wasReset && s.indOn w.home && !s.devPo f.seq 64 && q.ok && decide (s.walkCheck (s.ctx w.slot).parts f q = none) &&
  (walkPtes s w).all (fun a => ptePin (s.pte a) != 63 && (s.bar a).isNone) && decide (((walkPtes s w).filter (fun a => pteT3 (s.pte a))).length ≤ f.t3Max) &&
  !natBit (s.reg .indCtrl e 0).toNat 1 && !(walkPtes s w).isEmpty &&
  (walkPtes s w).all (fun a => match locOf a with
    | .mem _ _ => true
    | _ => false)

/-- The staged copy of a page of a walk, under way or ready. -/
def stagedCopy (s : State) (w : Walk) (p : WalkPage) : Option StageEnt := (s.ind w.home).staging.find? (fun g => g.pte == p.pte && g.gen == p.gen)

/-- The next page of a pinned walk stands next in delivery: its buffer slot is free (R217). -/
def standsNext (w : Walk) (p : WalkPage) : Bool :=
  let f := walkForm w.req
  w.pinned && decide (w.list[w.delivered]? = some p) && (decide (w.delivered < f.slots) || w.rel.contains (w.delivered - f.slots))

/-- That page can be delivered: its staged copy is ready, or it has none and lies in tier 0 or comes from tier 3 directly, and no deferral is to be
reported with it (R217, R229, R230). -/
def delivers (s : State) (w : Walk) (p : WalkPage) : Bool :=
  standsNext w p && (match stagedCopy s w p with
    | some g => g.ready
    | none => !p.tier3 || (s.direct w.home && (decide ((s.ind w.home).staging.length < 64) || w.deferred)))

/-- A batch that an engine may take now: ENABLE set, and of a core no write to memory under way (R221). -/
def batchFree (s : State) (n : Nat) (r : EditReq) : Bool :=
  s.indOn n && (match r.core with
    | some (k, _) => (s.core k).xfers.all (fun t => t.kind != 2 && t.kind != 3) && (s.core k).vwq.isEmpty
    | none => true)

/-- The partitions in which a batch may work: those of its context, or the engine's own (R221). -/
def batchParts (s : State) (n : Nat) (r : EditReq) : BitVec 4 :=
  match r.core with
  | some (_, x) => (s.ctx x).parts
  | none => BitVec.ofNat 4 (2 ^ (n / 12))

/-! ## Host commands, saves and restores -/

/-- A host command is taken from its queue, leaving state `u`, with no reserved bit set, and no save or restore of its slot in progress. -/
def taking (s u : State) (c : HostCmd) : Prop := s.takeCmd c.q.val = some u ∧ c.rsv = false ∧ u.slotBusy c.slot.val = false

/-- Every command with its slot state: the states in which it is accepted (R251, R435). -/
def acceptedIn (c : HostCmd) : List (Instr × List CtxState) :=
  [(.bind c, [.free]), (.unbind c, [.bound]), (.load c, [.bound]), (.clear c, [.halted]), (.save c, [.bound, .running]),
   (.restore c, [.bound, .halted]), (.restoreCkpt c, [.bound]), (.restorePeer c, [.bound])]

/-! ## Admission, launch, sleep, tests during work -/

/-- Checks 0x01 to 0x08 of R321 on a certificate `b` that reads with poison `po`, in order, each with whether it passes. -/
def admissionChecks (s : State) (x : Nat) (b : List Byte) (po : Bool) (tL : Nat) : List (Nat × Bool) :=
  let c := s.ctx x
  let t := certOf b
  [(0x01, !po && certFormat b), (0x02, c.image.map (fun i => i.1) == some t.digest), (0x03, t.refmode == c.refmode),
   (0x04, t.ctxcores == (s.ctxCores x).length && t.vl == 64 && t.parts == (partsOf c.parts).length), (0x05, decide (t.d ≤ 10000000000)),
   (0x06, decide (tL = 0 ∨ s.tim.now.toNat + 64000 ≤ tL)), (0x07, !t.pod || s.tim.state == 2 || s.tim.state == 4),
   (0x08, (c.st == .bound || c.st == .running) && c.admitted.isNone && !c.restoreBad && c.restore.isNone)]

/-- Every window of the programs of a slot that is open, or opens within the lead, with its unit. -/
def dueUnits (s : State) (x : Nat) : List UnitRef :=
  let now := s.tim.now.toNat
  let due := fun (o : Option Prog) => match o with
    | some g => ((s.windows x g).filter (fun w => decide (w.2.1 ≤ now + s.fld .timWakeLead 0 0 15 0 ∧ now < w.2.2))).map (fun w => w.1)
    | none => []
  due (s.ctx x).running ++ due (s.ctx x).admitted

/-- A calibration of a resource may run now: no program of the context of its partition runs, or no admitted record of the resource is active in the
next `len` nanoseconds (R329). -/
def mayCalibrate (s : State) (cls p idx len : Nat) : Bool :=
  let now := s.tim.now.toNat
  (match s.partSlot p with
    | none => true
    | some x => (s.ctx x).running.isNone) ||
  (s.others none).all (fun r => !(r.cls == cls && r.p == p && r.idx % 64 == idx && decide (r.lo < now + max 1 len ∧ now < r.hi)))

/-! ## Device time -/

/-- The slot of an unsequenced time-class flit as it leaves a link with the ACK and the credits that the port has to return (R353 to R356, R360). -/
def timeSlot (s : State) (n typ : Nat) (b : List Byte) : Out :=
  .slot n (onWire (s.link n).phase
    (slotBytes none { typ := typ, tc := 0, payload := b ++ List.replicate (64 - b.length) 0 } (s.link n).ackOut (s.link n).crdOut))

/-- A link over which a time-class flit can leave: up, with a credit of the class. -/
def timely (s : State) (n : Nat) : Bool := s.linkUp n && AMap.get 0 0 (s.link n).credits != 0

/-- A member of the synchronisation tree whose up link is `n` (R305). -/
def memberOn (s : State) (n : Nat) : Bool := s.role == 1 && s.fld .timSyncCfg 0 0 5 0 == n

/-- A time-class flit that fails its CRC is dropped: LNK_CNT[3], LNK_ERR.CRC and LNK_ERR.TIME_DROP (R354, R358). -/
def dropped (s : State) (n : Nat) : State := ((s.bump .lnkCnt n 3 1).orReg .lnkErr n 0 0x1).orReg .lnkErr n 0 0x80

/-- A multiple of 1,000,000 ns at which SYNC has not left: the instant itself, or the next one where a raised rate steps over it (R306). -/
def syncDue (s : State) : Bool :=
  let now := s.tim.now.toNat
  decide (now % 1000000 = 0 ∨ (now % 1000000 = 1 ∧ 0 < s.tim.rate)) &&
    s.tim.lastSent.all (fun w => w.toNat / 1000000 != now / 1000000)

/-- The LO and the HI register of a latched pair with their index, and the upper half at a moment. -/
def pairOf (s : State) : LatchPair → Reg × Reg × Nat × Nat × W32
  | .timNow => (.timNowLo, .timNowHi, 0, 0, s.tim.now.extractLsb' 32 32)
  | .timPpsCap => (.timPpsCapLo, .timPpsCapHi, 0, 0, s.reg .timPpsCapHi 0 0)
  | .timPromise x => (.timPromiseLo, .timPromiseHi, 0, x.val, BitVec.ofNat 32 ((s.progTimes x.val).1 / 2 ^ 32))
  | .timLaunch x => (.timLaunchLo, .timLaunchHi, 0, x.val, BitVec.ofNat 32 ((s.progTimes x.val).2 / 2 ^ 32))
  | .memUeAddr t => (.memUeAddrLo, .memUeAddrHi, t.val, 0, s.reg .memUeAddrHi t.val 0)
  | .sepCkDigest x => (.sepCkDigestLo, .sepCkDigestHi, 0, x.val, s.reg .sepCkDigestHi 0 x.val)
  | .gctCtxTime x => (.gctCtxTimeLo, .gctCtxTimeHi, 0, x.val, (s.ctx x.val).fault.time.extractLsb' 32 32)

/-! ## Stacks, Vat-write regions, host accesses, tier 3 -/

/-- A row's corrections within the running scrub period, before this one (R339). -/
def rowErrors (s : State) (st row : Nat) : Nat :=
  let v := s.stack st
  if v.period + s.fld .memCtrl st 0 15 8 * 3600000000000 ≤ s.tim.now.toNat then 0 else AMap.get 0 row v.rowErr

/-- Patrol scrub of a stack runs (R338). -/
def scrubs (s : State) (st : Nat) : Bool :=
  natBit (s.reg .memCtrl st 0).toNat 0 && decide (2 ≤ s.stage) && !(s.stack st).selfRefresh

/-- Scrub finds `f` in a unit of which the state holds no symbol in error, where it finds `g` (R338). -/
def finds (s : State) (a : Nat) (g f : ScrubFinding) : Prop := s.mem.finding (a / 64) = .clean ∧ f = g

/-- An entry of the region table that ARMED = 1 arms (R341). -/
def armable (s : State) (p i : Nat) : Prop :=
  let r := s.region p i
  let size := 2 ^ r.log2
  16 ≤ r.log2 ∧ r.log2 ≤ 36 ∧ r.base % size = 0 ∧ p * 0x5000000000 ≤ r.base ∧ r.base + size ≤ (p + 1) * 0x5000000000 ∧
  (∀ j, j < 16 → j ≠ i → (s.region p j).armed = true →
    r.base + size ≤ (s.region p j).base ∨ (s.region p j).base + 2 ^ (s.region p j).log2 ≤ r.base) ∧
  r.invalid = false ∧ (r.ownerSrc = 0x7F ∨ r.ownerSrc < (s.part r.ownerPart).logical.length) ∧
  ∃ x, s.partSlot p = some x ∧ s.partSlot r.ownerPart = some x

/-- A host access of `n` bytes at offset `o` of a window that reaches device physical address `a` within one unit (R431). -/
def reaches (s : State) (w : HostWindow) (o n a : Nat) : Prop :=
  s.hif.linkUp = true ∧ s.hif.d3hot = false ∧ 0 < n ∧ s.hostAddr w o n = some a ∧ a % 64 + n ≤ 64

/-- No error is logged in memory: ERR_CTRL.LOG_EN is clear. -/
def unlogged (s : State) : Prop := natBit (s.reg .errCtrl 0 0).toNat 0 = false

/-- A tier-3 request of a core that waits for it and takes its bytes into the core-local space, whole. -/
def awaited (s : State) (tag : Nat) (q : T3Req) (a : Nat) : Prop :=
  s.t3Find tag = some q ∧ q.tag = tag ∧ q.dst = [(false, a, 0, q.len)] ∧ (s.core q.core).xfers.any (fun t => t.t3.contains tag) = true

/-! ## Links -/

/-- A port with nothing queued. -/
def portIdle (s : State) (n : Nat) : Bool := (s.link n).queue.isEmpty

/-- The replay buffer of a port with the flits that an ACK covers dropped: those up to the flit that it names (R359). -/
def unacked (l : Link) (ack : Nat) : List (Nat × Flit) :=
  if l.replay.any (fun e => e.1 == ack) then (l.replay.dropWhile (fun e => e.1 != ack)).drop 1 else l.replay

/-- The resends in a row that stand after an ACK. -/
def resendsAfter (l : Link) (ack : Nat) : Nat := if l.replay.any (fun e => e.1 == ack) then 0 else l.resends

/-- RETRY_MAX of a link. -/
def retryMax (s : State) (n : Nat) : Nat := max 1 (s.fld .lnkCfg n 0 7 0)

/-- The slot of a flit as it leaves a port next, `i` slots after those that have left (R353 to R355). -/
def wireSlot (s : State) (n i : Nat) (seq : Option Nat) (f : Flit) (crd : Nat × Nat) : Out :=
  .slot n (onWire ((s.link n).phase + 72 * i) (slotBytes seq f (s.link n).ackOut crd))

/-- The replayed flits of a port, as they leave, with no credits. -/
def replayed (s : State) (n : Nat) (l : List (Nat × Flit)) : List Out := l.zipIdx.map (fun e => wireSlot s n e.2 (some e.1.1) e.1.2 (0, 0))

/-- The NAK that a port sends for a discarded flit: one until the expected flit arrives (R356, R359). -/
def nakOf (s : State) (n : Nat) : List Out :=
  if (s.link n).nakSent then [] else [wireSlot s n 0 none { typ := 4, tc := 0, payload := List.replicate 64 0 } (s.link n).crdOut]

/-- A buffer posted on a channel for messages of a source, not yet full. -/
def expects (s : State) (g : PutMsg) : Bool :=
  let v := s.chan g.slot.val g.ch.val
  v.posted && !v.full && v.src == g.src.toNat

/-- The pieces of a PUT_DATA in the posted buffer (R369, R370). -/
def putPieces (v : Chan) (g : PutMsg) : List Piece :=
  (payloads g.data).zipIdx.flatMap (fun p => placeRuns v.runs (g.offset + 64 * p.2) ((g.data.drop (64 * p.2)).take 64) (g.poison.getD p.2 false))

/-- The HEAD of a forwarded message as it goes on: as it came, with HPTR + 1 (R362). -/
def onward (g : RawMsg) : Flit :=
  { typ := 1, tc := g.tc.val
    payload := ({ dst := g.dst.toNat, src := g.src.toNat, hops := g.hops, hptr := g.hptr + 1, route := g.route.map (fun r => r.val), msg := g.msg.toNat
                  ctx := g.ctx.toNat, ch := g.ch.toNat, tag := g.tag.toNat, stage := g.stage.toNat, offset := g.offset.toNat, mseq := g.mseq.toNat
                  ndata := (payloads g.data).length } : Head).bytes }

/-- A flit header, its fields by their bits (R355). -/
def headerOf (typ tc : Nat) (po : Bool) (seq ack crdTc crdN : Nat) : W32 :=
  (BitVec.ofNat 3 crdN ++ BitVec.ofNat 2 crdTc ++ BitVec.ofNat 10 ack ++ BitVec.ofNat 10 seq ++ BitVec.ofNat 1 po.toNat ++ BitVec.ofNat 2 tc ++
    BitVec.ofNat 4 typ).cast rfl

/-! ## Tests, replays, comparisons, health -/

/-- The risk score of R422 from the stresses of the seven classes. -/
def riskOf (s : State) : Nat :=
  let l := (List.range 7).map (fun c => s.classStress c)
  min 255 (l.foldl max 0 + (l.foldl (· + ·) 0 - l.foldl max 0) / 4)

/-- Readings taken one by one: the last of an instance stands (R421). -/
def sensed (s : State) (l : List SensorReading) : State :=
  s.setOch { s.och with sensors := l.foldl (fun (m : AMap Nat) r => AMap.put (rawNew r.cls) (sensorKey r.cls r.part.val r.inst) r.raw m) s.och.sensors }

/-- Whether Ochre derates a partition now: DERATE_EN, a stress of class 0 or 1 at the threshold, k above 8, none within a day (R424). -/
def derates (s : State) (p : Nat) : Bool :=
  let last := AMap.get 0 p s.och.lastDerate
  natBit (s.reg .ochDerate 0 0).toNat 0 && decide (s.fld .ochDerate 0 0 15 8 ≤ max (s.partStress 0 p) (s.partStress 1 p)) &&
  decide (8 < (s.part p).kOchre) && (last == 0 || decide (last - 1 + 86400000000000 ≤ s.tim.now.toNat))

/-- The digest of a test pass: of operands drawn on the test seed and the stream TEST, with STEP the pass number and COORD the operand's index, changed
by a defect of the core (R159, R162, R389; log entry 133). -/
def digestOf (s : State) (r : TestResult) : W64 :=
  Config.testDigest ((List.range Config.testOperands).map (fun i =>
    kermesAt (s.reg .krmTestSeedHi 0 0 ++ s.reg .krmTestSeedLo 0 0) 0xFFFFFFFF00000007#64 r.pass.toNat 0 0 i)) ^^^ r.flaw

/-- A status that replays a step, when no pinned unit is poisoned for POISON_CONSUMED (R405, log entry 92). -/
def replayable (s : State) (x : Nat) : Prop :=
  (s.ctx x).status = stSdc ∨ (s.ctx x).status = stTriple ∨ ((s.ctx x).status = stPoison ∧ s.pinsPoisoned x = false)

/-- Every member of a slot's check group has reported for its last commit. -/
def allIn (s : State) (x : Nat) : Bool := (s.ckGroup x).all (fun g => ((s.ctx x).reports).any (fun d => d.1 == g))

/-- The digest of a member for a step joined to those of a slot. -/
def withDigest (s : State) (x m : Nat) (step : W32) (d : W64) : State :=
  s.setCtx x { s.ctx x with digests := (s.ctx x).digests.filter (fun e => !(e.1 == m && e.2.1 == step)) ++ [(m, step, d)] }

/-! ## Resets -/

/-- A word of the boot record: KIND of UMB_RST_CAUSE. -/
def kindOf (s : State) : Nat := s.fld .umbRstCause 0 0 2 0

/-- The state `t` that a warm reset of a kind leaves of `s` (R387, R448, R449, R451). -/
def warmed (s t : State) (kind : Nat) : Prop :=
  t.stage = 0 ∧ t.tim.now = s.tim.now ∧ kindOf t = kind ∧
  t.fld .umbRstCause 0 0 15 8 = min 255 (s.fld .umbRstCause 0 0 15 8 + 1) ∧ t.unlocked = [] ∧ t.host = s.host ∧
  (∀ x, x < 4 → (s.ctx x).st = .free → (t.ctx x).st = .free) ∧
  (∀ x, x < 4 → (s.ctx x).st ≠ .free → (t.ctx x).st = .halted ∧ (t.ctx x).parts = (s.ctx x).parts ∧ (t.ctx x).stepno = (s.ctx x).stepno) ∧
  (∀ x, x < 4 → (s.ctx x).st = .bound ∨ (s.ctx x).st = .running → (t.ctx x).status = stReset) ∧
  ((∀ p, p < 4 → s.ilv p = true) → ∀ a p off, locOf a = .mem p off → t.mem.byte a = s.mem.byte a ∧ t.mem.poAt a = s.mem.poAt a) ∧
  (∀ a p off, locOf a = .store p off → t.mem.byte a = 0 ∧ t.mem.poAt a = false) ∧
  (∀ n, n < 400 → (t.core n).imem = [] ∧ (t.core n).lastTest = (s.core n).lastTest) ∧
  (∀ i, i < 20 → (t.stack i).selfRefresh = true ∧ (t.stack i).vwSeed = 0) ∧ (∀ n, n < 48 → t.linkState n = 0)

/-- A warm reset can start: the device has booted or is in recovery, power is good, no thermal trip holds (R448, R451, R462). -/
def mayWarm (s : State) : Bool := !s.mgmt.powerOn && !s.pwr.tripped && (decide (1 ≤ s.stage) || s.mgmt.recovery)

/-- No program of any slot is admitted, so that no withdrawal is recorded. -/
def noneAdmitted (s : State) : Prop := ∀ x, x < 4 → (s.ctx x).admitted = none

/-! ## Boot, power, heat -/

/-- What UMB_PART_PWR asks of a partition: 1 IDLE, 2 RET, 3 OFF, 0 nothing. -/
def asked (v : W32) (p : Nat) : Nat := bitsOf v (2 * p + 1) (2 * p)

/-- An interval's power lies above the limit less its guard, or below the limit less four guards, in mW (R461). -/
def overPower (s : State) (mw : Nat) : Bool := decide (s.fld .umbPwrLimit 0 0 15 0 * 1000 - s.fld .umbPwrLimit 0 0 23 16 * 1000 < mw)
/-- Below the limit less four guards. -/
def underPower (s : State) (mw : Nat) : Bool := decide (mw < s.fld .umbPwrLimit 0 0 15 0 * 1000 - 4 * (s.fld .umbPwrLimit 0 0 23 16 * 1000))

/-- Every regulator answers and reports no fault (R470). -/
def allAnswer (s : State) : Prop := ∀ p, p < 4 → (s.part p).regBad = false

/-! ## Management and BAR0 -/

/-- Firmware runs and no recovery: every message type of R442 is answered. -/
def manages (s : State) : Bool := decide (1 ≤ s.stage) && !s.mgmt.recovery

/-- MCTP control and firmware update are answered, in recovery too (R440). -/
def updates (s : State) : Bool := decide (1 ≤ s.stage) || s.mgmt.recovery

/-- The registers whose write does more than its access codes say. -/
def startsMore : Reg → Bool
  | .timSetHi | .timCtrl | .memPartCfg | .timEvqPtr | .memVwrCtrl | .hifT3Lo | .hifT3Hi | .hifQCfg | .hifSqDb | .hifCqDb | .hifDbgCtrl | .hifDbgToken | .indCtrl
  | .indEditHi | .sepCmd | .umbCtrl | .umbPartPwr | .lnkCtrl | .lnkCrdAlloc | .wldCtrl | .wldProgData | .gctEvtMask | .krmCtxSeedLo | .krmCtxSeedHi
  | .krmCtxChkLo | .krmCtxChkHi | .krmVwSeedLo | .krmVwSeedHi => true
  | _ => false

/-- A HIF register's block and a KRM register's block answer. -/
def hifOpen (s : State) : Bool := s.blkOpen .hif 0
/-- The KRM block answers. -/
def krmOpen (s : State) : Bool := s.blkOpen .krm 0

/-! ## The whole machine -/

/-- Context `x` of `t` drains with a status that the instruction at the PC of core `k` in `s` has raised (R252, R301, R490). -/
def endsWith (s t : State) (k : CoreId) (x status : Nat) : Prop :=
  (t.ctx x).st = .draining ∧ (t.ctx x).status = status ∧ (t.ctx x).running = none ∧ (t.ctx x).fault.valid = true ∧
  (t.ctx x).fault.word = (s.core k.key).pc ∧ (t.ctx x).fault.part = k.part.val ∧ (t.ctx x).fault.pcore = k.phys.val ∧
  (t.ctx x).fault.time = s.tim.now ∧ ∀ n, n ∈ s.ctxCores x → (t.core n).epochs = [] ∧ (t.core n).xfers = [] ∧ (t.core n).vat = []

/-- A core with no epoch of its own open. -/
def noEpoch (s : State) (k : CoreId) : Bool := (s.core k.key).cur.isNone && (s.core k.key).epochs.isEmpty

/-- The V slots, whose predicate acts lane by lane (R276). -/
def lanewise : Instr → Bool
  | .vadd _ | .vsub _ | .vmul _ | .vfma _ | .vmax _ | .vmin _ | .vcmp _ | .vsel _ | .viadd _ | .visub _ | .vimul _ | .vand _ | .vor _
  | .vxor _ | .vshl _ | .vshr _ | .vsar _ | .vicmp _ | .viota _ | .vbcast _ | .vcvt _ | .vld _ | .vst _ | .vext _ | .vins _ | .vexp _
  | .vexp2 _ | .vlog _ | .vlog2 _ | .vrcp _ | .vrsq _ | .vsqrt _ | .vdiv _ | .vcos _ | .vsin _ | .vact _ | .vactD _ | .vactDi _
  | .vred _ | .vrng _ | .vosmI _ | .vosmM _ | .vosmL _ | .vosmF _ | .vosmS _ => true
  | _ => false

/-- Both memories of the block stand in their canonical form, and `t` is the same part as `s` (log entry 8). -/
def canonical (s : State) : Prop := s.mem.wf = true ∧ s.host.wf = true

end Sys2Proof.Claim

open Sys2Proof Sys2Proof.Machine Sys2Proof.Claim

/-- Every scalar, compare and predicate row of R280, on a core that issues: RD or PD takes the value of the table with the poison of the sources,
every bit of PD for a compare, the PC moves on, and nothing else changes; where the predicate says so, nothing is written (R276). JMP, JR, CALL
and LOOP on operands that are not poisoned: the wide instruction goes on at the target, CALL saves the next word's address, LOOP counts its
register down. -/
def Obligations.ScalarPredicateAndBranchSlots : Prop :=
  (∀ (s : State) (k : CoreId) (x : Nat) (neg : Bool) (p : Fin 16) (d a b : Fin 64) (pd pa pb : Fin 16) (imm : W64) (z : Bool)
     (e : Instr × W64 × Bool),
     runs s k x = true →
       (e ∈ scalarRows (hdr k p neg) d a b imm (sr s k a) (sr s k b) →
         (predIs s (hdr k p neg) true = true →
           exec e.1 s = .next (wrote s (hdr k p neg) [.s d.val e.2.1 e.2.2] none)) ∧
         (predIs s (hdr k p neg) false = true →
           exec e.1 s = .next (wrote s (hdr k p neg) [] none))) ∧
       (e ∈ predicateRows (hdr k p neg) pd a b pa pb imm z (sr s k a) (sr s k b) (pr s k pa) (pr s k pb) →
         (predIs s (hdr k p neg) true = true →
           exec e.1 s = .next (wrote s (hdr k p neg) [.p pd.val e.2.1 e.2.2] none)) ∧
         (predIs s (hdr k p neg) false = true →
           exec e.1 s = .next (wrote s (hdr k p neg) [] none)))) ∧
  (∀ (s : State) (k : CoreId) (x : Nat) (neg : Bool) (p : Fin 16) (d a : Fin 64) (t : BitVec 12)
     (e : Instr × List RegW × Option (BitVec 12)),
     runs s k x = true → e ∈ branchRows (hdr k p neg) d a t (s.core k.key).pc (sr s k a).1 (sr s k d).1 →
     (sr s k a).2 = false → (sr s k d).2 = false →
       (predIs s (hdr k p neg) true = true →
         exec e.1 s = .next (wrote s (hdr k p neg) e.2.1 e.2.2)) ∧
       (predIs s (hdr k p neg) false = true →
         exec e.1 s = .next (wrote s (hdr k p neg) [] none)))

/-- CRD reads the control register that IMM names; with no epoch open EPOCH and HORIZON read an open value (log entry 33). CWR writes LEVELSEL
from RA, and CLVL takes it from byte 2 of the layer record that IMM names, in reference mode as level 2 (R204). The model's own choices in it:
log entry 33. -/
def Obligations.ControlRegisterSlots : Prop :=
  ∀ (s : State) (k : CoreId) (x l : Nat) (neg : Bool) (p : Fin 16) (d a : Fin 64) (imm : W64),
    runs s k x = true → predIs s (hdr k p neg) true = true → s.lcore k.key = some l →
      (∀ e, e ∈ controlRows s k x l →
        exec (.crd { i := hdr k p neg, rd := d, imm := BitVec.ofNat 64 e.1 }) s =
          .next (wrote s (hdr k p neg) [.s d.val e.2 false] none)) ∧
      (∀ t, (s.core k.key).cur = some t →
        exec (.crd { i := hdr k p neg, rd := d, imm := 5 }) s =
          .next (wrote s (hdr k p neg) [.s d.val (BitVec.ofNat 64 (t + if (s.core k.key).epochs = [] then 0 else 4)) false] none)) ∧
      (∀ e es, (s.core k.key).epochs = e :: es →
        exec (.crd { i := hdr k p neg, rd := d, imm := 6 }) s =
          .next (wrote s (hdr k p neg) [.s d.val (BitVec.ofNat 64 e.tag) false] none)) ∧
      ((s.core k.key).cur = none → ∃ v : W64, v.toNat / 4 = (if (s.core k.key).epochs = [] then 0 else 1) ∧
        exec (.crd { i := hdr k p neg, rd := d, imm := 5 }) s =
          .next (wrote { s with free := s.free + 1 } (hdr k p neg) [.s d.val v false] none)) ∧
      exec (.cwr { i := hdr k p neg, ra := a, imm := 7 }) s = .next (wrote s (hdr k p neg) [.level (sr s k a).1] none) ∧
      (imm.toNat < 2 ^ 16 → s.ctxRange x (s.recAddr k.key imm.toNat) 64 = true → s.devPo (s.recAddr k.key imm.toNat) 64 = false →
        exec (.clvl { i := hdr k p neg, imm := imm }) s =
          .next (wrote (s.nameLayer x imm.toNat) (hdr k p neg)
            [.level (if (s.ctx x).refmode then 2 else BitVec.ofNat 64 (s.devNum (s.recAddr k.key imm.toNat + 2) 1 % 4))] none))

/-- The address of a descriptor and the logical origin of a tile are moved by TADDR, modulo 2⁴⁸, and TORG, modulo 2²⁰; every other bit of the
descriptor stays (R277, R280). TLD, TST, LDS and STS move 32 or 8 bytes between a register and the operand store at RA + IMM, lowest byte first,
with their poison; a store changes no byte outside the bytes stored to, and nothing else of the block but the end of its wide instruction (R280,
R382). With an epoch open STS stores at once only into a declared speculative region; else the current epoch holds it to its commit, and the
store is unchanged (R257, R299). -/
def Obligations.DescriptorAndLocalStoreSlots : Prop :=
  (∀ (s : State) (k : CoreId) (x : Nat) (neg : Bool) (p : Fin 16) (d a b : Fin 64),
     runs s k x = true → d.val < 32 → predIs s (hdr k p neg) true = true →
       (∃ v, exec (.taddr { i := hdr k p neg, rd := d, ra := a }) s =
           .next (wrote s (hdr k p neg) [.t d.val v ((tr s k d.val).2 || (sr s k a).2)] none) ∧
         v.extractLsb' 0 48 = (tr s k d.val).1.extractLsb' 0 48 + (sr s k a).1.setWidth 48 ∧
         v.extractLsb' 48 208 = (tr s k d.val).1.extractLsb' 48 208) ∧
       (∃ v, exec (.torg { i := hdr k p neg, rd := d, ra := a, rb := b }) s =
           .next (wrote s (hdr k p neg) [.t d.val v ((tr s k d.val).2 || (sr s k a).2 || (sr s k b).2)] none) ∧
         v.extractLsb' 176 20 = (tr s k d.val).1.extractLsb' 176 20 + (sr s k a).1.setWidth 20 ∧
         v.extractLsb' 196 20 = (tr s k d.val).1.extractLsb' 196 20 + (sr s k b).1.setWidth 20 ∧
         v.extractLsb' 0 176 = (tr s k d.val).1.extractLsb' 0 176 ∧ v.extractLsb' 216 40 = (tr s k d.val).1.extractLsb' 216 40)) ∧
  (∀ (s : State) (k : CoreId) (x o : Nat) (neg : Bool) (p : Fin 16) (d a : Fin 64) (imm : W64),
     runs s k x = true → predIs s (hdr k p neg) true = true →
       (localAt s k a imm 32 o = true → d.val < 32 →
         (∃ v : BitVec 256, (∀ j, j < 32 → v.extractLsb' (8 * j) 8 = (s.core k.key).loc.byte (o + j)) ∧
           exec (.tld { i := hdr k p neg, rd := d, ra := a, imm := imm }) s =
             .next (wrote s (hdr k p neg) [.t d.val v ((s.core k.key).loc.poAt o)] none)) ∧
         (∃ m : Mem, (∀ j, j < 32 → m.byte (o + j) = (tr s k d.val).1.extractLsb' (8 * j) 8) ∧
           (∀ b, b < o ∨ o + 32 ≤ b → m.byte b = (s.core k.key).loc.byte b) ∧
           exec (.tst { i := hdr k p neg, rd := d, ra := a, imm := imm }) s =
             .next (wrote (withStore s k m) (hdr k p neg) [] none))) ∧
       (localAt s k a imm 8 o = true →
         (∃ v : W64, (∀ j, j < 8 → v.extractLsb' (8 * j) 8 = (s.core k.key).loc.byte (o + j)) ∧
           exec (.lds { i := hdr k p neg, rd := d, ra := a, imm := imm }) s =
             .next (wrote s (hdr k p neg) [.s d.val v ((s.core k.key).loc.poAt o)] none)) ∧
         ((s.core k.key).epochs = [] ∨ (∀ j, j < 8 → s.inRegion k.key x false (o + j) = true) →
           ∃ m : Mem, (∀ j, j < 8 → m.byte (o + j) = (sr s k d).1.extractLsb' (8 * j) 8) ∧
           (∀ b, b < o ∨ o + 8 ≤ b → m.byte b = (s.core k.key).loc.byte b) ∧
           exec (.sts { i := hdr k p neg, rd := d, ra := a, imm := imm }) s =
             .next (wrote (withStore s k m) (hdr k p neg) [] none)) ∧
         (∀ t, (s.core k.key).cur = some t → (∃ e, e ∈ (s.core k.key).epochs ∧ e.tag = t) →
           (∀ j, j < 8 → s.inRegion k.key x false (o + j) = true) ∨
           exec (.sts { i := hdr k p neg, rd := d, ra := a, imm := imm }) s =
             .next (wrote (s.setCore k.key ((s.core k.key).holdIn
               { h := .write false [{ addr := o, data := leBytes 8 (sr s k d).1.toNat, po := (sr s k d).2 }], word := (s.core k.key).pc, slot := 0,
                 op := 0x39 })) (hdr k p neg) [] none))))

/-- CSPEC opens an epoch with a tag that no open epoch has, the snapshot of every register file and the restart address; CCOMMIT ends the
instructions of the current epoch at the device time; CCOMMIT.STEP waits for the step commit; the HALT of a core whose fellows have not all ended
marks the core, and the last HALT makes the context BOUND with no program (R251, R254, R255, R260). The model's own choices in it: log entries 7
and 36. -/
def Obligations.EpochAndProgramEndSlots : Prop :=
  ∀ (s : State) (k : CoreId) (x : Nat) (neg : Bool) (p : Fin 16) (t : BitVec 12) (imm : W64),
    runs s k x = true → predIs s (hdr k p neg) true = true → imm.toNat < 2 ^ 24 →
      ((s.core k.key).epochs.length < 3 → (s.ctx x).save = none →
        ∃ e : Epoch, e.tag < 4 ∧ (∀ q, q ∈ (s.core k.key).epochs → q.tag ≠ e.tag) ∧ e.run.layer = imm.extractLsb' 0 16 ∧
          e.run.mb = imm.extractLsb' 16 8 ∧ e.restart = t ∧ e.ccommit = none ∧ e.verdict = none ∧ e.held = [] ∧ e.undo = [] ∧
          e.snap = { s := (s.core k.key).s, p := (s.core k.key).p, v := (s.core k.key).v, t := (s.core k.key).t,
                     level := (s.core k.key).level } ∧
          exec (.cspec { i := hdr k p neg, tgt := t, imm := imm }) s =
            .next (wrote ((s.setCore k.key
              { s.core k.key with epochs := (s.core k.key).epochs ++ [e], cur := some e.tag, nextTag := (e.tag + 1) % 4 }).setCtx x
                { s.ctx x with forward := true }) (hdr k p neg) [] none)) ∧
      exec (.ccommit { i := hdr k p neg }) s =
        .next (wrote (s.setCore k.key { s.core k.key with
            cur := none
            epochs := (s.core k.key).epochs.map (fun e => if (s.core k.key).cur = some e.tag then { e with ccommit := some s.tim.now } else e) })
          (hdr k p neg) [] none) ∧
      ((s.core k.key).cur = none → (s.core k.key).epochs = [] → (s.core k.key).rel = [] →
        exec (.ccommitStep { i := hdr k p neg }) s =
          .next (s.setCore k.key { ends (s.core k.key) [] none with wait := .step }) ∧
        ((∃ n, n ∈ s.ctxCores x ∧ n ≠ k.key ∧ (s.core n).halted = false) →
          exec (.halt { i := hdr k p neg }) s =
            .next (wrote (s.setCore k.key { s.core k.key with halted := true }) (hdr k p neg) [] none)) ∧
        ((∀ n, n ∈ s.ctxCores x → n ≠ k.key → (s.core n).halted = true) →
          ∃ u, exec (.halt { i := hdr k p neg }) s = .next u ∧ (u.core k.key).halted = true ∧ (u.ctx x).st = .bound ∧
            (u.ctx x).running = none))

/-- Every arithmetic row of R283 that a core issues: an active lane of VD takes the value of the table with the poison of its operands, rounded
once where the result is a floating-point one; an inactive lane keeps its value. VCMP and VICMP write the bits of PD of the active lanes and keep
the others; VSEL takes VA where the bit of PD is 1 and VB where it is 0; VIOTA writes lane numbers, VBCAST the low word of SA; VEXT moves one
lane to SB and VINS one lane from SA, where that lane is active. -/
def Obligations.VectorSlotsComputeCompareAndMove : Prop :=
  (∀ (s : State) (k : CoreId) (x : Nat) (neg fz sat : Bool) (p : Fin 16) (rnd : Fin 8) (d a b c : Fin 64)
     (e : Instr × (Lane → Lane → Lane → Lane)),
     runs s k x = true → predClean s (hdr k p neg) = true → rnd.val < 4 → e ∈ vectorRows k p neg rnd fz sat d a b c →
       exec e.1 s = .next (wrote (engine s k) (hdr k p neg)
         [.v d.val (outLanes s k p neg d.val (fun l => e.2 (vl s k a.val l) (vl s k b.val l) (vl s k c.val l)))] none)) ∧
  (∀ (s : State) (k : CoreId) (x : Nat) (neg : Bool) (p pd : Fin 16) (d a b lane : Fin 64) (fn : Byte),
     runs s k x = true → predClean s (hdr k p neg) = true → fn.toNat < 5 →
       (∀ e, e ∈ compareRows (hdr k p neg) pd a b fn → ∃ v : W64,
         (∀ l, l < 64 → v.getLsbD l =
           if on s k p neg l then e.2 (vl s k a.val l).1 (vl s k b.val l).1 else (pr s k pd).1.getLsbD l) ∧
         exec e.1 s = .next (wrote (engine s k) (hdr k p neg) [.p pd.val v
           ((lanesOn s k p neg).any (fun l => (vl s k a.val l).2 || (vl s k b.val l).2) ||
             ((pr s k pd).2 && !(List.range 64).all (fun l => on s k p neg l)))] none)) ∧
       exec (.vsel { i := hdr k p neg, vd := d, va := a, vb := b, pd := pd }) s =
         .next (wrote (engine s k) (hdr k p neg) [.v d.val (outLanes s k p neg d.val (fun l =>
           let q := vl s k (if (pr s k pd).1.getLsbD l then a.val else b.val) l
           (q.1, q.2 || (pr s k pd).2)))] none) ∧
       exec (.viota { i := hdr k p neg, vd := d }) s =
         .next (wrote (engine s k) (hdr k p neg) [.v d.val (outLanes s k p neg d.val (fun l => (BitVec.ofNat 32 l, false)))] none) ∧
       exec (.vbcast { i := hdr k p neg, vd := d, sa := a }) s =
         .next (wrote (engine s k) (hdr k p neg)
           [.v d.val (outLanes s k p neg d.val (fun _ => ((sr s k a).1.setWidth 32, (sr s k a).2)))] none) ∧
       exec (.vext { i := hdrR k p neg 0 false false false true, sb := b, va := a, lane := lane }) s =
         .next (wrote (engine s k) (hdr k p neg)
           (if on s k p neg lane.val then [.s b.val ((vl s k a.val lane.val).1.setWidth 64) (vl s k a.val lane.val).2] else []) none) ∧
       exec (.vins { i := hdrR k p neg 0 false false false true, vd := d, sa := a, lane := lane }) s =
         .next (wrote (engine s k) (hdr k p neg)
           [.v d.val (outLanes s k p neg d.val (fun l =>
             if l = lane.val then ((sr s k a).1.setWidth 32, (sr s k a).2) else vl s k d.val l))] none))

/-- VLD reads 64 elements of the operand store in each of its three access modes, widened exactly; VST stores the active lanes rounded to FMT
there and changes no other byte of the operand store, or leaves its pieces to the commit of the current epoch where one is open and a byte lies
outside the declared speculative regions (R257); VCVT rounds the active lanes in the register. Stochastic rounding takes its 16 bits from the
conversion stream of Kermes at the tensor IMM16 and the coordinate SB + l; nothing else draws bits, and only an FP8-E4M3 target counts
saturations. The model's own choices in it: log entries 43 and 44. -/
def Obligations.VectorMemoryAndConversion : Prop :=
  ∀ (s : State) (k : CoreId) (x : Nat) (neg fz sat : Bool) (p : Fin 16) (rnd : Fin 8) (mode : Fin 4) (fmt : Fin 16) (imm : BitVec 16)
    (d a va sb : Fin 64),
    runs s k x = true → predClean s (hdr k p neg) = true → rnd.val ≤ 4 → (rnd ≠ 4 → sb = 0) →
      let bits := fun l => if rnd = 4 then (kermesAt (s.ctxSeed x) streamConvert (s.ctx x).stepno.toNat imm.toNat 0 ((sr s k sb).1.toNat + l)).1.toNat % 65536 else 0
      (laneAddrOk s k mode fmt imm a = true →
        exec (.vld { i := hdrR k p neg 0 false false false (decide (mode ≠ 0)), vd := d, sa := a, imm16 := imm, mode := mode, fmt := fmt }) s =
          .next (wrote (engine s k) (hdr k p neg) [.v d.val (outLanes s k p neg d.val (fun l =>
            let q := laneAddr mode fmt imm (sr s k a).1 l
            let w := (s.core k.key).loc.num q (elemBytes fmt)
            (f32r .rne false (plainValue fmt.val w), (s.core k.key).loc.readPo q (elemBytes fmt))))] none)) ∧
      let hv := hdrR k p neg rnd false fz false (decide (mode ≠ 0))
      let image := fun l => let c := (laneConv fmt.val hv (bits l) (vl s k va.val l).1).code
        if fmt = 1 then c * 2 ^ 13 else c
      let inside := fun l j => s.inRegion k.key x false (laneAddr mode fmt imm (sr s k a).1 l + j)
      (laneAddrOk s k mode fmt imm a = true → (rnd = 4 → fmt ≠ 0) →
        ((s.core k.key).epochs = [] ∨ (∀ l j, l ∈ lanesOn s k p neg → j < elemBytes fmt → inside l j = true) →
          ∃ (m : Mem) (n : Nat), (rnd ≠ 4 → n = 0) ∧
          (∀ o, (∀ l, l ∈ lanesOn s k p neg → ¬ (laneAddr mode fmt imm (sr s k a).1 l ≤ o ∧ o < laneAddr mode fmt imm (sr s k a).1 l + elemBytes fmt)) →
            m.byte o = (s.core k.key).loc.byte o) ∧
          (∀ l j, l ∈ lanesOn s k p neg → j < elemBytes fmt →
            m.byte (laneAddr mode fmt imm (sr s k a).1 l + j) = BitVec.ofNat 8 (image l / 2 ^ (8 * j))) ∧
          exec (.vst { i := hv, va := va, sa := a, sb := sb, imm16 := imm, mode := mode, fmt := fmt }) s =
            .next (wrote ((withStore (engine s k) k m).evalsUp 0 n) (hdr k p neg) [] none)) ∧
        (∀ t, (s.core k.key).cur = some t → (∃ e, e ∈ (s.core k.key).epochs ∧ e.tag = t) →
          (∀ l j, l ∈ lanesOn s k p neg → j < elemBytes fmt → inside l j = true) ∨
          ∃ n : Nat, (rnd ≠ 4 → n = 0) ∧
          exec (.vst { i := hv, va := va, sa := a, sb := sb, imm16 := imm, mode := mode, fmt := fmt }) s =
            .next (wrote (((engine s k).evalsUp 0 n).setCore k.key (((engine s k).core k.key).holdIn
              { h := .write false ((lanesOn s k p neg).map (fun l =>
                  { addr := laneAddr mode fmt imm (sr s k a).1 l, data := leBytes (elemBytes fmt) (image l),
                    po := (vl s k va.val l).2 || (decide (rnd = 4) && (sr s k sb).2) })),
                word := (s.core k.key).pc, slot := 1, op := 0x22 })) (hdr k p neg) [] none))) ∧
      (fmt.val < 7 → (rnd = 3 → fmt.val < 4) → (rnd = 4 → fmt ≠ 0) → (rnd ≠ 4 → imm = 0) →
        ∃ n u : Nat, (fmt ≠ 4 → n = 0) ∧ (rnd ≠ 4 → u = 0) ∧
        exec (.vcvt { i := hdrR k p neg rnd sat fz false false, vd := d, va := va, fmt := fmt, sb := sb, imm16 := imm }) s =
          .next (wrote (((engine s k).bump .morCnt k.key 0 n).evalsUp 0 u) (hdr k p neg) [.v d.val (outLanes s k p neg d.val (fun l =>
            (BitVec.ofNat 32 (laneConv fmt.val (hdrR k p neg rnd sat fz false false) (bits l) (vl s k va.val l).1).code,
              (vl s k va.val l).2 || (decide (rnd = 4) && (sr s k sb).2))))] none))

/-- The function pipe: each function gives, in every active lane, the correctly rounded value of the exact function or, outside the CR form and a
context in reference mode, another value within the bound of R175; VSQRT, outside the CR form, and VDIV are correctly rounded in the rounding
field; FZ flushes. The model's own choices in it: log entries 20, 23 and 45. -/
def Obligations.FunctionPipeStaysWithinItsBound : Prop :=
  ∀ (s : State) (k : CoreId) (x : Nat) (neg fz cr : Bool) (p : Fin 16) (rnd : Fin 8) (d a b : Fin 64),
    runs s k x = true → predClean s (hdr k p neg) = true → rnd.val < 4 →
      (∀ e, e ∈ functionRows (hdrR k p neg rnd false fz cr false) d a → ∃ r : Nat → W32,
        (∀ l, within175 (cr || (s.ctx x).refmode) e.2.1 e.2.2.1 (e.2.2.2 (f32v (vl s k a.val l).1)) (r l)) ∧
        exec e.1 s = .next (wrote (engine s k) (hdr k p neg)
          [.v d.val (outLanes s k p neg d.val (fun l => (flushed fz (r l), (vl s k a.val l).2)))] none)) ∧
      exec (.vsqrt { i := hdrR k p neg rnd false fz cr false, vd := d, va := a }) s =
        .next (wrote (engine s k) (hdr k p neg)
          [.v d.val (outLanes s k p neg d.val (fun l => (f32r (if cr || (s.ctx x).refmode then .rne else Rnd.ofCodeD rnd.val) fz (exSqrt (f32v (vl s k a.val l).1)), (vl s k a.val l).2)))] none) ∧
      exec (.vdiv { i := hdrR k p neg rnd false fz cr false, vd := d, va := a, vb := b }) s =
        .next (wrote (engine s k) (hdr k p neg)
          [.v d.val (outLanes s k p neg d.val (fun l =>
            (f32r (Rnd.ofCodeD rnd.val) fz (FV.div (f32v (vl s k a.val l).1) (f32v (vl s k b.val l).1)),
              (vl s k a.val l).2 || (vl s k b.val l).2)))] none)

/-- VACT gives the activation of its code, rounded once where it is a selection or a product, else within 2 ulp, or within 4 ulp and 2⁻²³ for the
codes from 0x10; VACT.D and VACT.DI multiply dy by the derivative, and for LRELU and ELU an α that is not positive and finite makes the product
the canonical NaN (R183, R184). The model's own choices in it: log entries 20, 23 and 45. -/
def Obligations.ActivationSlots : Prop :=
  ∀ (s : State) (k : CoreId) (x : Nat) (neg fz cr : Bool) (p : Fin 16) (rnd : Fin 8) (d a b al : Fin 64) (fn : Byte),
    runs s k x = true → predClean s (hdr k p neg) = true → rnd.val < 4 →
    (fn.toNat ≤ 8 ∨ (0x10 ≤ fn.toNat ∧ fn.toNat ≤ 0x12)) →
      let h := hdrR k p neg rnd false fz cr false
      let alpha : W32 := (sr s k al).1.setWidth 32
      let usesAlpha := fn.toNat == 2 || fn.toNat == 5
      (∃ r : Nat → W32,
        (∀ l, selects fn.toNat (vl s k a.val l).1 = true →
          r l = f32r (if cr || (s.ctx x).refmode then .rne else Rnd.ofCodeD rnd.val) false (exAct fn.toNat (f32v alpha) (f32v (vl s k a.val l).1))) ∧
        (∀ l, selects fn.toNat (vl s k a.val l).1 = false →
          within175 (cr || (s.ctx x).refmode) (if fn.toNat < 0x10 then 2 else 4) (if fn.toNat < 0x10 then none else some (-23))
            (exAct fn.toNat (f32v alpha) (f32v (vl s k a.val l).1)) (r l)) ∧
        exec (.vact { i := h, vd := d, va := a, sa := al, fn := fn }) s = .next (wrote (engine s k) (hdr k p neg)
          [.v d.val (outLanes s k p neg d.val (fun l => (flushed fz (r l), (vl s k a.val l).2 || ((sr s k al).2 && usesAlpha))))] none)) ∧
      (∃ r : Nat → W32,
        (∀ l, within175 (cr || (s.ctx x).refmode) (if fn.toNat < 0x10 then 2 else 4) (if fn.toNat < 0x10 then none else some (-23))
          (exActD fn.toNat (f32v alpha) (f32v (vl s k b.val l).1)) (r l)) ∧
        exec (.vactDi { i := h, vd := d, va := a, vb := b, sa := al, fn := fn }) s = .next (wrote (engine s k) (hdr k p neg)
          [.v d.val (outLanes s k p neg d.val (fun l =>
            (if usesAlpha && !alphaOk alpha then 0x7FC00000 else f32r (Rnd.ofCodeD rnd.val) fz (FV.mul (f32v (vl s k a.val l).1) (f32v (r l))),
              (vl s k a.val l).2 || (vl s k b.val l).2 || ((sr s k al).2 && usesAlpha))))] none)) ∧
      (fn.toNat ≤ 8 →
        exec (.vactD { i := h, vd := d, va := a, vb := b, sa := al, fn := fn }) s = .next (wrote (engine s k) (hdr k p neg)
          [.v d.val (outLanes s k p neg d.val (fun l =>
            (if usesAlpha && !alphaOk alpha then 0x7FC00000
              else f32r (Rnd.ofCodeD rnd.val) fz (FV.mul (f32v (vl s k a.val l).1)
                (f32v (actDerOut (cr || (s.ctx x).refmode) fn.toNat alpha (vl s k b.val l).1))),
              (vl s k a.val l).2 || (vl s k b.val l).2 || ((sr s k al).2 && usesAlpha))))] none))

/-- VRED reduces the elements 0 to SA − 1 of VA, VA + 1, … whose lanes are active, in the fixed order of R113 for a sum, into every lane of VD;
VRNG evaluates Kermes at the seed, stream, step, tensor, draw and coordinate that its fields name, RAW giving Y0[31:0] with Y0[63:32] in VC under
D2, UINT ⌊Y0 × n / 2⁶⁴⌋ with n = 0 meaning 2³², UNIF ⌊Y0[31:0] / 2⁸⌋ × 2⁻²⁴ and BERN 1 where (Y0[31:0] + 1) × 2⁻³² ≤ p, else 0, and it counts one
evaluation for each active lane. Under D2 with VC = VD its lanes take open values. The model's own choices in it: log entries 46, 47 and 110. -/
def Obligations.ReductionAndRandomSlots : Prop :=
  ∀ (s : State) (k : CoreId) (x : Nat) (neg fz cr d2 : Bool) (p : Fin 16) (rnd : Fin 8) (mode : Fin 4) (d a b c sa sb sc sd : Fin 64)
    (fn : Byte) (tensor draw : BitVec 16),
    runs s k x = true → predClean s (hdr k p neg) = true → rnd.val < 4 →
      (fn.toNat ≤ 2 → a.val + ((sr s k sa).1.toNat + 63) / 64 ≤ 64 →
        let es := ((List.range (sr s k sa).1.toNat).filter (fun e => on s k p neg (e % 64))).map (fun e => vl s k (a.val + e / 64) (e % 64))
        exec (.vred { i := hdr k p neg, vd := d, va := a, sa := sa, fn := fn }) s =
          .next (wrote (engine s k) (hdr k p neg)
            [.v d.val (List.replicate 64 (vreduce fn.toNat (es.map (fun e => e.1)), (sr s k sa).2 || es.any (fun e => e.2)))] none)) ∧
      (fn.toNat ≤ 5 → (mode.val % 2 = 1 → sc.val % 2 = 0) → (mode.val % 2 = 0 → sc = 0) → (mode.val < 2 → sd = 0) → (d2 = false → c = 0) →
        (sr s k sb).1.toNat / 2 ^ 32 ≠ 0xFFFFFFFF →
        let s1 := (s.core k.key).sreg (sc.val + 1)
        let seed : W64 := if mode.val % 2 = 1 then BitVec.ofNat 64 ((sr s k sc).1.toNat % 2 ^ 32 + s1.1.toNat % 2 ^ 32 * 2 ^ 32) else s.ctxSeed x
        let step := if mode.val < 2 then (s.ctx x).stepno.toNat else (sr s k sd).1.toNat % 2 ^ 32
        let po := (sr s k sb).2 || (sr s k sa).2 || (decide (mode.val % 2 = 1) && ((sr s k sc).2 || s1.2)) || (decide (2 ≤ mode.val) && (sr s k sd).2)
        let y := fun l => (kermesAt seed (sr s k sb).1 step tensor.toNat draw.toNat ((sr s k sa).1.toNat + (vl s k b.val l).1.toNat)).1.toNat
        let lanePo := fun l => po || (vl s k b.val l).2 || ((fn == 1 || fn == 3) && (vl s k a.val l).2)
        let both := d2 && fn == 0 && decide (c = d)
        ∃ (r q : Nat → W32) (n m : Nat), (fn ≠ 3 → n = 0) ∧ (both = false → m = 0) ∧
          (fn = 0 → ∀ l, r l = BitVec.ofNat 32 (y l % 2 ^ 32)) ∧
          (fn = 1 → ∀ l, r l = BitVec.ofNat 32 (y l * (if (vl s k a.val l).1 = 0 then 2 ^ 32 else (vl s k a.val l).1.toNat) / 2 ^ 64)) ∧
          (fn = 3 → ∀ l, r l = if isNan32 (vl s k a.val l).1 || FV.lt (f32v (vl s k a.val l).1) (FV.ofInt (y l % 2 ^ 32 + 1 : Nat) (-32)) then 0 else 1) ∧
          (fn = 2 → ∀ l, r l = f32r .rne false (FV.ofInt (y l % 2 ^ 32 / 2 ^ 8 : Nat) (-24))) ∧
          exec (.vrng { i := hdrR k p neg rnd false fz cr false, vd := d, va := a, vb := b, vc := c, sa := sa, sb := sb, sc := sc, sd := sd,
                        fn := fn, mode := mode, imm16 := tensor, imm16b := draw, d2 := d2 }) s =
            .next (wrote ((((engine s k).bump .morCnt k.key 1 n).evalsUp 0 (lanesOn s k p neg).length).drawN m) (hdr k p neg)
              (if both then [.v d.val (outLanes s k p neg d.val (fun l => (q l, lanePo l)))]
               else if d2 && fn == 0 then
                [.v d.val (outLanes s k p neg d.val (fun l => (r l, lanePo l))),
                 .v c.val (outLanes s k p neg c.val (fun l => (BitVec.ofNat 32 (y l / 2 ^ 32), lanePo l)))]
               else [.v d.val (outLanes s k p neg d.val (fun l => (r l, lanePo l)))]) none))

/-- The online softmax steps of R233 over the entries SA to SA + 63: VOSM.I starts them, VOSM.M takes the running maximum and the rescale factor,
VOSM.L folds a value into the running sum, VOSM.F reads M and L, VOSM.S writes them. Every entry outside the active lanes keeps its value. -/
def Obligations.StatisticsSlots : Prop :=
  ∀ (s : State) (k : CoreId) (x b : Nat) (neg : Bool) (p : Fin 16) (d a sa : Fin 64),
    runs s k x = true → predClean s (hdr k p neg) = true → sr s k sa = (BitVec.ofNat 64 b, false) → b % 64 = 0 → b < 2048 →
    d.val < 63 → a.val < 63 →
      (∃ m, statsAre s k p neg b m (fun _ => ((0xFF800000, 0, 0x3F800000), false)) ∧
        exec (.vosmI { i := hdr k p neg, sa := sa }) s = .next (wrote (withStats s k m) (hdr k p neg) [] none)) ∧
      (let mx := fun l => max32 (stat s k (b + l)).1.1 (vl s k a.val l).1
       let al := fun l => osmAlpha (stat s k (b + l)).1.1 (mx l)
       let po := fun l => (stat s k (b + l)).2 || (vl s k a.val l).2
       ∃ m n, statsAre s k p neg b m (fun l => ((mx l, (stat s k (b + l)).1.2.1, al l), po l)) ∧
        n = ((lanesOn s k p neg).filter (fun l => isNan32 (vl s k a.val l).1 && !po l)).length ∧
        exec (.vosmM { i := hdr k p neg, vd := d, va := a, sa := sa }) s =
          .next (wrote ((withStats s k m).bump .morCnt k.key 1 n) (hdr k p neg)
            [.v d.val (outLanes s k p neg d.val (fun l => (mx l, po l))),
             .v (d.val + 1) (outLanes s k p neg (d.val + 1) (fun l => (al l, po l)))] none)) ∧
      (∃ m, statsAre s k p neg b m (fun l =>
          let e := stat s k (b + l)
          ((e.1.1, add32 (mul32 e.1.2.1 e.1.2.2) (vl s k a.val l).1, e.1.2.2), e.2 || (vl s k a.val l).2)) ∧
        exec (.vosmL { i := hdr k p neg, va := a, sa := sa }) s = .next (wrote (withStats s k m) (hdr k p neg) [] none)) ∧
      exec (.vosmF { i := hdr k p neg, vd := d, sa := sa }) s =
        .next (wrote (engine s k) (hdr k p neg)
          [.v d.val (outLanes s k p neg d.val (fun l => ((stat s k (b + l)).1.1, (stat s k (b + l)).2))),
           .v (d.val + 1) (outLanes s k p neg (d.val + 1) (fun l => ((stat s k (b + l)).1.2.1, (stat s k (b + l)).2)))] none) ∧
      (∃ m, statsAre s k p neg b m (fun l =>
          (((vl s k a.val l).1, (vl s k (a.val + 1) l).1, 0x3F800000), (vl s k a.val l).2 || (vl s k (a.val + 1) l).2)) ∧
        exec (.vosmS { i := hdr k p neg, va := a, sa := sa }) s = .next (wrote (withStats s k m) (hdr k p neg) [] none))

/-- WLD binds its weight descriptor with the K range that SK0 and SKLEN hold and latches the first two lakes of that range for each of the first
32 rows of the tensor. WMM, on operands that pass the checks of R53 to R76, sets each element (i, j) of its bank set to the sum that R61 to R66
give for activation row i and weight row j, the lakes that WLD latched as they then stood and the others as they now stand (R55, R72), from zero
under START; an element whose row or column its operands do not have takes an open value; a poisoned lake, or one with a parity error in its
latch, poisons its row or column (R78, R81). The model's own choices in it: log entries 52 and 113. -/
def Obligations.WoadProductFillsItsBankSet : Prop :=
  ∀ (s : State) (k : CoreId) (x : Nat) (neg bind start afmt : Bool) (p : Fin 16) (arr : Fin 2) (td : Fin 32) (sk0 sklen : Fin 64)
    (shape g : Fin 4) (bank : Fin 16),
    runs s k x = true → predIs s (hdr k p neg) true = true → (s.ctx x).refmode = false →
    (tr s k td.val).2 = false →
      let d := tdOf (tr s k td.val).1
      (let q := inFlight s k (1 + arr.val) (8 + arr.val)
       let k0 := (sr s k sk0).1.toNat
       let kl := (sr s k sklen).1.toNat
       let l0 := k0 / lakeElems d.fmt d.block
       let m := latchLakes d k0 kl
       d.lakeOk = none → d.space = false → [4, 6, 8, 9, 10, 11].contains d.fmt = true → (sr s k sk0).2 = false → (sr s k sklen).2 = false →
       s.runsOk x false ((List.range (min 32 d.rows)).map (fun r =>
         (d.addr + r * (64 * d.stride) + l0 * lakeBytes d.fmt d.block, m * lakeBytes d.fmt d.block))) = true →
        exec (.wld { i := hdr k p neg, arr := arr, bind := bind, td := td, sk0 := sk0, sklen := sklen }) s =
          .next (wrote (q.setCore k.key { q.core k.key with
            bindings := AMap.put {} (2 * arr.val + bit bind)
              { primed := true, td := (tr s k td.val).1, k0 := k0, klen := kl
                latch := (List.range (min 32 d.rows)).map (fun r => (List.range m).map (fun l => s.lakeRaw k.key d r (l0 + l))) }
              (s.core k.key).bindings }) (hdr k p neg) [] none)) ∧
      (let w : WSlot := { i := hdr k p neg, arr := arr, bind := bind, td := td, start := start, shape := shape, afmt := afmt, bank := bank, g := g }
       let b := AMap.get {} (2 * arr.val + bit bind) (s.core k.key).bindings
       let e := tdOf b.td
       let rows := min (tileRows shape) d.rows
       let cols := min (tileCols shape) e.rows
       shape ≠ 3 → g ≠ 3 → (afmt = true ∨ bank.val < 8) → wmmChk (s.core k.key) w b d = none → (start && s.savePauses x) = false →
       s.runsOk x false (d.lakeSpans rows (b.k0 + b.klen) ++ e.lakeSpans cols (b.k0 + b.klen)) = true → cfRoom s k = true →
        let old := fun i j => if start then (0, false) else setGet (s.core k.key).woaAcc (8192 * arr.val) afmt bank.val i j
        ∃ (u : State) (fr : Nat → Nat → Nat × Bool), quiet s u k ∧
          (u.core k.key).woaAcc = setPut (s.core k.key).woaAcc (8192 * arr.val) afmt bank.val (table (tileRows shape) (tileCols shape) (fun i j =>
            if i < rows ∧ j < cols then
              let ra := s.lakeRow k.key d i b.k0 b.klen
              let rw := s.weightRow k.key e b j
              ((wElement afmt (d.fmt == 4 || e.fmt == 4) rw ra b.k0 b.klen (32 * 2 ^ g.val) (old i j).1).acc, (old i j).2 || ra.poisoned || rw.poisoned ||
                (s.core k.key).badLatch.contains (arr.val, false, i) || (s.core k.key).badLatch.contains (arr.val, true, j))
            else fr i j)) ∧
          (u.core k.key).woaSets.any (fun z => z.is arr.val shape.val afmt bank.val) = true ∧
          (u.core k.key).bindings = AMap.put {} (2 * arr.val + bit bind) { b with latch := [] } (s.core k.key).bindings ∧
          exec (.wmm w) s = .next (wrote u (hdr k p neg) [] none))

/-- WCK outside any epoch selects nothing and clears PD; in an epoch it enters the CRC-64 of its bank set in the digest log where the tile is
shadow-selected, and with SAMPLE it copies sub-tile (0, 0) in FP32 to the lowest free sample buffer and sets PD where the tile is selected, else
it clears PD (R77, R141, R395). WFL writes the tile in its output format and closes its bank set (R77). The model's own choices in it: log
entries 34 and 49. -/
def Obligations.WoadCheckAndFlush : Prop :=
  ∀ (s : State) (k : CoreId) (x : Nat) (neg sample afmt : Bool) (p pd : Fin 16) (arr : Fin 2) (td : Fin 32) (shape ofmt : Fin 4)
    (bank : Fin 16) (rnd : Fin 8) (b : BankSet),
    runs s k x = true → predIs s (hdr k p neg) true = true →
    (s.ctx x).refmode = false → shape ≠ 3 → (afmt = true ∨ bank.val < 8) →
    (s.core k.key).woaSets.find? (fun z => z.is arr.val shape.val afmt bank.val) = some b → bank.val % shapeBanks shape.val = 0 →
      let q := inFlight s k (1 + arr.val) arr.val
      let acc := (s.core k.key).woaAcc
      let pdIs : Bool → List RegW := fun v => if sample then [.p pd.val (everyBit v) false] else []
      let wck : Instr := .wck { i := hdr k p neg, arr := arr, shape := shape, afmt := afmt, bank := bank, sample := sample, pd := pd }
      ((s.core k.key).curRun = none → (sample = true ∨ pd = 0) → exec wck s = .next (wrote q (hdr k p neg) (pdIs false) none)) ∧
      (∀ run, (s.core k.key).curRun = some run → (sample = true ∨ pd = 0) → (s.core k.key).digests.length < 256 →
        let t := s.tileIndex x run b
        let dg : DigestEntry := { run := run, tile := t.1, digest := crc64 (setBytes acc (8192 * arr.val) shape.val afmt bank.val)
                                  po := setPo acc (8192 * arr.val) shape.val afmt bank.val, core := s.ctxCore x k.key }
        let c := if s.shadowSelects x run t then
            { q.core k.key with digests := (s.core k.key).digests ++ [dg],
                                woaSets := (s.core k.key).woaSets.map (fun z => if z = b then { b with shadow := some t.1 } else z) }
          else q.core k.key
        let takes := sample && s.sampleSelects x k.key run t
        let el := (List.range 32).flatMap (fun i => (List.range 32).map (fun j =>
          let e := setGet acc (8192 * arr.val) afmt bank.val i j
          (f32r .rne false ((accFmt afmt).decode e.1), e.2)))
        ((sample = false ∨ freeBuf (s.core k.key).samples = none) →
          takes = true ∨ exec wck s = .next (wrote (q.setCore k.key c) (hdr k p neg) (pdIs false) none)) ∧
        (∀ n, freeBuf (s.core k.key).samples = some n →
          exec wck s = .next (wrote (q.setCore k.key
            (if takes then { c with samples := (s.core k.key).samples ++ [{ buf := n, tag := (s.core k.key).cur, elems := el }] } else c))
            (hdr k p neg) (pdIs takes) none))) ∧
      (let t := tdOf (tr s k td.val).1
       (tr s k td.val).2 = false → rnd.val ≤ 4 → ofmt ≠ 3 → flushDest t ofmt.val = none →
       s.runsOk x false (t.spans (tileRows shape) (tileCols shape)) = true → cfRoom s k = true →
        ∃ u : State, quiet s u k ∧ (u.core k.key).woaSets = closeSet (s.core k.key).woaSets arr.val shape.val afmt bank.val ∧
          stores u (hdr k p neg) x 3 4 false
            (t.pieces (s.flushRows x k.key t rnd.val (accFmt afmt) (setGet acc (8192 * arr.val) afmt bank.val) shape.val).1)
            (exec (.wfl { i := hdrR k p neg rnd false false false false, arr := arr, td := td, shape := shape, afmt := afmt, bank := bank,
                          ofmt := ofmt }) s))

/-- MMM, MDX and MDW into a bank set: each element is its old value, zero under START and scaled by the row's α under RS, followed by one rounded
addition for each K position in ascending order (R84, R90, R235). The model's own choices in it: log entry 50. -/
def Obligations.MadderProductAccumulates : Prop :=
  ∀ (s : State) (k : CoreId) (x len : Nat) (m : MSlot) (e : Nat × Orient × Instr),
    runs s k x = true → m.i = hdr k m.i.pred m.i.pneg → predIs s m.i true = true →
    e ∈ productRows m → mProdOk m (decide (e.1 = 1)) (decide (e.1 = 3)) = true → m.vt = false →
    (m.start = false ∨ len ≤ chainLimit m.afmt) → productRuns s k x e.2.1 m len = true →
      let j := productOf s k x e.2.1 m len
      let base := madBase m.arr.val (m.afmt && (s.ctx x).refmode)
      let alpha := fun i => ((s.core k.key).loc.num ((sr s k m.sx).1.toNat + 4 * (i % 32)) 4, (s.core k.key).loc.poAt ((sr s k m.sx).1.toNat + 4 * (i % 32)))
      let old := fun i q => if m.start then (0, false) else
        let z := setGet (s.core k.key).madAcc base j.fp16 m.bank.val i q
        if m.rs then rowScaled j.fp16 (alpha i) z else z
      ∃ u : State, quiet s u k ∧ (u.core k.key).madAcc = setPut (s.core k.key).madAcc base j.fp16 m.bank.val (codesOf (j.run 0 len old)) ∧
        (u.core k.key).madSets.any (fun z => z.is m.arr.val m.shape.val m.afmt m.bank.val) = true ∧
        exec e.2.2 s = .next (wrote u m.i [] none)

/-- A product longer than the chain limit that names a partial area runs its segments of L positions each from zero, and partial tile 0 takes
their pairwise sum in ascending order (R112, R113); MDW with a Vat target adds its product into the Vat tiles that SX names, tile by tile and
segment by segment, with an undo record first where an epoch is current, and closes its bank set (R98, R102). The model's own choices in it: log
entry 53. -/
def Obligations.MadderSegmentsAndVatTarget : Prop :=
  ∀ (s : State) (k : CoreId) (x len : Nat) (m : MSlot) (e : Nat × Orient × Instr),
    runs s k x = true → m.i = hdr k m.i.pred m.i.pneg → predIs s m.i true = true →
    e ∈ productRows m → mProdOk m (decide (e.1 = 1)) (decide (e.1 = 3)) = true → m.start = true → productRuns s k x e.2.1 m len = true →
    cfRoom s k = true →
      let j := productOf s k x e.2.1 m len
      let c := tdOf (tr s k m.tc.val).1
      let L := chainLimit m.afmt
      let J := (len + L - 1) / L
      let area := 4096 * shapeBanks m.shape.val
      (m.vt = false → L < len → c.addr + J * area ≤ 0x400000 →
        ∃ u : State, (∀ a b, a < tileRows m.shape → b < tileCols m.shape →
            let seg := fun q => ((codesOf (j.run (q * L) (min L (len - q * L)) (fun _ _ => (0, false)))).getD a []).getD b (0, false)
            (u.core k.key).loc.num (c.addr + 4096 * (2 * (a / 32) + b / 32) + 128 * (a % 32) + 4 * (b % 32)) 4 =
              (combine ((List.range J).map (fun q => BitVec.ofNat 32 (fp32.round .rne 0 false ((accFmt j.fp16).decode (seg q).1)).1))).toNat) ∧
          (∀ o, o < c.addr ∨ c.addr + J * area ≤ o → (u.core k.key).loc.byte o = (s.core k.key).loc.byte o) ∧ u.mem = s.mem ∧
          (u.core k.key).madSets = closeSet (s.core k.key).madSets m.arr.val m.shape.val m.afmt m.bank.val ∧
          exec e.2.2 s = .next (wrote u m.i [] none)) ∧
      (let tiles := vatTiles m.shape.val (sr s k m.sx).1.toNat
       m.vt = true → (s.core k.key).undoFull (tiles.map (fun z => z.1)) = false →
       ((s.core k.key).cur.isSome = true ∨ (s.core k.key).epochs = []) →
        let q0 := inFlight s k (3 + m.arr.val) (2 + m.arr.val)
        let q := q0.setCore k.key { q0.core k.key with badFeed := (q0.core k.key).badFeed.filter (fun a => a != m.arr.val) }
        let q1 := tiles.foldl (fun s z => s.setCore k.key ((s.core k.key).recordVat z.1)) q
        let q2 := ((List.range (max 1 ((len + 65535) / 65536))).map (fun i => (i * 65536, min 65536 (len - i * 65536)))).foldl
          (fun s g => tiles.foldl (vatSegment x k.key c j g.1 g.2) s) q1
        let c2 := q2.core k.key
        let q3 := q2.setCore k.key { c2 with
          madSets := closeSet c2.madSets m.arr.val m.shape.val m.afmt m.bank.val
          madAcc := setPut c2.madAcc (madBase m.arr.val false) false m.bank.val (table (tileRows m.shape) (tileCols m.shape) (fun a b =>
            c2.vatElem ((sr s k m.sx).1.toNat + 2 * (a / 32) + b / 32) (a % 32) (b % 32))) }
        ∃ (n : Nat) (u : State), q3.countFor k.key c false { nan := n } = some u ∧ exec (.mdw m) s = .next (wrote u m.i [] none))

/-- MFL writes the tile in its output format and closes its bank set (R96). MVW of a Vat tile that is not VALID does nothing; of a VALID one it
frees the tile and issues its 64 Vat-writes in ascending address order with no epoch open; an instruction of an epoch is held, with the number of
its tile, until the epoch commits (R100, R102, R257, R299). The model's own choices in it: log entry 54. -/
def Obligations.MadderFlushAndVatWrite : Prop :=
  ∀ (s : State) (k : CoreId) (x : Nat) (neg afmt : Bool) (p : Fin 16) (arr : Fin 4) (tc : Fin 32) (shape ofmt : Fin 4) (bank : Fin 8)
    (rnd : Fin 8) (sx : Fin 64),
    runs s k x = true → predIs s (hdr k p neg) true = true →
      (let t := tdOf (tr s k tc.val).1
       let wide := afmt && (s.ctx x).refmode
       let half := afmt && !(s.ctx x).refmode
       shape ≠ 3 → (afmt = true ∨ bank.val < 4) → (tr s k tc.val).2 = false → rnd.val ≤ 4 → ofmt ≠ 3 → flushDest t ofmt.val = none →
       bankOpen (s.core k.key).madSets arr.val shape.val afmt bank.val = true →
       s.runsOk x false (t.spans (tileRows shape) (tileCols shape)) = true → cfRoom s k = true →
        ∃ u : State, quiet s u k ∧ (u.core k.key).madSets = closeSet (s.core k.key).madSets arr.val shape.val afmt bank.val ∧
          stores u (hdr k p neg) x 4 4 false
            (t.pieces (s.flushRows x k.key t rnd.val (accFmt half) (setGet (s.core k.key).madAcc (madBase arr.val wide) half bank.val) shape.val).1)
            (exec (.mfl { i := hdrR k p neg rnd false false false false, arr := arr, tc := tc, shape := shape, afmt := afmt, bank := bank,
                          ofmt := ofmt }) s)) ∧
      (let v := (sr s k sx).1.toNat % 512
       let q := awakeUnit s k 3
       let c := q.core k.key
       let mvw : Instr := .mvw { i := hdr k p neg, sx := sx }
       let freed : VatTag := { (s.core k.key).tag v with valid := false, dirty := false, chain := 0 }
       (sr s k sx).2 = false →
        ((s.core k.key).epochs = [] → (s.core k.key).rel = [] → (s.core k.key).cur = none →
          (((s.core k.key).tag v).valid = false → exec mvw s = .next (wrote q (hdr k p neg) [] none)) ∧
          (((s.core k.key).tag v).valid = true →
            exec mvw s = .next (wrote ((q.setCore k.key
              ({ c with vwq := c.vwq ++ c.vatWrites v x (s.ctx x).stepno }.setTag v freed)).bump .vatCnt k.key 0 64) (hdr k p neg) [] none))) ∧
        ((s.core k.key).cur.isSome = true →
          exec mvw s = .next (wrote (q.setCore k.key (c.holdIn { h := .mvw v, word := c.pc, slot := 4, op := 5 })) (hdr k p neg) [] none)))

/-- TQZ quantises a plain tile into lakes: lake l of row r is written at its place in the destination from the elements that it holds, and its
counts enter the counter file of the destination's tensor; every record that the instruction names claims its entry (R123 to R136). The model's
own choices in it: log entries 57, 111 and 112. -/
def Obligations.QuantisationWritesItsLakes : Prop :=
  ∀ (s : State) (k : CoreId) (x : Nat) (neg trn sat : Bool) (p : Fin 16) (ts tdr : Fin 32),
    runs s k x = true → predIs s (hdr k p neg) true = true →
      let a := td s k ts
      let b := td s k tdr
      let rc := if trn then (b.cols, b.rows) else (b.rows, b.cols)
      tReady s k x ts tdr [a.plainOk, b.lakeOk, need ((a.fmt == 0 || a.fmt == 2 || a.fmt == 3) && b.trv && decide (rc.1 ≤ a.rows ∧ rc.2 ≤ a.cols) &&
          decide (b.rnd ≤ 4) && b.rnd != 3)] (a.spans rc.1 rc.2) (b.lakeSpans b.rows b.cols) = true →
      (b.rnd = 4 → recReads s k x b.trec = true) →
        let v := begins s k x [a, b]
        ∃ (d : Delta) (evals free : Nat) (u : State), ((v.evalsUp 0 evals).drawN free).countAll k.key [(a, {}), (b, d)] = some u ∧
          d.amax = amaxWord ((List.range b.rows).flatMap (fun r =>
            (List.range b.cols).map (fun q => if trn then v.elemV k.key a q r else v.elemV k.key a r q))) ∧
          stores u (hdr k p neg) x 5 1 b.space ((List.range b.rows).flatMap (fun r => (tqzLakes v k x a b trn r).zipIdx.map (fun l =>
            ({ addr := b.addr + r * (64 * b.stride) + l.2 * lakeBytes b.fmt b.block, data := l.1.bytes, po := l.1.po } : Piece))))
            (exec (.tqz { i := hdrR k p neg 0 sat false false false, ts := ts, td := tdr, trn := trn }) s)

/-- TDQ widens lakes into a plain tile, by columns under TRN and inversely rotated under INV; TROT rotates an FP32 tile, or under INV rotates it
back; TCV converts between plain formats, under DELAYED by the tensor scale of the record, whose exponent it stores there (R127, R132, R193,
R293). The model's own choices in it: log entries 34 and 113. -/
def Obligations.MordantTileConversions : Prop :=
  ∀ (s : State) (k : CoreId) (x : Nat) (neg trn inv sat : Bool) (p : Fin 16) (ts tdr : Fin 32) (rnd : Fin 8),
    runs s k x = true → predIs s (hdr k p neg) true = true → rnd.val ≤ 4 →
      let a := td s k ts
      let b := td s k tdr
      let h := hdrR k p neg rnd false false false false
      let v := begins s k x [a, b]
      (let rk := if trn then (b.cols, b.rows) else (b.rows, b.cols)
       tReady s k x ts tdr [a.lakeOk, b.plainOk, need (decide (b.fmt < 4) && a.trv && decide (rk.1 ≤ a.rows) && decide (rk.2 ≤ a.cols) && (!inv || a.rot))]
         (a.lakeSpans rk.1 a.cols) (b.spans b.rows b.cols) = true → (rnd = 4 → b.trv = true → recReads s k x b.trec = true) →
        let get := fun r q => ((tdqRow v k a inv r).getD q (.nan, false))
        let rows := table b.rows b.cols (fun i q => if trn then get q i else get i q)
        ∃ (d : Delta) (evals : Nat) (u : State),
          (v.evalsUp 0 evals).countAll k.key [(a, d), (b, { (v.convertRows x k.key b rnd.val false false rows).2.1 with elems := 0 })] = some u ∧
          stores u (hdr k p neg) x 5 2 b.space (b.pieces (v.convertRows x k.key b rnd.val false false rows).1)
            (exec (.tdq { i := h, ts := ts, td := tdr, inv := inv, trn := trn }) s)) ∧
      (let rot := if inv then a else b
       let K := if inv then a.cols else b.cols
       tReady s k x ts tdr [a.plainOk, b.plainOk, need (a.fmt == 0 && b.fmt == 0 && rot.rot && decide (b.rows ≤ a.rows) && decide (b.cols ≤ a.cols))]
         (a.spans b.rows K) (b.spans b.rows b.cols) = true →
        let rows := (List.range b.rows).map (fun i => ((rotateRow inv rot.rotSize rot.rotSeed ((List.range K).map (fun q =>
          let e := v.elem k.key a i q
          (BitVec.ofNat 32 e.1, e.2)))).take b.cols).map (fun e => (e.1.toNat, e.2)))
        let nans := ((rows.flatMap (fun r => r)).filter (fun e => isNan32 (BitVec.ofNat 32 e.1) && !e.2)).length
        ∃ u : State, (v.evalsUp 0 rot.rotSize).countAll k.key [(a, {}), (b, { nan := nans })] = some u ∧
          stores u (hdr k p neg) x 5 3 b.space (b.pieces rows) (exec (.trot { i := h, ts := ts, td := tdr, inv := inv }) s)) ∧
      (let hs := hdrR k p neg rnd sat false false false
       tReady s k x ts tdr [a.plainOk, b.plainOk, need (decide (b.rows ≤ a.rows) && decide (b.cols ≤ a.cols) && roOk rnd.val b.fmt &&
         (!b.delayed || (b.trv && decide (4 ≤ b.fmt))))] (a.spans b.rows b.cols) (b.spans b.rows b.cols) = true →
       ((b.delayed = true ∨ (rnd = 4 ∧ b.trv = true)) → recReads s k x b.trec = true) →
        let ra := v.recAddr k.key b.trec
        let e := if b.delayed then v.delayedExp ra b.fmt else 0
        let scaled : FV → FV := fun z => match z with
          | .fin g m => .fin g { m with exp := m.exp - e }
          | z => z
        let rows := table b.rows b.cols (fun i q => (scaled (v.elemV k.key a i q).1, (v.elemV k.key a i q).2))
        let o := v.convertRows x k.key b rnd.val b.delayed sat rows
        ∃ (evals : Nat) (u : State),
          ((if b.delayed then v.rawWrite (ra + 53) [BitVec.ofInt 8 e] else v).evalsUp 0 evals).countAll k.key [(a, {}), (b, o.2.1)] = some u ∧
          stores u (hdr k p neg) x 5 4 b.space (b.pieces o.1) (exec (.tcv { i := hs, ts := ts, td := tdr }) s))

/-- TSTAT.AMAX writes the largest magnitudes that GRAN selects as FP32 words from SA on; TSTAT.CHK frees the oldest filled sample buffer and
counts a check, failed where e² exceeds the square of the record's tolerance times w²; TSTAT.FIN sends the deltas of the run, once in an epoch
(R135, R143, R146, R289, R293). A T-slot instruction of a step that names a tensor record for the first time clears its totals: bytes 20 to 51 of
a record that the context has not named before read 0 afterwards in the partition store, and a record that it has named in the step under way is
left as it is. The first T-slot instruction of a step, with no layer to recalibrate, clears the totals of every record named before (R138; the
records are those named since BIND, log entry 34). The model's own choices in it: log entries 34, 51, 58 and 113. -/
def Obligations.StatisticsOfTilesAndTotals : Prop :=
  (∀ (s : State) (k : CoreId) (x : Nat) (neg : Bool) (p : Fin 16) (ts : Fin 32) (sa : Fin 64) (gran : Fin 8) (lrec : BitVec 16),
     runs s k x = true → predIs s (hdr k p neg) true = true → cfRoom s k = true →
       let h := hdr k p neg
       let a := td s k ts
       ((tr s k ts.val).2 = false → (sr s k sa).2 = false → a.trv = true → (if a.lake then a.lakeOk else a.plainOk) = none →
        (sr s k sa).1.toNat % 128 = 0 → s.runsOk x a.space (if a.lake then a.lakeSpans a.rows a.cols else a.spans a.rows a.cols) = true →
         let v := begins s k x [a]
         let rows := if a.lake then (List.range a.rows).map (fun r => (v.lakeRow k.key a r 0 a.cols).values a.cols)
           else table a.rows a.cols (fun i q => v.elemV k.key a i q)
         let out := amaxRuns gran a.block rows
         (sr s k sa).1.toNat + 4 * out.length ≤ 0x400000 →
         ∃ (d : Delta) (u : State), d.amax = amaxWord (rows.flatMap (fun r => r)) ∧
           (v.localWrite k.key (out.zipIdx.map (fun e =>
             ({ addr := (sr s k sa).1.toNat + 4 * e.2, data := leBytes 4 e.1.1.toNat, po := e.1.2 } : Piece)))).countFor k.key a true d = some u ∧
           exec (.tstatAmax { i := h, ts := ts, gran := gran, sa := sa }) s = .next (wrote u h [] none)) ∧
       (∀ b rest, (s.core k.key).samples = b :: rest → (tr s k ts.val).2 = false → a.plainOk = none → a.trv = true → 32 ≤ a.rows → 32 ≤ a.cols →
        s.runsOk x a.space (a.spans 32 32) = true → recReads s k x lrec.toNat = true →
         let v := (begins s k x [a]).nameLayer x lrec.toNat
         let w := v.setCore k.key { v.core k.key with samples := rest }
         let ra := v.recAddr k.key lrec.toNat
         let wide := (List.range 32).flatMap (fun i => (List.range 32).map (fun q => v.elemV k.key a i q))
         let q := chkSums ((b.elems.map (fun e => e.1)).zip (wide.map (fun e => f32r .rne false e.1)))
         let tol := BitVec.ofNat 32 (v.devNum (ra + (if v.devNum (ra + 2) 1 % 4 = 0 then 24 else 28)) 4)
         let lim := mul32k (mul32k tol tol) q.2
         let fail := isNan32 q.1 || isNan32 q.2 || (!isNan32 lim && FV.lt (f32v lim) (f32v q.1))
         let bad := wide.any (fun e => e.2) || b.elems.any (fun e => e.2)
         (bad = true → ∃ u : State, w.countFor k.key a true {} = some u ∧ exec (.tstatChk { i := h, ts := ts, lrec := lrec }) s = .next (wrote
           ((u.orReg .morErr k.key 0 8).errLog { scope := 0, source := 0x04, part := k.key / 100, inst := k.key % 100 }) h [] none)) ∧
         (bad = false → ∃ u : State, ((w.bump .morCnt k.key 3 1).bump .morCnt k.key 4 (bit fail)).countFor k.key a true
             { checked := 1, failed := bit fail, errMax := chkRatio q.1 q.2 } = some u ∧
           exec (.tstatChk { i := h, ts := ts, lrec := lrec }) s = .next (wrote u h [] none))) ∧
       (∀ e, (s.core k.key).epochs.find? (fun z => some z.tag == (s.core k.key).cur) = some e → (s.core k.key).digests = [] →
        recReads s k x lrec.toNat = true →
         let ra := s.recAddr k.key lrec.toNat
         let w := s.devNum (ra + 8) 2
         let xr := s.devNum (ra + 10) 2
         let y := s.devNum (ra + 12) 2
         let v := ((awakeUnit s k 7).tBegin k.key x [w, xr, y]).nameLayer x lrec.toNat
         let c := s.core k.key
         let m : FinMsg := { run := e.run, ctxcore := s.ctxCore x k.key, w := c.deltaOf w, x := c.deltaOf xr, y := c.deltaOf y, lrec := lrec.toNat }
         exec (.tstatFin { i := h, lrec := lrec }) s = .next (wrote (if e.finSent then v else v.setCore k.key { v.core k.key with
             fins := c.fins ++ [m], epochs := c.epochs.map (fun z => if z = e then { e with finSent := true } else z) }) h [] none))) ∧
  (∀ (s : State) (n x i o : Nat), (∀ j, j < 32 → s.bar (s.recAddr n i + 20 + j) = none ∧ ∃ q b, locOf (s.recAddr n i + 20 + j) = .store q b) →
     20 ≤ o → o < 52 →
     ((s.ctx x).tActive = true →
       ((s.ctx x).trecs.contains i = false → ((s.tBegin n x [i]).mem.byte (s.recAddr n i + o) = 0 ∧ ((s.tBegin n x [i]).ctx x).trecs = (s.ctx x).trecs ++ [i])) ∧
       ((s.ctx x).trecs.contains i = true → s.tBegin n x [i] = s)) ∧
     ((s.ctx x).tActive = false → (s.ctx x).layers = [] → (s.ctx x).trecs = [i] →
       (s.tBegin n x []).mem.byte (s.recAddr n i + o) = 0 ∧ ((s.tBegin n x []).ctx x).tActive = true))

/-- A copy between two plain tiles of one element width moves every element that both describe from its place in the one to its place in the
other, in runs that hold nothing but such elements: each run starts at an element of both and is a whole number of elements long (R86, R87,
R295). DLD and DPF move a tile of the device space into the operand store: a DLD at once, as its later readers find it, a DPF when the end of its
transfer is marked on its token; of what lies in tier 3 they ask the host for each run, and the transfer ends when those have come. DST and DCP
write their tile into the device space, a DCP from tier 3 as the host's data come. At most 16 DLD are in flight and one DPF on a token, and a
read of what a Vat-write of its own core is still to change waits (R108, R295, R296, R299, R429). The model's own choices in it: log entries 32,
35, 39, 59, 62 and 90. -/
def Obligations.DataSlotsMoveEveryElement : Prop :=
  (∀ (a b : TD), a.lake = false → b.lake = false → fmtBytes a.fmt = fmtBytes b.fmt →
     (∀ r q, r < a.rows → r < b.rows → q < a.cols → q < b.cols →
       ∃ e, e ∈ copyRuns a b ∧ ∃ o, a.elemAddr r q = e.1 + o ∧ b.elemAddr r q = e.2.1 + o ∧ o + fmtBytes a.fmt ≤ e.2.2) ∧
     (∀ e, e ∈ copyRuns a b → fmtBytes a.fmt ∣ e.2.2 ∧
       ∃ r q, r < a.rows ∧ r < b.rows ∧ q < a.cols ∧ q < b.cols ∧ e.1 = a.elemAddr r q ∧ e.2.1 = b.elemAddr r q)) ∧
  (∀ (s : State) (k : CoreId) (x : Nat) (neg : Bool) (p tok : Fin 16) (ts tdr : Fin 32),
     runs s k x = true → predIs s (hdr k p neg) true = true →
     (tr s k ts.val).2 = false → (tr s k tdr.val).2 = false →
       let h := hdr k p neg
       let a := td s k ts
       let b := td s k tdr
       let rs := copyRuns a b
       let src := rs.map (fun r => (r.1, r.2.2))
       let dst := rs.map (fun r => (r.2.1, r.2.2))
       let far := rs.filter (fun r => isT3 r.1)
       let near := rs.filter (fun r => !isT3 r.1)
       let q := readRuns s k x (near.map (fun r => (r.1, r.2.2)))
       let dld := exec (.dld { i := h, ts := ts, td := tdr }) s
       let dpf := exec (.dpf { i := h, ts := ts, td := tdr, tok := tok }) s
       let dcp := exec (.dcp { i := h, ts := ts, td := tdr }) s
       let waits : Host.Outcome State Fault Refusal := .next (s.setCore k.key { s.core k.key with wait := .stall })
       (loadChk a b = none →
         ((16 ≤ (flying s k 0).length ∨ (s.core k.key).owes src = true) → dld = waits) ∧
         (((flying s k 1).any (fun t => t.tok == some tok.val) = true ∨ (s.core k.key).owes src = true) → dpf = waits) ∧
         (s.devRuns x src = true → localRuns dst = true → (s.core k.key).owes src = false →
           ((flying s k 0).length < 16 →
             let u := (q.localWrite k.key (q.copyPieces k.key true near)).t3Reads k.key false far
             dld = .next (wrote (u.1.addXfer k.key { kind := 0, t3 := u.2, tag := (s.core k.key).cur }) h [] none) ∧
             (nearRuns rs = true → u.2 = []) ∧
             (∀ r w o g, rs = [r] → locOf r.1 = .tier3 w o → s.t3Host w o = some g →
               u.2 = [s.hif.t3Next] ∧ u.1.out = s.out ++ [.t3Read s.hif.t3Next g r.2.2] ∧ (u.1.core k.key).loc = (s.core k.key).loc)) ∧
           ((flying s k 1).all (fun t => t.tok != some tok.val) = true →
             let u := q.t3Reads k.key false far
             dpf = .next (wrote (u.1.addXfer k.key { kind := 1, tok := some tok.val, ps := q.copyPieces k.key true near, t3 := u.2,
                                                     tag := (s.core k.key).cur }) h [] none)))) ∧
       (firstChk [a.tileOk, b.tileOk, need (!a.space && b.space && copyOk a b)] = none → localRuns src = true → s.devRuns x dst = true →
         moves (begun s k) h x 2 2 (s.copyPieces k.key false rs) (exec (.dst { i := h, ts := ts, td := tdr }) s)) ∧
       (firstChk [a.tileOk, b.tileOk, need (a.space && b.space && copyOk a b)] = none → s.devRuns x src = true → s.devRuns x dst = true →
         ((s.core k.key).owes src = true → dcp = waits) ∧
         ((s.core k.key).owes src = false → far = [] → moves q h x 3 3 (q.copyPieces k.key true rs) dcp) ∧
         ((s.core k.key).owes src = false → far ≠ [] → (s.core k.key).epochs = [] →
           let ps := q.copyPieces k.key true near
           ps.any (fun p => q.captureHolds p.addr) = false → (q.performWrite x ps).2 = false →
             let u := (q.performWrite x ps).1.t3Reads k.key true far
             dcp = .next (wrote (u.1.addXfer k.key { kind := 3, dev := true, t3 := u.2, tag := (s.core k.key).cur }) h [] none))))

/-- DLD.WAIT waits for the DPF of its token and then gives 0, or waits for the ready flag of a walk's buffer slot and then gives the slot's valid
rows; while it waits nothing of it takes effect. DATA_MOVEMENT_COMPLETE ends one transfer, of a DPF with its destination written, once the host
has sent all of its data (R217, R244, R295, R296). The model's own choices in it: log entries 7 and 62. -/
def Obligations.TransfersEndAndAreWaitedFor : Prop :=
  ∀ (s : State) (k : CoreId) (x i : Nat) (neg : Bool) (p tok : Fin 16) (d : Fin 64) (slot : Fin 8) (wtag : Byte) (t : Xfer),
    runs s k x = true → predIs s (hdr k p neg) true = true →
    (s.core k.key).xfers[i]? = some t →
      let h := hdr k p neg
      let waits : Host.Outcome State Fault Refusal := .next (s.setCore k.key { s.core k.key with wait := .stall })
      ((flying s k 1).all (fun t => t.tok != some tok.val) = true →
        exec (.dldWait { i := h, tok := tok, rd := d }) s = .next (wrote s h [.s d.val 0 false] none)) ∧
      ((flying s k 1).any (fun t => t.tok == some tok.val) = true → exec (.dldWait { i := h, tok := tok, rd := d }) s = waits) ∧
      (∀ w, (s.core k.key).walks.find? (fun w => w.wtag == wtag.toNat) = some w →
        (∀ n, AMap.get (false, 0) slot.val w.ready = (true, n) →
          exec (.dldWait { i := h, slot := slot, wtag := wtag, wmode := true, rd := d }) s = .next (wrote s h [.s d.val (BitVec.ofNat 64 n) false] none)) ∧
        ((AMap.get (false, 0) slot.val w.ready).1 = false → exec (.dldWait { i := h, slot := slot, wtag := wtag, wmode := true, rd := d }) s = waits)) ∧
      (t.t3 = [] → exec (.dataMovementComplete k i) s =
        .next (s.setCore k.key { s.core k.key with xfers := (s.core k.key).xfers.eraseIdx i, loc := (s.core k.key).loc.write t.ps })) ∧
      (t.t3 ≠ [] → exec (.dataMovementComplete k i) s = .next s)

/-- The four forms of DST to a port: a partial for the collector of the core's partition, a walk request for the engine that serves the core, the
release of a ready buffer slot, an edit batch for the engine that SB names. A partial and a batch of a current epoch are held (R14, R117, R215,
R218, R221, R295, R299). The model's own choices in it: log entries 60 and 109. -/
def Obligations.DataSlotsSendToTheirPorts : Prop :=
  ∀ (s : State) (k : CoreId) (x : Nat) (neg : Bool) (p : Fin 16) (ts : Fin 32) (sa sb : Fin 64) (slot : Fin 8) (wtag : Byte),
    runs s k x = true → predIs s (hdr k p neg) true = true →
      let h := hdr k p neg
      let c := s.core k.key
      let a := td s k ts
      let tile := decide (a.tileOk = none) && !a.space && !(tr s k ts.val).2 && decide (a.addr + 64 ≤ 0x600000)
      let m : Partial := { desc := (sr s k sa).1.toNat, unit := (sr s k sb).1.toNat, data := bytesWords (c.loc.read a.addr 64),
                           po := c.loc.readPo a.addr 64, slot := x }
      let eng := (sr s k sb).1.toNat % 64
      let at64 := (sr s k sa).1.toNat / 64 * 64
      (tile = true → (sr s k sa).2 = false → (sr s k sb).2 = false → (sr s k sa).1.toNat % 64 = 0 →
        (outside s k = true → (∃ o, locOf m.desc = .store (k.key / 100) o ∧ o + 64 ≤ 0xC000000) →
          exec (.dstCollector { i := h, ts := ts, sa := sa, sb := sb }) s =
            .next (wrote (s.setCore k.key { c with parts := c.parts ++ [m] }) h [] none)) ∧
        (c.cur.isSome = true → exec (.dstCollector { i := h, ts := ts, sa := sa, sb := sb }) s =
          .next (wrote (held s k 6 2 (.collector m)) h [] none))) ∧
      (tile = true → s.savePauses x = false → c.loc.readPo a.addr 64 = false →
        let r := c.loc.read a.addr 64
        let tag := (c.loc.byte (a.addr + 24)).toNat
        let e := s.engineOf k.key
        let u := s.setCore k.key { c with walks := c.walks.filter (fun q => q.wtag != tag) ++ [{ wtag := tag, eng := e, tag := c.cur, word := c.pc }] }
        exec (.dstWalkRequest { i := h, ts := ts }) s =
          .next (wrote (u.setInd e { s.ind e with waiting := (s.ind e).waiting ++ [{ core := k.key, slot := x, req := r }] }) h [] none)) ∧
      (∀ w, c.walks.find? (fun w => w.wtag == wtag.toNat) = some w →
        ((AMap.get (false, 0) slot.val w.ready).1 = false →
          exec (.dstRelease { i := h, slot := slot, wtag := wtag }) s = .next (wrote s h [] none)) ∧
        ((AMap.get (false, 0) slot.val w.ready).1 = true → ∃ u, exec (.dstRelease { i := h, slot := slot, wtag := wtag }) s = .next u ∧
          (∃ w', w' ∈ (u.core k.key).walks ∧ w'.wtag = w.wtag ∧ w'.eng = w.eng ∧ AMap.get (false, 0) slot.val w'.ready = (false, 0) ∧
            ∀ j, j ≠ slot.val → AMap.get (false, 0) j w'.ready = AMap.get (false, 0) j w.ready) ∧
          (∀ q, q ∈ (s.ind w.eng).walks → q.core = k.key → reqTag q.req = w.wtag →
            { q with relq := q.relq ++ [slot.val] } ∈ (u.ind w.eng).walks) ∧
          u.mem = s.mem ∧ u.ctxs = s.ctxs ∧ (u.core k.key).loc = c.loc)) ∧
      ((sr s k sa).2 = false → (sr s k sb).2 = false → eng % 16 < 12 →
        let e := 12 * (eng / 16) + eng % 16
        (outside s k = true → exec (.dstEdit { i := h, sa := sa, sb := sb }) s =
          .next (wrote (s.setInd e { s.ind e with edits := (s.ind e).edits ++ [{ addr := at64, core := some (k.key, x), word := c.pc }] }) h [] none)) ∧
        (c.cur.isSome = true → exec (.dstEdit { i := h, sa := sa, sb := sb }) s =
          .next (wrote (held s k 6 2 (.edit e at64)) h [] none)))

/-- LAT holds the next wide instruction back until device time SA, which the core leaves at LAT_TIME_REACHED; late by at most the tolerance it is
counted, later it reports LATE_LAUNCH. Four milliseconds after the CCOMMIT of its oldest open epoch a core stops issue (R255, R298, R312, R313).
LWAIT waits for the event of its channel or handle and LFENCE for the acknowledgement of every earlier Vat-write, DST to memory, DCP and LSEND,
each with a timeout of SB nanoseconds that ends the context with LINK_TIMEOUT; neither may stand in an epoch (R298, R299, R300). The model's own
choices in it: log entry 7. -/
def Obligations.WaitsEndAtTheirTimeOrEvent : Prop :=
  (∀ (s : State) (k : CoreId) (x : Nat) (neg : Bool) (p : Fin 16) (sa : Fin 64),
     runs s k x = true → predIs s (hdr k p neg) true = true → (sr s k sa).2 = false →
       let h := hdr k p neg
       let t := (sr s k sa).1
       let now := s.tim.now
       (now < t → exec (.lat { i := h, sa := sa }) s = .next (s.setCore k.key { ends (s.core k.key) [] none with wait := .lat t }) ∧
         ∀ u : State, u.core k.key = { ends (s.core k.key) [] none with wait := .lat t } →
           exec (.latTimeReached k) u = .next (if t ≤ u.tim.now then u.setCore k.key { u.core k.key with wait := .none } else u)) ∧
       (now = t → exec (.lat { i := h, sa := sa }) s = .next (wrote s h [] none)) ∧
       (t < now → now.toNat - t.toNat ≤ (s.reg .timLateTol 0 0).toNat →
         exec (.lat { i := h, sa := sa }) s = .next (wrote (s.bump .timCnt 0 0 1) h [] none)) ∧
       (t < now → (s.reg .timLateTol 0 0).toNat < now.toNat - t.toNat →
         exec (.lat { i := h, sa := sa }) s = .next (wrote (((begun s k).bump .timCnt 0 1 1).extend x 0x04
           (min (now.toNat - t.toNat) (2 ^ 32 - 1)) (now.toNat - t.toNat)) h [] none)) ∧
       (∀ e es c, (s.core k.key).epochs = e :: es → e.ccommit = some c →
         ((s.core k.key).wait = .none ∨ (s.core k.key).wait = .stall ∨ ∃ l, (s.core k.key).wait = .write l) →
         exec (.epochIssueLimit k) s =
           .next (if c.toNat + 4000000 ≤ now.toNat then s.setCore k.key { s.core k.key with wait := .limit } else s))) ∧
  (∀ (s : State) (k : CoreId) (x : Nat) (neg : Bool) (p ch : Fin 16) (sb : Fin 64) (ev : Fin 8),
     runs s k x = true → predIs s (hdr k p neg) true = true → (sr s k sb).2 = false → ev.val < 2 →
     outside s k = true → ((s.core k.key).wait = .none ∨ (s.core k.key).wait = .stall) →
       let h := hdr k p neg
       let c := s.core k.key
       let due := if (sr s k sb).1 = 0 then 0 else s.tim.now + (sr s k sb).1
       let stands := fun (w : Wait) => s.setCore k.key { c with wait := w }
       (s.eventDone x ch.val ev.val = true → exec (.lwait { i := h, sb := sb, ch := ch, ev := ev }) s = .next (wrote s h [] none)) ∧
       (s.eventDone x ch.val ev.val = false →
         exec (.lwait { i := h, sb := sb, ch := ch, ev := ev }) s = .next (stands (.lwait due ch.val ev.val)) ∧
         (due ≠ 0 → ∀ u : State, u.core k.key = { c with wait := .lwait due ch.val ev.val } → u.coreSlot k.key = some x → due ≤ u.tim.now →
           u.eventDone x ch.val ev.val = false → exec (.lwaitTimeout k) u = .next (u.raise k.key x stLink 7 2 false))) ∧
       (c.fenced = true → exec (.lfence { i := h, sb := sb }) s = .next (wrote s h [] none)) ∧
       (c.fenced = false →
         exec (.lfence { i := h, sb := sb }) s = .next (stands (.lfence due)) ∧
         (due ≠ 0 → ∀ u : State, u.core k.key = { c with wait := .lfence due } → u.coreSlot k.key = some x → due ≤ u.tim.now →
           exec (.lfenceTimeout k) u = .next (u.raise k.key x stLink 7 6 false))) ∧
       (c.fenced = true ↔ c.vwq = [] ∧ c.vwAck = 0 ∧ (∀ t, t ∈ c.xfers → t.kind ≠ 2 ∧ t.kind ≠ 3) ∧ c.lsendOut = 0))

/-- LSEND sends a request for its tile and counts until the peer's PUT_DONE; LRECV posts its tile as the buffer of a channel that has no unfilled
one, so that it waits while one is posted; LCOLL starts the collective of its handle, or leaves it gated while the commit comparison of the
previous step is open, and a handle whose collective is not complete raises ILLEGAL_INSTRUCTION. In an epoch all three are held (R298, R299, R369
to R372, R379, R412). The model's own choices in it: log entries 7, 61 and 74. -/
def Obligations.LinkSlotsStartTheirTransfers : Prop :=
  ∀ (s : State) (k : CoreId) (x : Nat) (neg : Bool) (p ch : Fin 16) (sa sb : Fin 64) (ts : Fin 32) (ev : Fin 8) (tag : BitVec 16),
    runs s k x = true → predIs s (hdr k p neg) true = true →
    (tr s k ts.val).2 = false → (sr s k sa).2 = false → (sr s k sb).2 = false →
      let h := hdr k p neg
      let a := td s k ts
      let peer := (sr s k sa).1.toNat % 4096
      let v := s.chan x ch.val
      let send := exec (.lsend { i := h, sa := sa, sb := sb, ch := ch, ts := ts }) s
      let recv := exec (.lrecv { i := h, sa := sa, ch := ch, ts := ts }) s
      let coll := exec (.lcoll { i := h, ch := ch, ev := ev, ts := ts, imm16 := tag }) s
      (a.tileOk = none → s.tileReach x a = true → (a.space = true → (s.core k.key).owes a.runs = false) →
        (s.core k.key).cur.isSome = true →
          send = .next (wrote (held s k 7 3 (.lsend ch.val peer (s.tileBytes k.key a) (s.tilePo k.key a))) h [] none) ∧
          (intoVat a = false → recv = .next (wrote (held s k 7 4 (.lrecv ch.val peer a.space a.runs)) h [] none))) ∧
      (a.tileOk = none → s.tileReach x a = true → (a.space = true → (s.core k.key).owes a.runs = false) → outside s k = true →
        (∃ u, u = (begun s k).lsend k.key x ch.val peer (s.tileBytes k.key a) (s.tilePo k.key a) ∧ send = .next (wrote u h [] none) ∧
          (u.core k.key).lsendOut = (s.core k.key).lsendOut + 1 ∧
          (u.ctx x).sending = (s.ctx x).sending ++
            [{ core := k.key, slot := x, ch := ch.val, dst := peer, data := s.tileBytes k.key a, po := s.tilePo k.key a }] ∧
          u.mem = s.mem) ∧
        (intoVat a = false → (v.posted = false ∨ v.full = true) → v.reqs.find? (fun q => q.1 == peer) = none →
          recv = .next (wrote (s.setChan x ch.val { v with
            posted := true, full := false, core := k.key, src := peer, dev := a.space, runs := a.runs, len := 0, got := 0 }) h [] none)) ∧
        (intoVat a = false → v.posted = true → v.full = false →
          recv = .next (s.setCore k.key { s.core k.key with wait := .stall }))) ∧
      (a.plainOk = none → a.space = true → a.fmt = 2 → s.ctxMem x a.addr (2 * (a.rows * a.cols)) = true →
        ((s.core k.key).cur.isSome = true →
          coll = .next (wrote (held s k 7 5 (.lcoll ch.val ev.val tag.toNat a.addr (a.rows * a.cols))) h [] none)) ∧
        (outside s k = true →
          let g : CollState := { live := true, part := k.part.val, ev := ev.val, tag := tag.toNat, addr := a.addr, elems := a.rows * a.cols,
                                  links := (s.collCfg (12 * k.part.val) ch.val).links }
          ((s.coll x ch.val).live = false ∨ (s.coll x ch.val).done = true →
            (s.gateShut x = true → coll = .next (wrote (s.setColl x ch.val { g with gated := true }) h [] none)) ∧
            (s.gateShut x = false → (s.ctx x).redundancy.toNat % 16 < 5 →
              coll = .next (wrote (((begun s k).setColl x ch.val g).invoke x ch.val) h [] none))) ∧
          ((s.coll x ch.val).live = true → (s.coll x ch.val).done = false →
            coll = .next (faults s h x 7 5 stIllegal))))

/-- A Vat-write that passes its checks adds its 16 values to the words in memory, each sum rounded with RNE, or under SR with the bits of the
base die's seed, and no other byte changes; a core counts its acknowledgement, and VAT_WRITE_ACK takes it back. A sum that is poisoned, or whose
stored unit is poisoned or uncorrectable, stands poisoned. One that fails a check, or meets a stack whose generator failed, is discarded: its bit
is set and the context ends with PAGE_FAULT (R105 to R109, R170, R342, R344). -/
def Obligations.VatWritesReachMemory : Prop :=
  ∀ (s : State) (k : CoreId) (i : Nat) (w : VatW),
    (s.core k.key).vwq[i]? = some w → ((s.core k.key).vwq.take i).all (fun e => e.addr != w.addr) = true → s.captureHolds w.addr = false →
      (∀ p e off, vatAllowed s w p e k.part.val ((s.lcore k.key).getD 0x7E) = true → locOf w.addr = .mem p off →
        s.vwDead (s.stackOf p off) = false →
          exec (.vatWrite k i) s = .next ((s.vwTake k.key false w).vwApply k.key false w p e (s.stackOf p off))) ∧
      (∀ p e off, vatAllowed s w p e k.part.val ((s.lcore k.key).getD 0x7E) = true → locOf w.addr = .mem p off →
        s.vwDead (s.stackOf p off) = true → exec (.vatWrite k i) s = .next ((s.vwTake k.key false w).vwReject k.key false w none)) ∧
      (∀ p e off, locOf w.addr = .mem p off → s.retired w.addr = false → w.vals.length = 16 → w.addr % 64 = 0 → AMap.get [] (w.addr / 64) s.mem.errs = [] →
        (w.po = true ∨ s.mem.poAt w.addr = true) →
          ((s.vwTake k.key false w).vwApply k.key false w p e (s.stackOf p off)).mem.poAt w.addr = true) ∧
      (∀ p e off, vatAllowed s w p e k.part.val ((s.lcore k.key).getD 0x7E) = true → locOf w.addr = .mem p off → s.retired w.addr = false →
        s.vwDead (s.stackOf p off) = false → AMap.get [] (w.addr / 64) s.mem.errs = [] →
        w.po = false → s.mem.poAt w.addr = false → w.addr % 64 = 0 → w.vals.length = 16 →
        let bits := fun j => if w.sr then s.vwBits (s.stackOf p off) (s.region p e) w j else 0
        ∃ t, exec (.vatWrite k i) s = .next t ∧
          (∀ j, j < 16 → word32 t.mem w.addr j = vwSum w.sr (bits j) (word32 s.mem w.addr j) (w.vals.getD j 0)) ∧
          (∀ a, a < w.addr ∨ w.addr + 64 ≤ a → t.mem.byte a = s.mem.byte a) ∧ (∀ a, t.mem.poAt a = s.mem.poAt a) ∧
          (t.core k.key).vwq = (s.core k.key).vwq.erase w ∧ (t.core k.key).vwAck = (s.core k.key).vwAck + 1 ∧
          (t.stack (s.stackOf p off)).vatWrites = (s.stack (s.stackOf p off)).vatWrites + 1 ∧ (t.ctx w.slot).st = (s.ctx w.slot).st) ∧
      (∀ b, s.vwCheck w.addr k.part.val ((s.lcore k.key).getD 0x7E) = some b →
        exec (.vatWrite k i) s = .next ((s.vwTake k.key false w).vwReject k.key false w (some b))) ∧
      (∀ c : Core, exec (.vatWriteAck k) (s.setCore k.key { c with vwAck := (s.core k.key).vwAck + 1 }) =
        .next (s.setCore k.key { c with vwAck := (s.core k.key).vwAck }))

/-- A partial of the member whose turn it is joins the sum of its unit, the first as it is, each further one added; with the last member's the
unit is written, and the job leaves the collector with its last unit. A partial of a core that is no member, or that has sent its partial of that
unit, ends the context with ILLEGAL_INSTRUCTION (R118, R119, R121). The oldest deltas and the oldest digest of a core move to the verdict core of
their layer; a digest more than the comparison takes ends the context with ILLEGAL_INSTRUCTION (R146, R395, R396). -/
def Obligations.CollectorsTakePartialsDeltasAndDigests : Prop :=
  (∀ (s : State) (k : CoreId) (i c : Nat) (m : Partial) (j : Job),
     (s.core k.key).parts[i]? = some m → (s.part k.part.val).jobs = [j] → j.desc = m.desc → s.lcore k.key = some c → j.staged = [] →
     s.captureHolds (j.dest + 64 * m.unit) = false →
       let u := s.setCore k.key { s.core k.key with parts := (s.core k.key).parts.erase m }
       let a := j.sum m.unit
       let v := if a.2.2 = 0 then m.data else List.zipWith add32 a.1 m.data
       let j1 := { j with sums := AMap.put ([], false, 0) m.unit (v, a.2.1 || m.po, a.2.2 + 1) j.sums }
       (j.members[a.2.2]? = some c → j.members.Nodup → m.unit < j.units → j.written.contains m.unit = false →
         (a.2.2 + 1 < j.members.length →
           exec (.collectorPartial k i) s = .next (u.setPart k.part.val { u.part k.part.val with jobs := [j1] })) ∧
         (a.2.2 + 1 = j.members.length → j.kind = 0 →
           let j2 := { j1 with sums := AMap.erase m.unit j1.sums, written := j.written ++ [m.unit] }
           let left := if j.units ≤ j.written.length + 1 then [] else [j2]
           let w := (u.setPart k.part.val { u.part k.part.val with jobs := left }).performWrite j.slot
             (unitPiece (j.dest + 64 * m.unit) (wordsBytes v) (a.2.1 || m.po))
           w.2 = false → exec (.collectorPartial k i) s = .next w.1)) ∧
       (j.members.contains c = false ∨ j.written.contains m.unit = true ∨ j.units ≤ m.unit →
         exec (.collectorPartial k i) s = .next (u.endBy m.slot stIllegal 0x0D))) ∧
  (∀ (s : State) (k : CoreId) (x : Nat),
     s.coreSlot k.key = some x →
       (∀ m t, (s.core k.key).fins = m :: t → exec (.finDeltasReceive k) s =
         .next ((s.setCore k.key { s.core k.key with fins := t }).setCtx x { s.ctx x with fins := (s.ctx x).fins ++ [m] })) ∧
       (∀ d t, (s.core k.key).digests = d :: t →
         let same := (s.ctx x).digs.filter (fun e => e.run == d.run && e.tile == d.tile)
         let u := s.setCore k.key { s.core k.key with digests := t }
         (same.all (fun e => e.core != d.core) = true → same.length < 2 →
           exec (.shadowDigestReceive k) s = .next (u.setCtx x { s.ctx x with digs := (s.ctx x).digs ++ [d] })) ∧
         (same.any (fun e => e.core == d.core) = true ∨ 3 ≤ same.length →
           exec (.shadowDigestReceive k) s = .next (u.endBy x stIllegal 0x0F))))

/-- The default policy decides as R152 computes it, with RERUN as R149 restricts it: on a level 2 record it never orders a re-run, and it orders
at most one in a step; its end-of-step routine starts a layer that fell back at its LEVEL, and tries one level narrower after LOWER_AFTER clean
steps. VERDICT under the default policy with no digests to compare: the outcome on the summed deltas is noted and its run used up; PASS and
ACCEPT reach every core that holds an epoch of the run, RERUN(l) writes LEVEL, RERUN_USED, FELL_BACK and FALLBACKS and aborts the run, EXHAUSTED
ends the context with FALLBACK_EXHAUSTED; in reference mode the policy decides as at level 2, and orders no re-run. A re-dye verdict, before the
first run of the step, does the same for the counts of the layer's weight tensor outside any epoch, which join its totals and leave the counter
files; with nothing counted it is PASS; after a forward run has begun, and in reference mode, none is taken (R146 to R150, R204). The model's own
choices in it: log entries 27, 34 and 78. -/
def Obligations.PolicyDecidesVerdicts : Prop :=
  ((∀ (b : List Byte) (d : Delta),
     policyDefault b d = policy152 (leField b 2 2 % 4) (leField b 20 21) (leField b 16 17) (leField b 18 19) (leField b 22 23)
         (natBit (leField b 4 4) 0) (BitVec.ofNat 32 (leField b 24 27)) (BitVec.ofNat 32 (leField b 28 31)) d ∧
       (∀ l, policyDefault b d = .rerun l → leField b 2 2 % 4 < l ∧ l ≤ 2 ∧ natBit (leField b 4 4) 0 = false)) ∧
   (∀ (b : List Byte), b.length = 64 →
     let e := endOfStepDefault b
     let base := fun (b : List Byte) => leField b 3 3 % 4
     let clean := fun (b : List Byte) => leField b 6 7
     let more := min (clean b + 1) 0xFFFF
     (natBit (leField b 4 4) 2 = true → base e = leField b 2 2 % 4 ∧ clean e = 0 ∧ natBit (leField e 4 4) 1 = true) ∧
     (natBit (leField b 4 4) 2 = false → leField e 4 4 = leField b 4 4 ∧
       (0 < base b → leField b 14 15 ≤ more → base e = base b - 1 ∧ clean e = 0) ∧
       (base b = 0 ∨ more < leField b 14 15 → base e = base b ∧ clean e = more)) ∧
     (∀ j, j ≠ 3 → j ≠ 4 → j ≠ 6 → j ≠ 7 → e.getD j 0 = b.getD j 0)) ∧
   (∀ (s : State) (n mb : Nat) (b : List Byte) (d : Delta) (redye : Bool), natBit (s.reg .morCtrl n 0).toNat 0 = false →
     s.polDecide n b d redye mb = (s, policyDefault b d, b) ∧ s.polDecideEnd n b = (s, endOfStepDefault b))) ∧
  ((∀ (s : State) (slot : Fin 4) (n i : Nat) (run : Run),
       judged s slot.val n i run = true →
         let x := slot.val
         let a := (counted s).recAddr n i
         let b := (counted s).devRead a 64
         let ref := (s.ctx x).refmode
         let v := policyDefault (if ref then withLevel b 2 else b) (summed s x run)
         let kept := if ref then withLevel (withLevel b 2) (leField b 2 2) else b
         let u := ((counted s).noteVerdict n run.layer.toNat (if ref then 2 else leField b 2 2 % 4) v false).dropRun x run
         ((v = .pass ∨ v = .accept) → exec (.verdict slot run) s = .next ((u.rawWrite a kept).broadcast x run v)) ∧
         (ref = true → ∀ l, v ≠ .rerun l) ∧
         (∀ l, ref = false → v = .rerun l → exec (.verdict slot run) s = .next (((u.rawWrite a (rerunRecord b l)).abortRun x run).fallback x run l) ∧
           leField (rerunRecord b l) 2 2 % 4 = l ∧ natBit (leField (rerunRecord b l) 4 4) 0 = true ∧ natBit (leField (rerunRecord b l) 4 4) 2 = true ∧
           leField (rerunRecord b l) 32 35 = min (leField b 32 35 + 1) (2 ^ 32 - 1)) ∧
         (v = .exhausted → exec (.verdict slot run) s = .next ((u.rawWrite a kept).endBy x stExhausted 0x04))) ∧
   (∀ (s : State) (slot : Fin 4) (lrec : BitVec 16) (n0 : Nat) (rest : List Nat),
       let x := slot.val
       let i := lrec.toNat
       let b0 := s.devRead (s.recAddr n0 i) 64
       let w := leField b0 8 9
       let n := (s.verdictCore x (leField b0 0 1)).getD n0
       let mine := fun (e : CfEntry) => e.trec == w && e.tag.isNone
       let d := ((s.ctxCores x).flatMap (fun n => ((s.core n).cf.filter mine).map (fun e => e.d))).foldl Delta.add {}
       let u0 := ((s.nameLayer x i).addTotals x n w d).mapCores (s.ctxCores x) (fun c => { c with cf := c.cf.filter (fun e => !mine e) })
       let u := u0.setCtx x { u0.ctx x with redyed := (s.ctx x).redyed ++ [i] }
       let a := u.recAddr n i
       let b := u.devRead a 64
       let v := policyDefault b d
       let z := u.noteVerdict n (leField b0 0 1) (leField b 2 2 % 4) v true
       (((s.ctx x).refmode = true ∨ (s.ctx x).forward = true) → exec (.redyeVerdict slot lrec) s = .next s) ∧
       (s.ctxCores x = n0 :: rest → (s.ctx x).st = .running → (s.ctx x).redyed.contains i = false → (s.ctx x).refmode = false →
       (s.ctx x).forward = false → s.recBad x n0 i = none → s.recBad x n w = none →
       natBit (u.reg .morCtrl n 0).toNat 0 = false →
         ((v = .pass ∨ v = .accept) → exec (.redyeVerdict slot lrec) s = .next (z.rawWrite a b)) ∧
         (∀ l, v = .rerun l → exec (.redyeVerdict slot lrec) s = .next ((z.rawWrite a (rerunRecord b l)).fallbackRedye x (leField b0 0 1) l)) ∧
         (v = .exhausted → exec (.redyeVerdict slot lrec) s = .next ((z.rawWrite a b).endBy x stExhausted 0x04)) ∧
         ((s.ctxCores x).all (fun n => (s.core n).cf.all (fun e => !mine e)) = true → v = .pass))))

/-- EPOCH_COMMIT: the oldest epoch of a core, closed and passed, leaves it with its tag free, its counts join the totals, and what it held is
released; a core at its issue limit issues again. Any other epoch stays. EPOCH_ABORT aborts a set of runs on every core of the context: the least
one that holds its run and with each of its runs every run of a younger epoch on any core. A core with an epoch of those runs stands at the
restart address of the oldest, with the registers of its snapshot and LEVELSEL as it was, and issues again (R137, R255 to R258). -/
def Obligations.EpochsCommitInOrderAndAbortTogether : Prop :=
  (∀ (s : State) (k : CoreId) (e : Epoch) (rest : List Epoch),
    (s.core k.key).epochs = e :: rest →
      let mine := (s.core k.key).cf.filter (fun q => q.tag == some e.tag)
      let c := (s.core k.key).closeEpoch e rest
      (ready e = true →
        (∀ x, s.coreSlot k.key = some x →
          exec (.epochCommit k) s = .next (((s.addEntries x k.key mine).setCore k.key c).release k.key)) ∧
        (s.coreSlot k.key = none → exec (.epochCommit k) s = .next (s.setCore k.key c)) ∧
        (e.held = [] → (s.core k.key).rel = [] → mine = [] → exec (.epochCommit k) s = .next (s.setCore k.key c)) ∧
        c.epochs = rest ∧ c.rel = (s.core k.key).rel ++ e.held.map (fun h => { h with tag := e.tag }) ∧
        c.cf = (s.core k.key).cf.filter (fun q => q.tag != some e.tag) ∧
        c.wait = (if (s.core k.key).wait = .limit then .none else (s.core k.key).wait) ∧
        c.s = (s.core k.key).s ∧ c.pc = (s.core k.key).pc) ∧
      (ready e = false → exec (.epochCommit k) s = .next s)) ∧
  (∀ (s : State) (slot : Fin 4) (run : Run),
    ∃ t, exec (.epochAbort slot run) s = .next t ∧ t = s.abortRun slot.val run ∧ ∃ gone : List Run, run ∈ gone ∧
      (∀ n, n ∈ s.ctxCores slot.val → ∀ old e young, (s.core n).epochs = old ++ e :: young → e.run ∈ gone → ∀ f, f ∈ young → f.run ∈ gone) ∧
      (∀ g : Run → Prop, g run →
        (∀ n, n ∈ s.ctxCores slot.val → ∀ old e young, (s.core n).epochs = old ++ e :: young → g e.run → ∀ f, f ∈ young → g f.run) →
          ∀ r, r ∈ gone → g r) ∧
      (∀ n, n ∈ s.ctxCores slot.val →
        ((∀ e, e ∈ (s.core n).epochs → e.run ∉ gone) → (t.core n).epochs = (s.core n).epochs ∧ (t.core n).pc = (s.core n).pc ∧
          (t.core n).s = (s.core n).s ∧ (t.core n).wait = (s.core n).wait) ∧
        (∀ old e young, (s.core n).epochs = old ++ e :: young → e.run ∈ gone → (∀ q, q ∈ old → q.run ∉ gone) →
          (t.core n).epochs = old ∧ (t.core n).pc = e.restart ∧ (t.core n).s = e.snap.s ∧ (t.core n).p = e.snap.p ∧ (t.core n).v = e.snap.v ∧
          (t.core n).t = e.snap.t ∧ (t.core n).level = e.snap.level ∧ (t.core n).wait = .none ∧ (t.core n).halted = false ∧
          (t.core n).word = [])) ∧
      (∀ f, f ∈ (t.ctx slot.val).fins → f.run ∉ gone) ∧ (∀ d, d ∈ (t.ctx slot.val).digs → d.run ∉ gone))

/-- STEP_COMMIT does nothing before every core has reached CCOMMIT.STEP; then dirty Vat tiles are sent and the Vat emptied, poison counted since
the last commit ends the context with POISON_CONSUMED, and a step that named no record and belongs to no checkpoint set ends with STEPNO + 1 and
its cores issuing again. DRAIN_COMPLETE: a draining context with a Vat-write in flight stays; without one it is HALTED, its status kept (R101,
R252, R260, R383). The model's own choices in it: log entry 34. -/
def Obligations.StepsCommitAndDrainsEnd : Prop :=
  ∀ (s : State) (slot : Fin 4),
    let x := slot.val
    ((s.ctx x).st = .running → (s.ctx x).boundary = false →
      (s.stepReached x = false → exec (.stepCommit slot) s = .next s) ∧
      (s.stepReached x = true →
        ((s.ctxCores x).any (fun n => !(s.core n).vat.isEmpty) = true →
          exec (.stepCommit slot) s = .next ((s.ctxCores x).foldl (fun s n => s.sendDirty x n) s) ∧
          ∀ n, n ∈ s.ctxCores x → (((s.ctxCores x).foldl (fun s n => s.sendDirty x n) s).core n).vat = []) ∧
        ((s.ctxCores x).all (fun n => (s.core n).vat.isEmpty) = true →
          (s.vatBusy x = true → exec (.stepCommit slot) s = .next s) ∧
          (s.vatBusy x = false → (s.ctx x).tally ≠ 0 → exec (.stepCommit slot) s = .next (s.endBy x stPoison 0x07)) ∧
          (s.vatBusy x = false → (s.ctx x).tally = 0 → (s.ctx x).layers = [] → (s.ctx x).trecs = [] → (s.ctx x).ckptOk = false →
            (s.ctx x).save = none → (s.ctxCores x).all (fun n => (s.core n).cf.all (fun e => e.tag.isSome)) = true → ∃ t, exec (.stepCommit slot) s = .next t ∧ (t.ctx x).stepno = (s.ctx x).stepno + 1 ∧
              (t.ctx x).tActive = false ∧ (t.ctx x).boundary = false ∧ ∀ n, n ∈ t.ctxCores x → (t.core n).wait ≠ .step)))) ∧
    ((s.ctx x).st = .draining → s.vatBusy x = true → exec (.drainComplete slot) s = .next s) ∧
    ((s.ctx x).st = .draining → s.vatBusy x = false → ∃ t, exec (.drainComplete slot) s = .next t ∧
      (t.ctx x).st = .halted ∧ (t.ctx x).status = (s.ctx x).status ∧ (t.ctx x).fault = (s.ctx x).fault ∧
      (t.ctx x).parts = (s.ctx x).parts) ∧
    ((s.ctx x).st ≠ .draining → exec (.drainComplete slot) s = .next s)

/-- Every arithmetic row of R269, LUI, LD and ST: the result goes to rd, w0 keeps reading zero, a data word is read or written at ra + imm in the
4 KiB data memory, and nothing else but the counts changes. -/
def Obligations.WeldArithmeticAndData : Prop :=
  ∀ (s : State) (a : WeldA) (i : WeldI) (u : WeldU) (e : Instr × W32),
    let pc := fun (w : WeldId) => (s.weld w.key).pc + 1
    (weldRuns s a.w = true → e ∈ weldArith a (wreg s a.w a.ra) (wreg s a.w a.rb) →
      exec e.1 s = .next (welded s a.w (pc a.w) (wput s a.w a.rd e.2) (s.weld a.w.key).data)) ∧
    (weldRuns s i.w = true → e ∈ weldImmediate i (wreg s i.w i.ra) →
      exec e.1 s = .next (welded s i.w (pc i.w) (wput s i.w i.rd e.2) (s.weld i.w.key).data)) ∧
    (weldRuns s u.w = true →
      exec (.weldLui u) s = .next (welded s u.w (pc u.w) (wput s u.w u.rd (BitVec.ofNat 32 (u.imm.toNat * 1024))) (s.weld u.w.key).data)) ∧
    (weldRuns s i.w = true → (wreg s i.w i.ra + BitVec.ofInt 32 i.imm.toInt).toNat % 4 = 0 → (wreg s i.w i.ra + BitVec.ofInt 32 i.imm.toInt).toNat < 4096 →
      let at4 := (wreg s i.w i.ra + BitVec.ofInt 32 i.imm.toInt).toNat / 4
      exec (.weldLd i) s = .next (welded s i.w (pc i.w) (wput s i.w i.rd (AMap.get 0 at4 (s.weld i.w.key).data)) (s.weld i.w.key).data) ∧
      exec (.weldSt i) s =
        .next (welded s i.w (pc i.w) (s.weld i.w.key).w (AMap.put 0 at4 (wreg s i.w i.rd) (s.weld i.w.key).data)))

/-- Branches go to the instruction after the next plus the offset where their condition holds, JAL saves the address of the next instruction in
w15, JR goes to ra + imm, both modulo 4,096. RET ends the invocation of a sequencer other than a link engine's, and TRAP, a misaligned or
out-of-range data address and a used-up budget end it with causes 1, 3 and 5; a link engine whose program returns 0 with no command left leaves
its invocation (R267, R269 to R271, R372). The model's own choices in it: log entry 7. -/
def Obligations.WeldFlowAndTraps : Prop :=
  ∀ (s : State) (a : WeldA) (i : WeldI) (b : WeldB) (u : WeldU) (e : Instr × Bool),
    let c := fun (w : WeldId) => s.weld w.key
    (weldRuns s b.w = true → e ∈ weldBranches b (wreg s b.w b.ra) (wreg s b.w b.rb) →
      exec e.1 s = .next (welded s b.w (if e.2 then BitVec.ofInt 12 ((c b.w).pc.toInt + 1 + b.off.toInt) else (c b.w).pc + 1) (c b.w).w (c b.w).data)) ∧
    (weldRuns s u.w = true → exec (.weldJal u) s =
      .next (welded s u.w (BitVec.ofNat 12 u.imm.toNat) (wput s u.w 15 (BitVec.ofNat 32 (((c u.w).pc.toNat + 1) % 4096))) (c u.w).data)) ∧
    (weldRuns s i.w = true → exec (.weldJr i) s =
      .next (welded s i.w (BitVec.ofInt 12 ((wreg s i.w i.ra).toInt + i.imm.toInt)) (c i.w).w (c i.w).data)) ∧
    (weldRuns s a.w = true → plainWeld a.w = true →
      exec (.weldRet a) s = .next (((s.bump .wldCnt a.w.key 1 1).draw).setFld .wldStatus a.w.key 0 0 0 0) ∧
      exec (.weldTrap a) s = .next (trapped (s.bump .wldCnt a.w.key 1 1).draw a.w 1)) ∧
    (weldRuns s i.w = true → plainWeld i.w = true →
      ((wreg s i.w i.ra + BitVec.ofInt 32 i.imm.toInt).toNat % 4 ≠ 0 ∨ 4096 ≤ (wreg s i.w i.ra + BitVec.ofInt 32 i.imm.toInt).toNat) →
      exec (.weldLd i) s = .next (trapped (s.bump .wldCnt i.w.key 1 1).draw i.w 3) ∧
      exec (.weldSt i) s = .next (trapped (s.bump .wldCnt i.w.key 1 1).draw i.w 3)) ∧
    (natBit (s.reg .wldStatus a.w.key 0).toNat 0 = true → budgetOf a.w ≤ (c a.w).count → plainWeld a.w = true →
      exec (.weldBudgetTrap a.w) s = .next (trapped s a.w 5) ∧ exec (.weldAdd a) s = .next s) ∧
    (∀ n v, a.w = .link n → weldRuns s a.w = true → wreg s a.w 1 = 0 → (s.link n.val).inv = some v → v.queue = [] → v.abandoned = false →
      exec (.weldRet a) s = .next (((((s.bump .wldCnt a.w.key 1 1).draw.setLink n.val { s.link n.val with inv := some { v with ended := true } }).setFld
          .wldStatus a.w.key 0 0 0 0).dropInv n.val).engineDone v.slot v.ch n.val))

/-- LDX on a link engine that runs an invocation completes at every word of its I/O space: it reads the handle's configuration record, the words
that name its collective, and at the words that only write an open value. STX completes at every such word: 0x120 and 0x124 take the command
words, 0x128 queues the command that they spell, one of the six operations, unless the handle is abandoned, and a word that only reads takes
nothing (the open value and the last are the model's choice, log entry 72). A reserved operation, a misaligned offset and one outside the I/O
space trap with cause 4, which abandons the invocation; so does either on a sequencer whose host unit has none (R270, R372, R379). The model's
own choices in it: log entries 72 and 109. -/
def Obligations.WeldInputAndOutput : Prop :=
  ∀ (s : State) (n : Fin 48) (v : Inv) (i : WeldI),
    let w := s.weld i.w.key
    let o := (wreg s i.w i.ra + BitVec.ofInt 32 i.imm.toInt).toNat
    let at1 := w.pc + 1
    let ldx := exec (.weldLdx i) s
    let stx := exec (.weldStx i) s
    let reads := fun (k : W32) => ldx = .next (welded s i.w at1 (wput s i.w i.rd k) w.data)
    let traps : Host.Outcome State Fault Refusal :=
      .next (((s.bump .wldCnt i.w.key 1 1).draw.weldTrapped i.w.key 4 w.pc).collFails n.val)
    weldRuns s i.w = true →
      (i.w = .link n → (s.link n.val).inv = some v →
        (o % 4 = 0 → o < 0x134 →
          (∃ k, reads k) ∧
          (o < 0x100 → reads (BitVec.ofNat 32 (s.mem.num (s.collAddr n.val v.ch + o) 4))) ∧
          (∀ e, e ∈ linkWords s n v → o = e.1 → reads (BitVec.ofNat 32 e.2)) ∧
          (o = 0x120 → stx =
            .next ((welded s i.w at1 w.w w.data).setLink n.val { s.link n.val with inv := some { v with r120 := wreg s i.w i.rd } })) ∧
          (o = 0x124 → stx =
            .next ((welded s i.w at1 w.w w.data).setLink n.val { s.link n.val with inv := some { v with r124 := wreg s i.w i.rd } })) ∧
          (o = 0x128 → 1 ≤ v.r120.toNat % 16 → v.r120.toNat % 16 ≤ 6 →
            let c : StageCmd := { op := v.r120.toNat % 16, dim := v.r120.toNat / 16 % 2, stage := v.r120.toNat / 256 % 256, chunk := v.r124.toNat }
            (v.abandoned = false → stx =
              .next ((welded s i.w at1 w.w w.data).setLink n.val { s.link n.val with inv := some { v with queue := v.queue ++ [c] } })) ∧
            (v.abandoned = true → stx = .next (welded s i.w at1 w.w w.data))) ∧
          (o = 0x128 → (v.r120.toNat % 16 = 0 ∨ 6 < v.r120.toNat % 16) → stx = traps) ∧
          (o ≠ 0x120 → o ≠ 0x124 → o ≠ 0x128 → stx = .next (welded s i.w at1 w.w w.data))) ∧
        ((o % 4 ≠ 0 ∨ 0x134 ≤ o) → ldx = traps ∧ stx = traps)) ∧
      (plainWeld i.w = true →
        ldx = .next (trapped (s.bump .wldCnt i.w.key 1 1).draw i.w 4) ∧
        stx = .next (trapped (s.bump .wldCnt i.w.key 1 1).draw i.w 4))

/-- A stopped sequencer whose lock bit is clear and whose partition has no context takes a program: word by word through WLD_PROG_DATA, with the
index moving on, or as an image that WLD_LOAD announces and WLD_LOAD_DONE finds in program memory, that of every Mordant sequencer of the
partition under BCAST; with a context bound both are ignored with LOAD_IGNORED, also while the sequencer runs, and a firmware-owned sequencer
ignores them. CLR_DATA zeroes the data memory (R272). -/
def Obligations.WeldProgramsAreLoaded : Prop :=
  ∀ (s : State) (w : WeldId) (v : W32),
    let n := w.key
    let x := s.partSlot (weldPart n)
    let fw := natBit (s.reg .wldStatus n 0).toNat 2
    (s.weldOpen n = true → x = none →
      exec (.wldLoad w) s = .next (s.orReg .wldStatus n 0 2) ∧
      exec (.wldProgDataWrite w v) s =
        .next ((s.setWeld n { s.weld n with prog := AMap.put 0 (s.fld .wldProgIdx n 0 11 0) v (s.weld n).prog }).setReg .wldProgIdx n 0
          (BitVec.ofNat 32 ((s.fld .wldProgIdx n 0 11 0 + 1) % 4096)))) ∧
    (s.blkOpen .wld n = true → fw = false → x.isSome = true →
      exec (.wldLoad w) s = .next (s.orReg .wldStatus n 0 8) ∧ exec (.wldProgDataWrite w v) s = .next (s.orReg .wldStatus n 0 8)) ∧
    (fw = true → exec (.wldLoad w) s = .next s ∧ exec (.wldProgDataWrite w v) s = .next s ∧ exec (.clrData w) s = .next s) ∧
    (natBit (s.reg .wldStatus n 0).toNat 1 = true → ∃ t, exec (.wldLoadDone w) s = .next t ∧
      (∀ i j, i < 4096 → j ∈ s.loadTargets n → AMap.get 0 i (t.weld j).prog =
        BitVec.ofNat 32 (s.devNum (s.fld .wldLoadHi n 0 15 0 * 2 ^ 32 + s.fld .wldLoadLo n 0 31 6 * 64 + 4 * i) 4)) ∧
      n ∈ s.loadTargets n ∧ (∀ j, (t.weld j).data = (s.weld j).data ∧ (t.weld j).w = (s.weld j).w) ∧ t.mem = s.mem ∧
      (∀ p i, w = .mordant ⟨p, i⟩ → natBit (s.reg .wldCtrl n 0).toNat 2 = true → ∀ j : Fin 100, 100 * p.val + j.val ∈ s.loadTargets n)) ∧
    (natBit (s.reg .wldStatus n 0).toNat 1 = false → exec (.wldLoadDone w) s = .next s) ∧
    (s.blkOpen .wld n = true → fw = false → exec (.clrData w) s = .next (s.setWeld n { s.weld n with data := [] }))

/-- The six stage commands of R372 on a chunk that has arrived: SEND sends the local chunk on; ADD_SEND sends the rounded sums, ADD_WRITE writes
them too; COPY_SEND writes the received chunk and sends it on, COPY writes it; WAIT is over when it is first. A command whose chunk has not come
waits, and a poisoned local unit ends the context before anything is sent (R372, R374, R383). The model's own choices in it: log entry 74. -/
def Obligations.StageCommandsMoveTheirChunk : Prop :=
  ∀ (s : State) (n : Fin 48) (i : Inv) (c : StageCmd) (rest : List StageCmd) (m : CollMsg),
    (stands s n i c rest 6 = true → exec (.stageWait n) s = .next (stepped s n i rest)) ∧
    (stands s n i c rest 1 = true → mineClean s n i c = true →
      exec (.stageSend n) s = .next (stepped (sendsChunk s s n i c (mineAt s n i c)) n i rest)) ∧
    (stands s n i c rest 1 = true → mineClean s n i c = false → exec (.stageSend n) s = .next (s.endBy i.slot stPoison 0x08)) ∧
    (arrived s n i c m = true →
      let u := taken s n i c m
      let got := m.elems.map (fun e => e.toNat)
      (stands s n i c rest 2 = true → mineClean s n i c = true → ∃ k, k ≤ m.elems.length ∧
        exec (.stageAddSend n) s = .next (stepped (sendsChunk s (u.evalsUp 2 k) n i c (sumsAt s n i c m)) n i rest)) ∧
      (stands s n i c rest 3 = true → mineClean s n i c = true → ∃ k, k ≤ m.elems.length ∧
        let w := writesChunk s (u.evalsUp 2 k) n i c (sumsAt s n i c m)
        (w.2 = false → exec (.stageAddWrite n) s = .next (stepped (sendsChunk s w.1 n i c (sumsAt s n i c m)) n i rest))) ∧
      (stands s n i c rest 4 = true → (writesChunk s u n i c got).2 = false →
        exec (.stageCopySend n) s = .next (stepped (sendsChunk s (writesChunk s u n i c got).1 n i c got) n i rest)) ∧
      (stands s n i c rest 5 = true → (writesChunk s u n i c got).2 = false →
        exec (.stageCopy n) s = .next (stepped (writesChunk s u n i c got).1 n i rest))) ∧
    ((s.link (before s n i c)).chunks = [] → (chunkAt s n i c).1 < (chunkAt s n i c).2 →
      (stands s n i c rest 4 = true → exec (.stageCopySend n) s = .next s) ∧ (stands s n i c rest 5 = true → exec (.stageCopy n) s = .next s))

/-- A chunk message in sequence for a live collective joins the link's receive buffer; a poisoned one ends the context; one of an ended context
or an abandoned handle is discarded, and one out of sequence is answered with NAK. Twins whose digests agree start their engines, and a
difference in CTXCORES or STEPNO ends the context with SDC_MISMATCH, as does a differing block once both unit lists are written; a referee whose
digests match neither list ends it with TRIPLE_DISAGREE, else REF names the lists that match (R370, R374, R379, R398, R399). The model's own
choices in it: log entries 75 and 76. -/
def Obligations.CollectivesReceiveAndCompare : Prop :=
  ∀ (s : State) (n : Fin 48) (h : FlitHead) (m : CollMsg) (slot : Fin 4) (ch : Fin 16) (d : List W64),
    let x := slot.val
    let v := s.coll x ch.val
    (s.linkUp n.val = true → s.inSeq n.val h m.flits 1 = true → credits s n h = true → m.slot = slot → m.ch = ch →
      let gone := (s.ctx x).st = .free ∨ (s.ctx x).st = .draining ∨ (s.ctx x).st = .halted ∨ v.abandoned = true
      (¬ gone → (v.live = false ∨ m.poison.all (fun b => !b) = true) → ∃ t, exec (.collChunkReceive n h m) s = .next t ∧
        (t.link n.val).chunks = (s.link n.val).chunks ++ [m] ∧ t.mem = s.mem ∧ t.ctxs = s.ctxs) ∧
      (gone → ∃ t, exec (.collChunkReceive n h m) s = .next t ∧
        (t.link n.val).chunks = (s.link n.val).chunks ∧ t.mem = s.mem ∧ t.ctxs = s.ctxs) ∧
      (¬ gone → v.live = true → m.poison.any id = true →
        exec (.collChunkReceive n h m) s = .next ((s.recvMsg n.val h m.flits 1).endBy x stPoison 0x08))) ∧
    (s.linkUp n.val = true → s.inSeq n.val h m.flits 1 = false → exec (.collChunkReceive n h m) s = .next (s.sendNak n.val)) ∧
    (s.linkUp n.val = false → exec (.collChunkReceive n h m) s = .next s) ∧
    (v.live = true → v.twinWait = true → (s.ctx x).twin ≠ [] →
      exec (.twinDigestReceive slot ch d) s = .next ((s.writeLists x (s.ctx x).twin d).endBy x stSdc 0x0F)) ∧
    (v.live = true → v.twinWait = true → (s.ctx x).twin = [] →
      (d = twinWords s x v → exec (.twinDigestReceive slot ch d) s = .next (s.invoke x ch.val)) ∧
      (d.take 2 ≠ (twinWords s x v).take 2 → exec (.twinDigestReceive slot ch d) s = .next (s.endBy x stSdc 0x0F))) ∧
    (∀ e, (s.ctx x).colls = [e] → e.2.live = true → e.2.done = false → e.2.gated = false → (s.ctx x).redundancy.toNat % 16 = 7 → e.2.elems ≤ 2 ^ 19 →
      e.2.elems ≠ 0 →
      let at0 := storeAddr (lowPart (s.ctx x).parts) (s.fld .errCtxArb 0 x 27 8 * 256)
      let mine := s.unitDigests e.2.addr e.2.elems
      let is := fun (a : Nat) => mine.zipIdx.all (fun q => s.mem.num (a + 8 * q.2) 8 == q.1.toNat)
      let ref := bit (is at0) + 2 * bit (is (at0 + 4096))
      let u := ((s.setFld .errCtxStatus 0 x 17 16 ref).setFld .errCtxStatus 0 x 19 19 1).setColl x e.1 { e.2 with live := false, done := true }
      exec (.refereeCompare slot) s = .next (if ref = 0 then u.endBy x stTriple 0x0F else u))

/-- The life of a walk: an engine takes the oldest waiting request into a walk slot; the pin phase raises PIN by one and sets LAST_USE in every
page's entry, changes nothing else of memory, and records each mapping; each page delivered sets the ready flag of its buffer slot with its valid
rows, from the page's staged copy or its frame, and a tier-3 page that has none is staged first where a device frame can be had; each release
unpins its page and writes LAST_USE, and with the last one the completion record is written; a poisoned retire record ends the walking context; a
staged copy becomes ready (R215 to R219, R229, R230, R242). The model's own choices in it: log entries 91 and 101. -/
def Obligations.WalksPinDeliverAndRelease : Prop :=
  ∀ (s : State) (e : Fin 48) (i : Nat) (w : Walk),
    let n := e.val
    (∀ r rest, (s.ind n).waiting = r :: rest → walkTakes s n r = true →
      let u := (s.setInd n { s.ind n with waiting := rest }).demandUnit (.ind n)
      let home := (seqOf (s.devRead (walkForm r.req).seq 64)).home
      exec (.walkRequest e) s = .next ((u.setInd n { u.ind n with
        walks := (u.ind n).walks ++ [{ core := r.core, slot := r.slot, req := r.req, home := home }] }).knowSeq home (walkForm r.req).seq)) ∧
    ((s.ind n).walks[i]? = some w → mayPin s n w = true → ∃ t, exec (.pinPhase e i) s = .next t ∧
      (∀ a, a ∈ walkPtes s w → ptePin (t.pte a) = ptePin (s.pte a) + 1 ∧ natBits (t.pte a) 63 56 = s.useNow ∧
        natBits (t.pte a) 49 0 = natBits (s.pte a) 49 0) ∧
      (∀ b, (∀ a, a ∈ walkPtes s w → b < a ∨ a + 8 ≤ b) → t.mem.byte b = s.mem.byte b) ∧
      (∃ w', w' ∈ (t.ind n).walks ∧ w'.req = w.req ∧ w'.pinned = true ∧ w'.list = (walkPtes s w).map (fun a =>
        { pte := a, frame := pteFrame (s.pte a), tier3 := pteT3 (s.pte a), gen := pteGen (s.pte a) }))) ∧
    (∀ p, (s.ind n).walks[i]? = some w → delivers s w p = true →
      let f := walkForm w.req
      let q := seqOf (s.devRead f.seq 64)
      let rows := min 64 (f.t1 - 64 * (f.t0 / 64 + w.delivered))
      let slot := w.delivered % f.slots
      let src := ((stagedCopy s w p).map (fun g => g.dst)).getD p.frame
      let pieces := (List.range 64).flatMap (fun t => (s.rowPieces q src (f.dest + slot * q.slotBytes) t (decide (t < rows))).1)
      ∃ t, exec (.pageDelivered e i) s = .next t ∧ (t.core w.core).loc = (s.core w.core).loc.write pieces ∧
        (∀ v, v ∈ (t.core w.core).walks → v.wtag = f.tag → v.eng = n → AMap.get (false, 0) slot v.ready = (true, rows)) ∧
        (∃ w', w' ∈ (t.ind n).walks ∧ w'.req = w.req ∧ w'.delivered = w.delivered + 1) ∧ t.mem = s.mem) ∧
    (∀ p, (s.ind n).walks[i]? = some w → standsNext w p = true → stagedCopy s w p = none → p.tier3 = true → s.direct w.home = false →
      exec (.pageDelivered e i) s = .next (s.stagePage w.home p)) ∧
    (∀ sl rest j p, (s.ind n).walks[i]? = some w → w.relq = sl :: rest → w.list[j]? = some p →
      (List.range w.delivered).find? (fun j => j % (walkForm w.req).slots == sl && !w.rel.contains j) = some j →
      let w1 := { w with relq := rest, rel := w.rel ++ [j] }
      let bad := (s.retireOf w.home p).any (fun r => r.po)
      (w.rel.length + 1 < w.list.length → bad = false → exec (.slotRelease e i) s = .next ((s.putWalk n w w1).unpin w.home p)) ∧
      (w.rel.length + 1 < w.list.length → bad = true → exec (.slotRelease e i) s =
        .next ((s.setInd n { s.ind n with walks := (s.ind n).walks.filter (fun x => x != w) }).walkFails n w.core w.slot w.req stPoison)) ∧
      (w.list.length ≤ w.rel.length + 1 → bad = false → s.captureHolds (walkForm w.req).done = false →
        exec (.slotRelease e i) s = .next (((s.putWalk n w w1).unpin w.home p).walkDone n w1)) ∧
      (pteGen (s.pte p.pte) = p.gen → (s.ind w.home).staging = [] → (∃ q o, locOf p.pte = .mem q o) → p.pte % 8 = 0 → s.bar p.pte = none →
        let z := ((s.putWalk n w w1).unpin w.home p).pte p.pte
        ptePin z = ptePin (s.pte p.pte) - 1 ∧ natBits z 63 56 = s.useNow)) ∧
    (∀ v, (s.ind n).staging[i]? = some v → v.ready = false → pteGen (s.pte v.pte) = v.gen →
      let u := (s.copyFrame v.src v.dst (s.frameBytes n)).bump .indCnt n 3 1
      exec (.stageCopyDone e i) s = .next ((u.setInd n { u.ind n with
        staging := (u.ind n).staging.map (fun x => if x = v then { x with ready := true } else x) }).promote n v.pte))

/-- The page tables change by batches, spills and ageing: a sound batch applies its operations in order and then TOKENS and SGEN, with its
record, and one that waits for frames takes those that are free; one that fails a check changes nothing of the tables, and ends the context that
sent it; writing IND_EDIT_HI submits a batch, and ENABLE from 0 to 1 clears every PIN and rebuilds lists and pools; below the low-water mark the
engine starts the copy of its first candidate, or of the one that its policy chooses, into a free tier-3 frame, and when that ends the entry
names the frame with GEN + 1, unless the entry has changed, which cancels the spill; once a second the ageing sweep holds every age at 192 or
below (R219, R221 to R228; that a waiting batch takes the free frames is the model's reading, log entry 131). The model's own choices in it: log
entries 91 and 102. -/
def Obligations.PageTablesChangeAsOrdered : Prop :=
  ∀ (s : State) (e : Fin 48) (v : W32),
    let n := e.val
    let g := s.ind n
    (∀ r rest, g.edits = r :: rest → batchFree s n r = true →
      let addr := r.addr
      let b := s.devRead addr 64
      let parts := batchParts s n r
      let inParts := fun a => match locOf a with
        | .mem p _ => natBit parts.toNat p
        | .store p _ => natBit parts.toNat p
        | _ => false
      let ok := fun a len => inParts a && inParts (a + len - 1)
      let seq := leField b 0 5
      let done := leField b 12 17
      let q := seqOf (s.devRead seq 64)
      let ops := (List.range (leField b 10 11)).map (fun k => editOp (s.devRead (addr + 64 + 16 * k) 16))
      let code := s.editCheck ok parts addr
      let u0 := (s.setInd n { g with edits := rest, devFree := r.taken ++ g.devFree }).demandUnit (.ind n)
      s.sep.save = none →
        (∀ u, code = 0 → (u0.knowSeq n seq).editAll n q ops = some u →
          exec (.editBatch e) s = .next (((((u.rawWrite (seq + 8) (leBytes 4 (leField b 6 9))).rawWrite (seq + 21) (leBytes 1 (q.sgen + 1))).bump
            .indCnt n 5 1)).editRecord r.core done (leField b 18 18) ((q.sgen + 1) % 256) 0 (leField b 10 11))) ∧
        (code = 0 → (u0.knowSeq n seq).editAll n q ops = none →
          exec (.editBatch e) s = .next (if (r.taken ++ g.devFree).length < (ops.filter (fun o => o.op == 1)).length
            then s.setInd n { g with edits := { r with taken := r.taken ++ g.devFree } :: rest, devFree := [] } else s)) ∧
        (code ≠ 0 →
          let noted := ok done 64 && (decide (code = stIllegal ∧ done % 64 = 0) || (decide (code = stPage) && ok addr 64))
          let z0 := if noted then u0.editRecord r.core done (leField b 18 18) q.sgen code 0 else u0
          let z := if code = stPage then z0.indErr n 0 else if code = stPoison then z0.indErr n 2 else z0
          (r.core = none → exec (.editBatch e) s = .next z) ∧
          (∀ k x, r.core = some (k, x) → exec (.editBatch e) s = .next (z.endContext x (s.statusAt k r.word none code 6 0x02 false) 0x06)))) ∧
    (∀ r rest, g.edits = r :: rest → batchFree s n r = false → exec (.editBatch e) s = .next s) ∧
    (s.blkOpen .ind n = true →
      exec (.indEditSubmit e v) s = .next (let u := s.setReg .indEditHi n 0 (v &&& 0xFFFF#32)
        u.setInd n { u.ind n with edits := (u.ind n).edits ++ [{ addr := u.regAddr .indEditLo .indEditHi n 0 / 64 * 64 }] }) ∧
      (s.lockOpen .ind n = true → s.indOn n = false → ∃ t, exec (.indEnable e) s = .next t ∧ t.indOn n = true ∧
        (t.ind n).retire = [] ∧ (t.ind n).staging = [] ∧ (t.ind n).spill = none ∧ (t.ind n).wasReset = false)) ∧
    (∀ f rest a l, g.t3Free = f :: rest → s.indOn n = true → g.spill = none → g.devFree.length < s.fld .indSpill n 0 15 0 → s.candidates n = a :: l →
      s.frameOk 0 true f (s.frameBytes n) = true →
        let r := (s.demandUnit (.ind n)).spillChoice n (a :: l)
        r.2 ∈ a :: l ∧
        exec (.spillPage e) s =
          .next (r.1.setInd n { r.1.ind n with t3Free := rest, spill := some (r.2, pteFrame (r.1.pte r.2), f, pteGen (r.1.pte r.2)) }) ∧
        (natBit (s.reg .indCtrl n 0).toNat 1 = false → r = (s.demandUnit (.ind n), a))) ∧
    (∀ a f t3 gen, g.spill = some (a, f, t3, gen) →
      (pteGen (s.pte a) = gen → ptePin (s.pte a) = 0 →
        let u := (s.copyFrame f t3 (s.frameBytes n)).bump .indCnt n 4 1
        let w := u.putPte a (pteSet (pteSet (pteSet (s.pte a) 39 0 (t3 / 256)) 40 40 1) 49 42 (gen + 1))
        exec (.spillCopyDone e) s = .next (w.setInd n { w.ind n with spill := none, devFree := (w.ind n).devFree ++ [f] })) ∧
      ((pteGen (s.pte a) ≠ gen ∨ ptePin (s.pte a) ≠ 0) →
        exec (.spillCopyDone e) s = .next (s.setInd n { g with spill := none, t3Free := g.t3Free ++ [t3] }))) ∧
    (s.indOn n = true → g.swept ≠ s.tim.now.toNat / 1000000000 → ∃ t, exec (.ageingSweep e) s = .next t ∧
      (t.ind n).swept = s.tim.now.toNat / 1000000000 ∧ t.ctxs = s.ctxs ∧ t.cores = s.cores) ∧
    (g.swept = s.tim.now.toNat / 1000000000 → exec (.ageingSweep e) s = .next s)

/-- A host command waits in its queue while the device is not READY, its pair not enabled or its completion queue full; a taken one with a
reserved bit is refused with REASON 0x16, and one that its slot's state does not accept with 0x10. BIND makes a free slot BOUND with the
descriptor's partitions and settings, waking those in RET, UNBIND frees it, LOAD copies its image into the instruction memory of every core,
SUBMIT hands its certificate to the admission check, CANCEL withdraws an admitted program that is not too near, CLEAR makes a HALTED slot BOUND
with status OK (R251, R320, R324, R433 to R437, R470). The model's own choices in it: log entries 14 and 82. -/
def Obligations.HostCommandsActOnTheirSlot : Prop :=
  ∀ (s u : State) (c : HostCmd),
    let x := c.slot.val
    let a := c.addr.toNat
    (s.takeCmd c.q.val = none → ∀ e, e ∈ acceptedIn c → exec e.1 s = .next s) ∧
    (s.takeCmd c.q.val = some u → ∀ e, e ∈ acceptedIn c →
      (c.rsv = true → exec e.1 s = .next (u.refuse c 0x16)) ∧
      (c.rsv = false → u.slotBusy x = false → (u.ctx x).st ∉ e.2 → exec e.1 s = .next (u.refuse c 0x10))) ∧
    (taking s u c →
      let b := u.devRead a 64
      ((u.ctx x).st = .free → natBit (u.reg .gctCtrl 0 0).toNat (8 + x) = true → u.cmdAddrOk a 64 = true → descFields b x = true →
        (partsOf (BitVec.ofNat 4 (leField b 1 1))).all (fun p => u.partFree p) = true →
        (natBit (leField b 2 2) 1 = true → natBit (u.reg .hifDbgStatus 0 0).toNat 0 = true) →
        let ps := partsOf (BitVec.ofNat 4 (leField b 1 1))
        let y := ps.foldl (fun s p => s.wakePart p) u
        let z := y.bindSlot x b
        exec (.bind c) s = .next (if ps.all (fun p => y.partFree p) then z.doneCmd c else y.refuse c 0x11) ∧ (z.ctx x).st = .bound ∧
          (z.ctx x).parts = BitVec.ofNat 4 (leField b 1 1) ∧ (z.ctx x).refmode = natBit (leField b 2 2) 0 ∧
          (z.ctx x).debug = natBit (leField b 2 2) 1 ∧ (z.ctx x).redundancy = BitVec.ofNat 8 (leField b 3 3)) ∧
      ((u.ctx x).st = .bound → ∃ t, exec (.unbind c) s = .next t ∧ (t.ctx x).st = .free ∧ (t.ctx x).parts = 0 ∧ (t.ctx x).admitted = none) ∧
      (∀ n, c.arg0.toNat = 128 * n → n ≤ 4096 → a % 64 = 0 → u.ctxMem x a (max 1 (128 * n)) = true → u.devPo a (max 1 (128 * n)) = false →
        (u.ctx x).st = .bound → (u.ctx x).admitted = none → ∃ t, exec (.load c) s = .next t ∧
          (t.ctx x).image = some (sha256 (u.mem.read a (128 * n)), 128 * n) ∧
          ∀ k i, k ∈ u.ctxCores x → i < n → (t.core k).badWords = [] ∧ AMap.get 0 i (t.core k).imem = BitVec.ofNat 1024 (u.mem.num (a + 128 * i) 128)) ∧
      ((u.ctx x).st = .halted → exec (.clear c) s = .next ((u.setCtx x { u.ctx x with
        st := .bound, status := 0, fault := { status := 0 }, replayed := false }).doneCmd c)) ∧
      (∀ g, (u.ctx x).admitted = some g →
        (u.tim.now.toNat + u.fld .timWakeLead 0 0 15 0 < g.tL →
          exec (.cancel c) s = .next (((u.setCtx x { u.ctx x with admitted := none }).bump .timCnt 0 4 1).doneCmd c)) ∧
        (g.tL ≤ u.tim.now.toNat + u.fld .timWakeLead 0 0 15 0 → exec (.cancel c) s = .next (u.refuse c 0x15))) ∧
      ((s.ctx x).checking = none → u.certAddrOk x a = true → exec (.submit c) s = .next (u.setCtx x { u.ctx x with
        checking := some { q := c.q.val, cid := c.cid, addr := a, tL := c.arg0.toNat } })))

/-- SAVE leaves no valid header in its buffer and waits for its boundary; a further request of the slot waits behind it. At the boundary the
image of the context stands in the buffer byte by byte, header and body, and is known as one; the command is DONE, and STOP leaves the context
BOUND. RESTORE loads the image that it finds into a context that the image fits, a HALTED one being cleared first, and fails with
RESTORE_INCOMPATIBLE else, also where no valid image stands; RESTORE_CKPT of a slot with a bad manifest ends with CHECKPOINT_INVALID,
RESTORE_PEER waits for its peer, and the last piece ends a restore, with DIGEST_MISMATCH where a digest differs (R262 to R265, R419, R420; the
layout of an image is open, log entry 80). The model's own choices in it: log entries 63, 64 and 80. -/
def Obligations.SavesAndRestoresOfContexts : Prop :=
  ∀ (s u : State) (c : HostCmd) (q : SaveReq),
    let x := c.slot.val
    let a := c.addr.toNat
    let req : SaveReq := { instr := c.arg0.getLsbD 0, stop := c.arg0.getLsbD 1, buf := a, q := c.q.val, cid := c.cid }
    (s.takeCmd c.q.val = some u → c.rsv = false → ((u.ctx x).st = .bound ∨ (u.ctx x).st = .running) → u.cmdAddrOk a 64 = true →
      ((u.ctx x).save = none → exec (.save c) s = .next (u.beginSave x req) ∧ ((u.beginSave x req).ctx x).save = some req ∧
        (u.beginSave x req).imageAt a = none ∧ (u.beginSave x req).mem = u.mem) ∧
      ((u.ctx x).save.isSome = true → exec (.save c) s = .next (u.setCtx x { u.ctx x with saveq := (u.ctx x).saveq ++ [req] }))) ∧
    (taking s u c → (u.ctx x).admitted = none →
      (((u.ctx x).st = .bound ∨ (u.ctx x).st = .halted) → u.cmdAddrOk a 64 = true →
        let z := if (u.ctx x).st = .halted then u.clearSlot x else u
        (z.ctx x).st = .bound ∧
        (z.imageAt a = none → exec (.restore c) s = .next (z.reply c 3 stIncompat 0)) ∧
        (∀ i, z.imageAt a = some i →
          let fits := i.version = Config.imageVersion ∧ i.refmode = (u.ctx x).refmode ∧ (i.instr = true → i.vl = 64 ∧ i.ctxcores = (u.ctxCores x).length) ∧
            (i.vl ≠ 64 → i.fixedLane = false)
          exec (.restore c) s = .next (if fits then (z.loadImage x i).doneCmd c else z.reply c 3 stIncompat 0) ∧
          ((z.loadImage x i).ctx x).stepno = i.stepno)) ∧
      ((u.ctx x).st = .bound → u.sep.save = none →
        exec (.restorePeer c) s = .next ((u.setCtx x { u.ctx x with
          restore := some { q := c.q.val, cid := c.cid, peer := some (c.arg0.toNat % 4096) }, restoreBad := true }).showRestore x) ∧
        (c.arg0 = 0 → u.manifestAt (u.ckDest x 0) = none → ∃ t, exec (.restoreCkpt c) s = .next t ∧
          (t.ctx x).restore = none ∧ (t.ctx x).restoreBad = true ∧ (t.ctx x).stepno = (u.ctx x).stepno))) ∧
    ((s.ctx x).save = some q →
      (s.atBoundary x q = false → exec (.saveBoundaryReached c.slot) s = .next s) ∧
      (s.atBoundary x q = true → (s.ctx x).saveq = [] →
        let i := s.image x q.instr
        let b := i.header ++ i.body
        ∃ t, exec (.saveBoundaryReached c.slot) s = .next t ∧ t.images = i :: s.images ∧ q.buf ∉ t.headless ∧ (t.ctx x).save = none ∧
          (q.stop = true → (t.ctx x).st = .bound ∧ (t.ctx x).running = none) ∧ (q.stop = false → (t.ctx x).st = (s.ctx x).st) ∧
          ((∃ j, j < b.length ∧ (s.bar (q.buf + j) ≠ none ∨ ∀ p o, locOf (q.buf + j) ≠ .mem p o)) ∨ t.mem.read q.buf b.length = b))) ∧
    ((s.ctx x).save = none → exec (.saveBoundaryReached c.slot) s = .next s) ∧
    (∀ r p, (s.ctx x).restore = some r → r.todo = [p] → ∃ t, exec (.restorePieceDone c.slot) s = .next t ∧
      (t.ctx x).restore = none ∧
      let d := s.devRead (r.src + 2 ^ 22 * (1 + r.count)) p.2.1
      let bad := r.bad || s.devPo (r.src + 2 ^ 22 * (1 + r.count)) p.2.1 || sha256 d != p.2.2
      (t.ctx x).restoreBad = bad ∧ (t.ctx x).stepno = if bad then (s.ctx x).stepno else r.stepno) ∧
    (∀ src region offset data last, ((s.ctx x).restore = none ∨ ∃ r, (s.ctx x).restore = some r ∧ r.peer ≠ some (BitVec.toNat src)) →
      exec (.saveStreamReceive src c.slot region offset data last) s = .next (s.orReg .sepErr 0 0 16)) ∧
    (∀ r src region offset data z, (s.ctx x).restore = some r → r.peer = some (BitVec.toNat src) → (s.descRegions x)[region]? = some z →
      offset + List.length data ≤ z.2.1 →
      exec (.saveStreamReceive src c.slot region offset data false) s = .next (s.setMem (s.mem.write [{ addr := z.1 + offset, data := data }])))

/-- Sepia saves: a due interval, SEP_CMD 1 or SEP_CMD 2 request one, SEP_CMD 3 abandons the one in progress. A save starts for the lowest slot
that may, at its step boundary or while it does not run, with every piece of its set to do, to the peer that was named or to its destination; a
piece on which a write waits is captured before one on which none does, each is hashed and written to the staging area or the destination, and a
poisoned one abandons the save; with all captured and the check group agreed the manifest is written and the save ends; a destination that
refuses it abandons it (R413 to R418, R420; which of several pieces is next is open, log entry 138). The model's own choices in it: log entry 63.
-/
def Obligations.SepiaSavesInOrder : Prop :=
  ∀ (s : State) (slot : Fin 4) (v : W32) (w : Save),
    let x := slot.val
    let y := v.toNat % 4
    ((s.ctx x).st ≠ .free → natBit (s.reg .sepCtrl 0 0).toNat 0 = true →
      (s.ctx x).saveTimer.toNat + s.fld .sepCtrl 0 0 12 8 * 60000000000 ≤ s.tim.now.toNat →
      exec (.saveTimer slot) s = .next (s.setCtx x { s.ctx x with savePending := true })) ∧
    (s.blkOpen .sep 0 = true → (s.ctx y).st ≠ .free →
      (v.toNat / 4 % 4 = 1 → exec (.sepSaveRequest v) s = .next (s.setCtx y { s.ctx y with savePending := true })) ∧
      (v.toNat / 4 % 4 = 2 → exec (.sepPeerSaveRequest v) s =
        .next (s.setCtx y { s.ctx y with savePending := true, savePeer := some (v.toNat / 16 % 4096) }))) ∧
    (s.sep.save = some w → s.blkOpen .sep 0 = true → v.toNat / 4 % 4 = 3 → w.slot = y → exec (.sepAbandon v) s = .next (s.dropSave 0)) ∧
    (s.sep.save = none → s.saveReady x = true → (∀ y, y < x → s.saveReady y = false) → s.descOk x = true → (s.ctx x).boundary = false →
      ((s.ctx x).savePeer.isSome = true ∨ (s.ckDest x (s.saveTarget x)).1.isSome = true) → ∃ t, exec (.saveStart slot) s = .next t ∧
        (∃ z, t.sep.save = some z ∧ z.slot = x ∧ z.target = s.saveTarget x ∧ z.done = [] ∧ z.todo = (piecesOf (s.descRegions x)).zipIdx ∧
          z.peer = (s.ctx x).savePeer.or (s.ckDest x (s.saveTarget x)).1 ∧ z.seq = s.sep.seq + 1 ∧ z.stepno = (s.ctx x).stepno) ∧
        (t.ctx x).savePending = false) ∧
    (w.todo ≠ [] → ∃ e, s.nextPiece w = some e ∧ e ∈ w.todo ∧ ((∃ d, d ∈ w.todo ∧ s.pieceWanted w d = true) → s.pieceWanted w e = true)) ∧
    (∀ q i r, s.sep.save = some w → s.nextPiece w = some (q, i) → (s.ctx w.slot).regions[q.1]? = some r →
      let at_ := r.1 + q.2.1
      let z := s.draw.demandReads [(at_, q.2.2)]
      let b := z.mem.read at_ q.2.2
      let d := match w.staged with
        | some a => (z.rawWrite (a + 2 ^ 22 * i) b, true)
        | none => z.toDest w (2 ^ 22 * (1 + i)) at_ b
      let todo := w.todo.erase (q, i)
      let u := d.1.chargeRuns .sepia ((at_, q.2.2) :: (w.staged.map (fun a => (a + 2 ^ 22 * i, q.2.2))).toList)
      (z.devPo at_ q.2.2 = true → exec .pieceCaptured s = .next (z.dropSave 1)) ∧
      (z.devPo at_ q.2.2 = false → d.2 = true → exec .pieceCaptured s = .next ((((u.setSep { u.sep with save := some { w with
        todo := todo, done := w.done ++ [(i, sha256 b)] } }).bump .sepCnt 0 4 1).setFld .sepStatus 0 0 4 2 (if todo = [] then 3 else 2)).releaseEvery)) ∧
      (z.devPo at_ q.2.2 = false → d.2 = false → exec .pieceCaptured s = .next (z.dropSave 2))) ∧
    (s.sep.save = some w → w.todo = [] → w.agreed.isSome = true → w.staged = none →
      (s.toDest w 0 0 (s.manifest w)).2 = true → ∃ t, exec .saveDone s = .next t ∧ t.sep.save = none ∧
        (t.ctx w.slot).saveTimer = s.tim.now ∧ t.sep.seq = s.sep.seq) ∧
    (s.sep.save = some w → w.todo ≠ [] → exec .saveDone s = .next s) ∧
    (s.sep.save = none → exec .pieceCaptured s = .next s ∧ exec .saveDone s = .next s)

/-- A submission under check is rejected with the reason of the first check that fails, or with 0x09 and the first failing record, and else
accepted with T_L and P = T_L + D, T_L = 0 standing for the promise of the running program or for 64 µs from now. The admitted program of a BOUND
slot starts at T_L, a chained one at once: every core of the context stands at word 0 with T_L in s63, with no binding primed and no epoch open,
and a later launch moves the promise by its lateness, before a THROTTLE of the same instant. Past its promise a program is recorded as overrun
once, and under OVERRUN_STOP its context drains with DEADLINE_OVERRUN (R314, R320 to R324, R326, R328). The model's own choices in it: log
entries 19 and 66. -/
def Obligations.SubmissionsAreDecidedAndProgramsLaunched : Prop :=
  ∀ (s : State) (slot : Fin 4) (u : Submission) (g : Prog),
    let x := slot.val
    let now := s.tim.now.toNat
    let s0 := s.setCtx x { s.ctx x with checking := none }
    let n := certLen (s.devRead u.addr 128)
    let b := s.devRead u.addr n
    let bad := (admissionChecks s x b (s.devPo u.addr n) u.tL).find? (fun e => !e.2)
    let chained := decide (u.tL = 0) && (s.ctx x).running.isSome
    let tL := if u.tL ≠ 0 then u.tL else match (s.ctx x).running with
      | some r => r.p
      | none => now + 64000
    let entry : Cpl := { q := u.q, cid := u.cid, result := 2, status := stReject, reason := 0, v0 := 0, v1 := 0 }
    ((s.ctx x).checking = none → exec (.admissionDecision slot) s = .next s) ∧
    ((s.ctx x).checking = some u → u.post = true →
      (∀ r, bad = some (r, false) → exec (.admissionDecision slot) s = .next ((s0.bump .timCnt 0 4 1).complete { entry with reason := r })) ∧
      (bad = none → ∀ o r, s0.capacityFail x tL (certOf b) none = some (o, r) →
        exec (.admissionDecision slot) s = .next ((s0.bump .timCnt 0 4 1).complete
          { entry with reason := 0x09, v0 := r.cls + 256 * r.part + 65536 * r.index, v1 := o })) ∧
      (bad = none → s0.capacityFail x tL (certOf b) none = none →
        let p := tL + (certOf b).d
        let a : Prog := { cert := certOf b, tL := tL, p := p, p0 := p, chained := chained, certAddr := u.addr }
        exec (.admissionDecision slot) s = .next (((s0.setCtx x { s0.ctx x with admitted := some a }).bump .timCnt 0 3 1).complete
          { entry with result := 1, status := 0, v0 := tL, v1 := p }))) ∧
    ((s.ctx x).admitted = some g →
      ((s.ctx x).st ≠ .bound ∨ (g.chained = false ∧ now < g.tL) → exec (.programLaunch slot) s = .next s) ∧
      ((s.ctx x).st = .bound → (g.chained = true ∨ g.tL ≤ now) → ∃ t r, exec (.programLaunch slot) s = .next t ∧
        (t.ctx x).st = .running ∧ (t.ctx x).admitted = none ∧ (t.ctx x).running = some r ∧ r.cert = g.cert ∧ r.tL = g.tL ∧
        ((∀ e, g.thr = some e → e.1 ≠ now) → r.p = g.p + (now - g.tL)) ∧
        (∀ e, g.thr = some e → e.1 = now → g.tL < now → r.p = max g.p (throttled now (e.2.1 + (now - g.tL)) e.2.2)) ∧
        (∀ k, k ∈ s.ctxCores x → (t.core k).pc = 0 ∧ (t.core k).bindings = [] ∧ (t.core k).word = [] ∧ (t.core k).epochs = [] ∧ (t.core k).sreg 63 = (BitVec.ofNat 64 g.tL, false) ∧ (t.core k).halted = false ∧
          (t.core k).imem = (s.core k).imem) ∧
        ∀ k, k ∉ s.ctxCores x → t.core k = s.core k)) ∧
    ((s.ctx x).running = some g →
      (g.overrun = true ∨ now ≤ g.p → exec (.promiseOverrun slot) s = .next s) ∧
      (g.overrun = false → g.p < now →
        let s1 := (s.setCtx x { s.ctx x with running := some { g with overrun := true } }).timEvent { slot := x, cause := 0x0F, oldP := g.p, newP := g.p }
        (natBit (s.reg .timCtrl 0 0).toNat 3 = false → exec (.promiseOverrun slot) s = .next s1) ∧
        (natBit (s.reg .timCtrl 0 0).toNat 3 = true → (s.ctx x).st = .running → ∃ t, exec (.promiseOverrun slot) s = .next t ∧
          (t.ctx x).st = .draining ∧ (t.ctx x).status = stOverrun ∧ (t.ctx x).running = none)))

/-- PREWAKE wakes every sleeping unit whose window is due, and no core does anything else. A unit that an instruction reaches in SLEEP wakes, and
outside its windows TIM_CNT[2] counts it; an idle unit of a partition that no context has, or in a gap between its windows, goes to SLEEP, unless
an instruction, a Vat-write or a walk is in flight. A requested test of a SPARE core starts at once, one of a core in service at the next step
boundary while a program runs; a calibration runs at once while no program of its context runs or no admitted record of its resource is active
for its length, and is held otherwise; it steers bad lanes onto spares and retires pseudo-channels (R315, R329, R340, R454, R455). The model's
own choices in it: log entries 66 and 83. -/
def Obligations.UnitsSleepWakeAndAreTested : Prop :=
  ∀ (s : State) (slot : Fin 4) (unit : UnitId) (k : CoreId) (cause : TestCause) (c : Calibration),
    let u := unitRef unit
    let n := k.key
    (∃ t, exec (.prewake slot) s = .next t ∧ (∀ v, v ∈ dueUnits s slot.val → t.sleeping v = false) ∧
      (∀ v, v ∉ dueUnits s slot.val → t.sleeping v = s.sleeping v) ∧ t.mem = s.mem ∧ t.host = s.host ∧ t.regs = s.regs ∧ t.ctxs = s.ctxs) ∧
    (s.sleeping u = false → exec (.unitWake unit) s = .next s) ∧
    (s.sleeping u = true → ∃ t, exec (.unitWake unit) s = .next t ∧ t.sleeping u = false ∧ t.pwr.wakes = s.pwr.wakes + 1 ∧ t.mem = s.mem ∧
      ((s.unitWindows u).any (fun w => decide (w.1 ≤ s.tim.now.toNat ∧ s.tim.now.toNat < w.2)) = true → t.regs = s.regs) ∧
      ((s.unitWindows u).any (fun w => decide (w.1 ≤ s.tim.now.toNat ∧ s.tim.now.toNat < w.2)) = false →
        t.reg .timCnt 0 2 = s.reg .timCnt 0 2 + 1)) ∧
    ((s.partSlot u.part = none ∨ s.inGap u = true) → s.unitHeld u = false → ∃ t, exec (.unitSleep unit) s = .next t ∧ t.sleeping u = true ∧
      (∀ v, v ≠ u → t.sleeping v = s.sleeping v) ∧ t.mem = s.mem ∧ t.regs = s.regs ∧ t.ctxs = s.ctxs) ∧
    (s.unitHeld u = true ∨ ((s.partSlot u.part).isSome = true ∧ s.inGap u = false) → exec (.unitSleep unit) s = .next s) ∧
    (s.coreState n = .spare → exec (.testRequest k cause) s = .next (s.setCoreState n .testing) ∧ (s.setCoreState n .testing).coreState n = .testing) ∧
    (∀ x, s.coreState n = .inService ∨ s.coreState n = .suspect → s.partSlot k.part.val = some x → (s.ctx x).running.isSome = true →
      (s.lcore n).isSome = true → exec (.testRequest k cause) s = .next (s.setCore n { s.core n with testReq := true })) ∧
    (∀ l, c = .link l → mayCalibrate s 0x05 (l.val / 12) (l.val % 12) (Config.calibrationNs 0) = true → exec (.calibration c) s = .next s.recheck) ∧
    (∀ l, c = .link l → mayCalibrate s 0x05 (l.val / 12) (l.val % 12) (Config.calibrationNs 0) = false →
      exec (.calibration c) s = .next { s with calib := s.calib ++ [c] }) ∧
    (∀ st lanes pcs, c = .stack st lanes pcs → mayCalibrate s 0x03 (st.val / 5) (st.val % 5) (Config.calibrationNs 1) = false →
      exec (.calibration c) s = .next { s with calib := s.calib ++ [c] }) ∧
    (∀ st i, mayCalibrate s 0x03 (st.val / 5) (st.val % 5) (Config.calibrationNs 1) = true → i < 64 →
      natBit (s.reg64 .memRetiredLo .memRetiredHi st.val 0) i = false →
      ∃ t, exec (.calibration (.stack st [] [i])) s = .next t ∧ natBit (t.reg64 .memRetiredLo .memRetiredHi st.val 0) i = true)

/-- A SYNC on the up link of a member gives θ = T_rx − (T_tx + d), which TIM_OFFSET shows, and sets the hops and the master. With no program
admitted or running, θ below −2,000 ns steps the counter forward by −θ; any other θ changes only the rate, within ±859,000 units. More than 2,000
ns with a program is UNLOCK and ACQUIRING; the 8th consecutive θ within 4 ns locks an ACQUIRING device, one locks a device in HOLDOVER (R306 to
R308). A master or LOCKED device sends SYNC on its down link once for each multiple of 1,000,000 ns; a member measures its up link every 64 ms
with DELAY_REQ, which every device answers with DELAY_RESP, and takes d = ((t4 − t1) − (t3 − t2)) / 2. Without SYNC for 5 ms a LOCKED device is
in HOLDOVER with SYNC_LOST, and after 100 ms there it is ACQUIRING. A PPS edge is captured; 2.5 s without one on the master sets PPS_LOST and
lets it run on its own oscillator. TIM_SET moves an idle device's time forward only, and a read of a LO register latches its upper half, which
the read of both halves gives too. A time flit that fails its CRC is dropped and counted (R302, R304 to R306, R308, R311). The model's own
choices in it: log entries 3, 85, 86, 87 and 100. -/
def Obligations.DeviceTimeIsCorrectedSentAndRead : Prop :=
  (∀ (s : State) (link : Fin 48) (f : SyncFlit),
     let n := link.val
     let theta : Int := (f.tRx : Int) - (f.tTx + s.fld .timPath 0 0 23 0 : Nat)
     let unlock := decide (2000 * 256 < theta.natAbs) && s.anyProgram
     let small := decide (theta.natAbs ≤ 4 * 256)
     let steps := decide (theta < -(2000 * 256)) && !s.anyProgram
     (s.linkUp n = false → exec (.sync link f) s = .next s) ∧
     (s.linkUp n = true → f.crcOk = false → exec (.sync link f) s = .next (dropped s n)) ∧
     (s.linkUp n = true → f.crcOk = true → memberOn s n = false → exec (.sync link f) s = .next (s.recvTime n f.head)) ∧
     (s.linkUp n = true → f.crcOk = true → memberOn s n = true → ∃ t, exec (.sync link f) s = .next t ∧
       t.reg .timOffset 0 0 = sat32 theta ∧ t.fld .timSyncCfg 0 0 27 16 = f.master.toNat ∧
       t.fld .timStatus 0 0 11 8 = min 15 (f.hops.toNat + 1) ∧ t.tim.lastSync = s.tim.now ∧
       (steps = true → s.nowFrac + theta.natAbs < 2 ^ 72 → t.nowFrac = s.nowFrac + theta.natAbs ∧ t.tim.rate = s.tim.rate) ∧
       (steps = false → t.tim.now = s.tim.now ∧ t.tim.frac = s.tim.frac ∧ -859000 ≤ t.tim.rate ∧ t.tim.rate ≤ 859000) ∧
       (unlock = true → t.tim.state = 1 ∧ t.tim.good = 0 ∧ natBit (t.reg .timErr 0 0).toNat 1 = true) ∧
       (unlock = false → s.tim.state = 1 → small = true → 7 ≤ s.tim.good → t.tim.state = 2) ∧
       (unlock = false → s.tim.state = 1 → small = true → s.tim.good < 7 → t.tim.state = 1 ∧ t.tim.good = s.tim.good + 1) ∧
       (unlock = false → s.tim.state = 1 → small = false → t.tim.state = 1 ∧ t.tim.good = 0) ∧
       (unlock = false → s.tim.state = 3 → t.tim.state = if small then 2 else 3) ∧
       (unlock = false → s.tim.state ≠ 1 → s.tim.state ≠ 3 → t.tim.state = s.tim.state))) ∧
  (∀ (s : State) (link : Fin 48) (h : FlitHead) (f : DelayResp) (t1 : Nat) (v : W32) (r : LatchPair) (wide : Bool),
     let n := link.val
     let now := s.tim.now.toNat
     (((s.tim.state ≠ 2 ∧ s.tim.state ≠ 4) ∨ syncDue s = false) → exec .syncSend s = .next s) ∧
     ((s.tim.state = 2 ∨ s.tim.state = 4) → syncDue s = true → s.downLinks = [n] → timely s n = true →
       ∃ t, exec .syncSend s = .next t ∧ t.out = s.out ++ [timeSlot s n 5 s.syncBytes] ∧ t.tim.lastSent = some s.tim.now ∧
         t.tim.syncSeq = s.tim.syncSeq + 1) ∧
     (memberOn s n = true → s.tim.delayT1 = none ∨ s.tim.lastDelay.toNat + 64000000 ≤ now → timely s n = true → ∃ t,
       exec .delayMeasure s = .next t ∧ t.out = s.out ++ [timeSlot s n 6 (leBytes 9 s.nowFrac)] ∧ t.tim.delayT1 = some s.nowFrac ∧
       t.tim.lastDelay = s.tim.now) ∧
     (let s1 := s.recvTime n h
      s.linkUp n = true → timely s1 n = true → ∃ t, exec (.delayReq link { head := h, t1 := t1 } true) s = .next t ∧
       t.out = s1.out ++ [timeSlot s1 n 7 (leBytes 9 t1 ++ leBytes 9 s.nowFrac ++ leBytes 9 s.nowFrac)]) ∧
     (s.linkUp n = false → exec (.delayReq link { head := h, t1 := t1 } true) s = .next s ∧ exec (.delayResp link f) s = .next s) ∧
     (s.linkUp n = true → exec (.delayReq link { head := h, t1 := t1 } false) s = .next (dropped s n) ∧
       (f.crcOk = false → exec (.delayResp link f) s = .next (dropped s n))) ∧
     (∀ d : Nat, s.linkUp n = true → f.crcOk = true → memberOn s n = true → s.tim.delayT1 = some f.t1 → s.reg .lnkAsym n 0 = 0 →
       ((f.t4 : Int) - f.t1) - ((f.t3 : Int) - f.t2) = 2 * d → d < 2 ^ 24 → ∃ t, exec (.delayResp link f) s = .next t ∧
       t.fld .timPath 0 0 23 0 = d) ∧
     (s.tim.state = 2 → s.tim.lastSync.toNat + 5000000 ≤ now → ∃ t, exec .syncTimeout s = .next t ∧ t.tim.state = 3 ∧
       natBit (t.reg .timErr 0 0).toNat 0 = true ∧ t.tim.rate = s.tim.rate ∧ t.tim.now = s.tim.now) ∧
     (s.tim.state ≠ 2 ∨ now < s.tim.lastSync.toNat + 5000000 → exec .syncTimeout s = .next s) ∧
     (s.tim.state = 3 → s.tim.holdStart.toNat + 100000000 ≤ now → exec .holdoverTimeout s = .next (s.setTim { s.tim with state := 1, good := 0 })) ∧
     (s.tim.state ≠ 3 ∨ now < s.tim.holdStart.toNat + 100000000 → exec .holdoverTimeout s = .next s) ∧
     (∃ t, exec .ppsEdge s = .next t ∧ t.reg .timPpsCapLo 0 0 = s.tim.now.extractLsb' 0 32 ∧
       t.reg .timPpsCapHi 0 0 = s.tim.now.extractLsb' 32 32 ∧ t.tim.now = s.tim.now ∧ t.tim.frac = s.tim.frac ∧
       ((s.tim.state ≠ 4 ∨ natBit (s.reg .timCtrl 0 0).toNat 2 = false) → t.tim.rate = s.tim.rate) ∧
       (s.tim.state = 4 → natBit (s.reg .timCtrl 0 0).toNat 2 = true → -859000 ≤ t.tim.rate ∧ t.tim.rate ≤ 859000)) ∧
     (s.tim.state = 4 → natBit (s.reg .timCtrl 0 0).toNat 2 = true → s.tim.lastPps.toNat + 2500000000 ≤ now → s.tim.ppsLost = false → ∃ t,
       exec .ppsLost s = .next t ∧ natBit (t.reg .timErr 0 0).toNat 2 = true ∧ t.tim.rate = 0 ∧ t.tim.state = 4 ∧ t.tim.ppsLost = true) ∧
     (s.blkOpen .tim 0 = true → s.lockOpen .tim 0 = true →
       let set := v.toNat * 2 ^ 32 + (s.reg .timSetLo 0 0).toNat
       (now ≤ set → s.anyProgram = false → ∃ t, exec (.timSetWrite v) s = .next t ∧ t.tim.now.toNat = set ∧ t.tim.frac = 0) ∧
       (set < now ∨ s.anyProgram = true → ∃ t, exec (.timSetWrite v) s = .next t ∧ t.tim = s.tim ∧ natBit (t.reg .timErr 0 0).toNat 3 = true)) ∧
     (s.blkOpen .tim 0 = false ∨ s.lockOpen .tim 0 = false → exec (.timSetWrite v) s = .next s) ∧
     (let (lo, hi, u, i, upper) := pairOf s r
      s.blkOpen lo.info.blk u = true → ∃ t, exec (.latchedPairRead { pair := r, wide := wide }) s = .next t ∧ AMap.get 0 (hi.addr u i) t.latched = upper ∧
        t.out = s.out ++ [.regRead (s.readReg lo u i)] ++ (if wide then [.regRead upper] else []) ∧ t.regs = s.regs ∧ t.tim = s.tim))

/-- Patrol scrub of a clean unit changes nothing. A corrected unit sets CE and counts in MEM_CNT[3] and for its row, and the row's repair starts
when the count reaches REPAIR_TH; an uncorrectable one is poisoned, sets UE and SCRUB_UE, and its address is recorded. The end of a repair counts
in MEM_REPAIR and goes into the repair log. The repair that takes a bank's last spare row sets REPAIR_EXHAUSTED and the replacement cause. A
frame begins at a multiple of 1,024 ns, with nothing charged and the reservations of its start; a stack of a sleeping partition returns to
self-refresh after 1 ms (R336, R338, R339, R345, R346, R457). ARMED = 1 arms an entry whose size, base, place, owner and binding meet R341 and
whose INVALID is clear, and sets ARM_REFUSED else; ARMED = 0 makes an armed entry DRAINING, and both bits read 0 when its Vat-writes are applied.
A draining entry takes no arm, 0 written to INVALID clears it, the other registers of an armed or draining entry take no write, a partition whose
window is closed takes no write, and no command of the table touches memory but through the error log (R341, R343, R485). The model's own choices
in it: log entries 84, 88 and 101. -/
def Obligations.StacksAreRepairedAndRegionsArmed : Prop :=
  (∀ (s : State) (stack : Fin 20) (unit row : Nat) (f : ScrubFinding),
     let st := stack.val
     let o := unit % 2 ^ 30 * 64
     let a := s.stackAddr st o
     let now := s.tim.now.toNat
     let row0 := o / 2048
     let errs := rowErrors s st row0
     let used := AMap.get 0 (Config.bankOf row0) (s.stack st).sparesUsed
     let t0 := now / 1024 * 1024
     (scrubs s st = false → exec (.scrub stack unit f) s = .next s) ∧
     (s.mem.finding (a / 64) = .clean → exec (.scrub stack unit .clean) s = .next s) ∧
     (scrubs s st = true → (finds s a .corrected f ∨ ∃ k, s.mem.finding (a / 64) = .fixed k) → ∃ t, exec (.scrub stack unit f) s = .next t ∧
       natBit (t.reg .memErr st 0).toNat 0 = true ∧ t.reg .memCnt st 3 = s.reg .memCnt st 3 + 1 ∧ AMap.get 0 row0 (t.stack st).rowErr = errs + 1 ∧
       (unlogged s → t.mem = if s.mem.finding (a / 64) = .clean then s.mem else s.mem.settle (a / 64)) ∧
       (errs + 1 < s.fld .memCtrl st 0 23 16 → (t.stack st).repairs = (s.stack st).repairs) ∧
       (s.fld .memCtrl st 0 23 16 ≤ errs + 1 → natBit (s.reg .memCtrl st 0).toNat 1 = true → (s.stack st).repairs.contains row0 = false →
         ((t.stack st).repairs.contains row0 = true ∨ Config.spareRows ≤ used) ∧
         (Config.spareRows ≤ used + 1 → natBit (t.reg .memErr st 0).toNat 5 = true ∧ natBit (t.reg .ochReplace 0 0).toNat 3 = true))) ∧
     (scrubs s st = true → (finds s a .uncorrectable f ∨ s.mem.finding (a / 64) = .bad) → ∃ t, exec (.scrub stack unit f) s = .next t ∧
       natBit (t.reg .memErr st 0).toNat 1 = true ∧ natBit (t.reg .memErr st 0).toNat 3 = true ∧ t.reg .memCnt st 4 = s.reg .memCnt st 4 + 1 ∧
       t.reg .memUeAddrLo st 0 = BitVec.ofNat 32 (a / 64 * 64) ∧ t.fld .memUeAddrHi st 0 23 20 = 2 ∧
       (unlogged s → t.mem = (s.mem.settle (a / 64)).setPo (a / 64) true)) ∧
     ((s.stack st).repairs.contains row = true → ∃ t, exec (.rowRepairDone stack row) s = .next t ∧
       (t.stack st).repairs = (s.stack st).repairs.erase row ∧ natBit (t.reg .memErr st 0).toNat 4 = true ∧
       t.fld .memRepair st 0 11 0 = min 0xFFF (s.fld .memRepair st 0 11 0 + 1) ∧ t.mgmt.repairLog = s.mgmt.repairLog ++ [(st, row)] ∧
       t.mem = s.mem) ∧
     ((s.stack st).repairs.contains row = false → exec (.rowRepairDone stack row) s = .next s) ∧
     (∃ t, exec (.stackFrame stack) s = .next t ∧ (t.stack st).frame = t0 ∧ t.mem = s.mem ∧ t.regs = s.regs ∧
       ((s.stack st).frame = t0 → t.stack st = s.stack st) ∧
       ((s.stack st).frame ≠ t0 → (t.stack st).charged = [] ∧ (t.stack st).vatCharged = [] ∧ ∀ q, q ∈ requesters →
         AMap.get 0 q.code (t.stack st).reserved = s.reservation q 0x03 (st / 5) (st % 5) t0 ∧
         AMap.get 0 q.code (t.stack st).vatReserved = s.reservation q 0x04 (st / 5) (st % 5) t0)) ∧
     ((s.part (st / 5)).pwr ≠ .idle → (s.stack st).lastAccess.toNat + 1000000 ≤ now →
       exec (.stackIdleRefresh stack) s = .next (s.setStack st { s.stack st with selfRefresh := true })) ∧
     ((s.part (st / 5)).pwr = .idle ∨ now < (s.stack st).lastAccess.toNat + 1000000 → exec (.stackIdleRefresh stack) s = .next s)) ∧
  (∀ (s : State) (part : Fin 4) (i : Fin 16) (v : W32),
     let p := part.val
     let e := i.val
     let r := s.region p e
     (s.partOpen p = false → exec (.vwrArm part i v) s = .next s ∧ exec (.vwrDisarm part i v) s = .next s) ∧
     (s.partOpen p = true → natBit v.toNat 0 = true → r.draining = false → r.armed = false →
       (armable s p e → ∃ t, exec (.vwrArm part i v) s = .next t ∧ (t.region p e).armed = true ∧ (t.region p e).draining = false ∧
         (t.region p e).base = r.base ∧ (t.region p e).log2 = r.log2 ∧ t.mem = s.mem) ∧
       (¬ armable s p e → ∃ t, exec (.vwrArm part i v) s = .next t ∧ (t.region p e).armed = false ∧
         natBit (t.reg .memVwrErr p 0).toNat 4 = true ∧ (natBit v.toNat 1 = false → (t.region p e).invalid = false) ∧ t.mem = s.mem)) ∧
     (s.partOpen p = true → natBit v.toNat 0 = false → r.draining = false → r.armed = true → ∃ t, exec (.vwrDisarm part i v) s = .next t ∧
       (t.region p e).armed = true ∧ (t.region p e).draining = true ∧ t.mem = s.mem) ∧
     (s.partOpen p = true → r.draining = true → ∃ t, exec (.vwrArm part i v) s = .next t ∧ (t.region p e).draining = true ∧
       (t.region p e).armed = r.armed ∧ (t.region p e).invalid = (r.invalid && natBit v.toNat 1)) ∧
     (r.draining = true → ∃ t, exec (.vwrDrainComplete part i) s = .next t ∧ (t.region p e).armed = false ∧ (t.region p e).draining = false ∧
       (t.region p e).invalid = r.invalid ∧ (∀ q j, q < 4 → j < 16 → (q, j) ≠ (p, e) → t.region q j = s.region q j) ∧ t.mem = s.mem) ∧
     (r.draining = false → exec (.vwrDrainComplete part i) s = .next s) ∧
     (r.armed = true ∨ r.draining = true → ∀ f (v : W64), f ∈ [Reg.memVwrBaseLo, Reg.memVwrBaseHi, Reg.memVwrOwner] →
       exec (.registerWrite (f.addr p e) { size := 4, v := v }) s = .next s))

/-- A host access through BAR2 or the HDM window that reaches nothing is answered with Unsupported Request and does nothing. A read of device
memory delivers the bytes, with EP and RX_POISON where a unit is poisoned, and brings the stack out of self-refresh; a unit that the base die
corrects is written back and counted, one that it cannot correct is poisoned and recorded with KIND 1, or KIND 4 where a narrow write reads it. A
write stores its bytes and no others, poisoned where the TLP is; one into an armed region, the page-table area of an enabled engine or a pinned
region is discarded and ends no context, and one to a retired pseudo-channel sets PC_RETIRED. A tier-3 completion delivers its bytes to the
transfer that waits, one with an error or none within CPL_TMO poisoned data with CPL_ERR; a snoop misses (R336, R337, R340, R342, R404, R428,
R429, R431, R457). The model's own choices in it: log entries 8, 17 and 103. -/
def Obligations.HostAccessesAndCompletions : Prop :=
  ∀ (s : State) (w : HostWindow) (o n a p off : Nat) (b : List Byte) (po : Bool) (tag : Nat) (q : T3Req) (d : Nat),
    let u := a / 64
    let st := s.stackOf p off
    let bad := s.mem.poAt a || s.invalidAt (64 * u) || s.retired (64 * u)
    (s.hif.linkUp = true → 0 < n → (s.hif.d3hot = true ∨ s.hostAddr w o n = none) → exec (.hostRead w o n) s = .next (s.emit (.unsupported o))) ∧
    (s.hif.linkUp = true → b ≠ [] → (s.hif.d3hot = true ∨ s.hostAddr w o b.length = none) →
      exec (.hostWrite w o b po) s = .next (s.emit (.unsupported o))) ∧
    (reaches s w o n a → s.hostReach a = false → exec (.hostRead w o n) s = .next (s.emit (.unsupported o))) ∧
    (reaches s w o b.length a → s.hostReach a = false → exec (.hostWrite w o b po) s = .next (s.emit (.unsupported o))) ∧
    (reaches s w o n a → locOf a = .mem p off → locOf (a + n - 1) = .mem p (off + n - 1) →
      (s.mem.finding u = .clean → ∃ t, exec (.hostRead w o n) s = .next t ∧ Out.hostRead (s.mem.read a n) bad ∈ t.out ∧
        (t.stack st).selfRefresh = false ∧ (bad = false → t.mem = s.mem ∧ t.regs = s.regs) ∧
        (bad = true → natBit (t.reg .hifErr 0 0).toNat 0 = true)) ∧
      (∀ k, s.mem.finding u = .fixed k → unlogged s → ∃ t, exec (.hostRead w o n) s = .next t ∧ Out.hostRead (s.mem.read a n) bad ∈ t.out ∧
        t.mem = s.mem.settle u ∧ t.reg .memCnt st 3 = s.reg .memCnt st 3 + 1 ∧ natBit (t.reg .memErr st 0).toNat 0 = true) ∧
      (s.mem.finding u = .bad → unlogged s → ∃ t d, exec (.hostRead w o n) s = .next t ∧ Out.hostRead d true ∈ t.out ∧ t.mem.poAt a = true ∧
        t.reg .memUeAddrLo st 0 = BitVec.ofNat 32 (64 * u) ∧ t.fld .memUeAddrHi st 0 23 20 = 1 ∧
        t.reg .memCnt st 4 = s.reg .memCnt st 4 + 1 ∧ natBit (t.reg .hifErr 0 0).toNat 0 = true)) ∧
    (reaches s w o b.length a → locOf a = .mem p off → locOf (a + b.length - 1) = .mem p (off + b.length - 1) → s.captureHolds a = false →
      (s.hostRefuses a = false → s.retired a = false → (b.length = 64 ∨ s.mem.finding u = .clean) → ∃ t, exec (.hostWrite w o b po) s = .next t ∧
        t.mem.read a b.length = b ∧
        (∀ c, c < a ∨ a + b.length ≤ c → t.mem.byte c = s.mem.byte c) ∧ (b.length = 64 → t.mem.poAt a = po) ∧
        (po = true → t.mem.poAt a = true) ∧ (∀ c, c / 64 ≠ a / 64 → t.mem.poAt c = s.mem.poAt c) ∧ t.regs = s.regs) ∧
      (s.hostRefuses a = false → s.retired a = false → b.length ≠ 64 → s.mem.finding u = .bad → unlogged s → ∃ t,
        exec (.hostWrite w o b po) s = .next t ∧ t.mem.read a b.length = b ∧ t.mem.poAt a = true ∧ t.fld .memUeAddrHi st 0 23 20 = 4) ∧
      (s.hostRefuses a = false → s.retired a = true → s.mem.finding u = .clean → ∃ t, exec (.hostWrite w o b po) s = .next t ∧
        natBit (t.reg .memErr st 0).toNat 7 = true ∧ (unlogged s → t.mem = s.mem)) ∧
      (s.hostRefuses a = true → ∃ t, exec (.hostWrite w o b po) s = .next t ∧ (unlogged s → t.mem = s.mem) ∧ t.ctxs = s.ctxs)) ∧
    (awaited s tag q d → b.length = q.len → ∃ t, exec (.t3Completion tag (.data b po)) s = .next t ∧
      (t.core q.core).loc.read d b.length = b ∧ (∀ c, c < d ∨ d + b.length ≤ c → (t.core q.core).loc.byte c = (s.core q.core).loc.byte c) ∧
      (po = true → b ≠ [] → (t.core q.core).loc.poAt d = true ∧ natBit (t.reg .hifErr 0 0).toNat 1 = true) ∧
      t.t3Find tag = none ∧ (t.core q.core).xfers.any (fun x => x.t3.contains tag) = false) ∧
    (awaited s tag q d → s.tim.now.toNat < q.time + 1000000 * s.fld .hifCtrl 0 0 7 0 → exec (.t3CompletionTimeout tag) s = .next s) ∧
    (awaited s tag q d → ∃ t, exec (.t3Completion tag .error) s = .next t ∧ natBit (t.reg .hifErr 0 0).toNat 1 = true ∧
      t.t3Find tag = none ∧ (0 < q.len → (t.core q.core).loc.poAt d = true) ∧
      (q.time + 1000000 * s.fld .hifCtrl 0 0 7 0 ≤ s.tim.now.toNat → exec (.t3CompletionTimeout tag) s = .next t)) ∧
    exec (.cxlSnoop o) s = .next (if s.hif.linkUp then s.emit (.snoopMiss o) else s)

/-- A header's ACK frees the flits of the replay buffer up to the one that it names, and its credits join their class up to the allocation, the
excess setting CRD_VIOL. NAK, and REPLAY_TMO without progress, send every unacknowledged flit again, or at RETRY_MAX in a row start a retrain. A
failed flit is counted, a codeword that the FEC cannot correct once and to the Ochre monitor too, and answered with one NAK until the expected
one arrives. A slot is the header with its fields at their bits, the 64-byte payload, and the CRC-32 over both (R353 to R355, R359, R360, R366).
ENABLE starts the training of a DISABLED link of an IDLE partition, with the whole allocation of credits; LNK_CRD_ALLOC changes only while the
link is DISABLED and the entries total 4,096. A retrain keeps the replay buffer, the sequence numbers and the credits. Training ends UP with four
lanes, UP_HALF on one good pair where HALF_OK is set, with precoding where both ends ask for it, goes on to full training after a failed fast
one, and else ends DOWN: queued messages are discarded, and every running context that used the link ends with LINK_TIMEOUT (R352, R360, R365 to
R367). The model's own choices in it: log entry 106. -/
def Obligations.LinksRetryTrainAndGoDown : Prop :=
  (∀ (s : State) (link : Fin 48) (h : FlitHead) (cause : FlitCause) (seq : Nat),
     let n := link.val
     let l := s.link n
     let late := decide (l.ackTime.toNat + 100 * s.fld .lnkCfg n 0 15 8 ≤ s.tim.now.toNat)
     (s.linkUp n = false → exec (.idle link h) s = .next s ∧ exec (.nak link h) s = .next s ∧ exec (.flitFailed link cause seq) s = .next s ∧
       exec (.replayTimeout link) s = .next s) ∧
     (h.typ ≠ 0 → exec (.idle link h) s = .next s) ∧
     (h.typ ≠ 4 → exec (.nak link h) s = .next s) ∧
     (s.linkUp n = true → h.typ = 0 → portIdle s n = true → ∃ t, exec (.idle link h) s = .next t ∧ (t.link n).replay = unacked l h.ack ∧
       AMap.get 0 h.crdTc (t.link n).credits = min (AMap.get 0 h.crdTc l.credits + 8 * h.crdN) (s.crdAlloc n h.crdTc) ∧
       (∀ c, c ≠ h.crdTc → AMap.get 0 c (t.link n).credits = AMap.get 0 c l.credits) ∧
       (credits s link h = true → t.regs = s.regs ∧ t.out = s.out) ∧
       (credits s link h = false → natBit (t.reg .lnkErr n 0).toNat 6 = true)) ∧
     (s.linkUp n = true → h.typ = 4 → portIdle s n = true → credits s link h = true → unacked l h.ack ≠ [] → ∃ t, exec (.nak link h) s = .next t ∧
       (t.link n).replay = unacked l h.ack ∧ t.reg .lnkCnt n 2 = s.reg .lnkCnt n 2 + BitVec.ofNat 32 (unacked l h.ack).length ∧
       (resendsAfter l h.ack + 1 < retryMax s n → t.linkState n = s.linkState n ∧ t.out = s.out ++ replayed s n (unacked l h.ack) ∧
         (t.link n).resends = resendsAfter l h.ack + 1) ∧
       (retryMax s n ≤ resendsAfter l h.ack + 1 → t.linkState n = 1)) ∧
     (s.linkUp n = true → l.replay ≠ [] → late = true → ∃ t, exec (.replayTimeout link) s = .next t ∧ (t.link n).replay = l.replay ∧
       t.reg .lnkCnt n 2 = s.reg .lnkCnt n 2 + BitVec.ofNat 32 l.replay.length ∧
       (l.resends + 1 < retryMax s n → t.linkState n = s.linkState n ∧ t.out = s.out ++ replayed s n l.replay) ∧
       (retryMax s n ≤ l.resends + 1 → t.linkState n = 1 ∧ (t.link n).nextSeq = l.nextSeq ∧ (t.link n).credits = l.credits)) ∧
     (l.replay = [] ∨ late = false → exec (.replayTimeout link) s = .next s) ∧
     (s.linkUp n = true → ∃ t, exec (.flitFailed link cause seq) s = .next t ∧ (t.link n).nakSent = true ∧ (t.link n).expSeq = l.expSeq ∧
       (t.link n).replay = l.replay ∧ t.mem = s.mem ∧
       (cause ≠ .outOfSequence → t.reg .lnkCnt n 3 = s.reg .lnkCnt n 3 + 1 ∧ natBit (t.reg .lnkErr n 0).toNat 0 = true) ∧
       (cause = .outOfSequence → t.regs = s.regs) ∧
       (cause = .fec true → t.reg .lnkCnt n 5 = s.reg .lnkCnt n 5 + 1 ∧ (t.link n).lostWords = s.recentLost n ++ [s.tim.now.toNat] ∧
         AMap.get (0, 0) n t.och.fec = ((AMap.get (0, 0) n s.och.fec).1, (AMap.get (0, 0) n s.och.fec).2 + 1)) ∧
       (cause ≠ .fec true → t.reg .lnkCnt n 5 = s.reg .lnkCnt n 5) ∧ t.out = s.out ++ nakOf s n) ∧
     (∀ typ sq ack ct cn tc po, typ < 16 → sq < 1024 → ack < 1024 → ct < 4 → cn < 8 → tc < 4 → ∀ b : List Byte,
       headBits (some sq) { typ := typ, tc := tc, po := po, payload := b } ack (ct, cn) = headerOf typ tc po sq ack ct cn ∧
       (let g : FlitHead := { bits := headerOf typ tc po sq ack ct cn }
        g.typ = typ ∧ g.tc = tc ∧ g.seq = sq ∧ g.ack = ack ∧ g.crdTc = ct ∧ g.crdN = cn) ∧
       (b.length = 64 → let w := slotBytes (some sq) { typ := typ, tc := tc, po := po, payload := b } ack (ct, cn)
         w.length = 72 ∧ w.take 4 = leBytes 4 (headerOf typ tc po sq ack ct cn).toNat ∧ (w.drop 4).take 64 = b ∧
         w.drop 68 = leBytes 4 (crc32 (w.take 68)).toNat))) ∧
  (∀ (s : State) (link : Fin 48) (v : W32) (cause : RetrainCause) (r : TrainResult),
     let n := link.val
     let open' := s.blkOpen .link n && s.lockOpen .link n
     let half := r.lanes.extractLsb' 0 2 == 3#2 || r.lanes.extractLsb' 2 2 == 3#2
     let good := r.lanes == 15 || (natBit (s.reg .lnkCtrl n 0).toNat 3 && half)
     (open' = false ∨ natBit (s.reg .lnkCtrl n 0).toNat 0 = true → exec (.linkEnable link) s = .next s) ∧
     (open' = true → natBit (s.reg .lnkCtrl n 0).toNat 0 = false → s.linkState n = 0 → s.mgmt.kat.contains (400 + n) = false →
       (s.part (n / 12)).pwr = .idle → ∃ t, exec (.linkEnable link) s = .next t ∧ t.linkState n = 1 ∧
       natBit (t.reg .lnkCtrl n 0).toNat 0 = true ∧ (∀ c, c < 4 → AMap.get 0 c (t.link n).credits = s.crdAlloc n c) ∧ (t.link n).replay = [] ∧
       (t.link n).nextSeq = 0) ∧
     (let w := v &&& 0x0FFFFFFF#32
      let total := crdEntries w 0 + crdEntries w 1 + crdEntries w 2 + crdEntries w 3
      (open' = true → s.linkState n = 0 → total = 4096 → exec (.lnkCrdAllocWrite link v) s = .next (s.setReg .lnkCrdAlloc n 0 w)) ∧
      (open' = false ∨ s.linkState n ≠ 0 ∨ total ≠ 4096 → exec (.lnkCrdAllocWrite link v) s = .next s)) ∧
     (s.linkUp n = true → (cause = .software → s.blkOpen .link n = true) → (cause = .codewords → 64 < (s.recentLost n).length) → ∃ t, exec (.linkRetrain link cause) s = .next t ∧ t.linkState n = 1 ∧
       (t.link n).replay = (s.link n).replay ∧ (t.link n).nextSeq = (s.link n).nextSeq ∧ (t.link n).expSeq = (s.link n).expSeq ∧
       (t.link n).credits = (s.link n).credits ∧ (t.link n).queue = (s.link n).queue ∧ (t.link n).fast = true ∧
       t.reg .lnkCnt n 7 = s.reg .lnkCnt n 7 + 1 ∧ natBit (t.reg .lnkErr n 0).toNat 1 = true) ∧
     (s.linkState n = 4 → s.blkOpen .link n = true → ∃ t, exec (.linkRetrain link .software) s = .next t ∧ t.linkState n = 1) ∧
     (s.linkUp n = false → cause ≠ .software → exec (.linkRetrain link cause) s = .next s) ∧
     ((s.recentLost n).length ≤ 64 → exec (.linkRetrain link .codewords) s = .next s) ∧
     (s.linkState n ≠ 1 → exec (.trainingComplete link r) s = .next s) ∧
     (s.linkState n = 1 → good = true → portIdle s n = true → ∃ t, exec (.trainingComplete link r) s = .next t ∧
       t.linkState n = (if r.lanes = 15 then 2 else 3) ∧ t.fld .lnkStatus n 0 19 8 = r.peerDev.toNat ∧ t.reg .lnkAsym n 0 = r.asym ∧
       t.fld .lnkStatus n 0 3 3 = bit (r.precode && natBit (s.reg .lnkCtrl n 0).toNat 1) ∧
       (r.lanes = 15 → AMap.get 100 (sensorKey 4 (n / 12) (n % 12)) t.och.sensors = r.margin) ∧
       (t.link n).replay = (s.link n).replay ∧ (t.link n).credits = (s.link n).credits ∧
       (r.lanes ≠ 15 → natBit (t.reg .lnkErr n 0).toNat 3 = true ∧ t.capacity 0x05 (n / 12) (n % 12) = some 49000)) ∧
     (s.linkState n = 1 → good = false → (s.link n).fast = true →
       exec (.trainingComplete link r) s = .next (s.setLink n { s.link n with fast := false })) ∧
     (s.linkState n = 1 → good = false → (s.link n).fast = false → ∃ t, exec (.trainingComplete link r) s = .next t ∧ t.linkState n = 4 ∧
       (t.link n).queue = [] ∧ natBit (t.reg .lnkErr n 0).toNat 2 = true ∧ t.capacity 0x05 (n / 12) (n % 12) = some 0 ∧
       ∀ x, x < 4 → s.linkUsed x n = true → (s.ctx x).st = .running → (t.ctx x).st = .draining ∧ (t.ctx x).status = stLink))

/-- PUT_REQ for a posted buffer is answered with PUT_GO for no more than the buffer, and else kept. PUT_GO sends the tile in pieces of at most 4
KiB. PUT_DATA in MSEQ order is written into the buffer, PUT_DONE leaves when the tile is written, and a full buffer ends the wait; one before its
turn has no effect. A message whose HEAD is not the one expected is discarded with a NAK. PUT_DONE counts for LFENCE; a message for a slot with
no live context is discarded. A message with HPTR below HOPS goes on over ROUTE[HPTR] with HPTR + 1, all else as it came; one past its route,
over a link that is not up, or for another device is a MISROUTE, and one that has stalled for FWD_TMO is discarded (R362, R364, R369, R370). The
model's own choices in it: log entries 73 and 77. -/
def Obligations.MessagesAreDeliveredAndForwarded : Prop :=
  ∀ (s : State) (link : Fin 48) (h : FlitHead) (g : PutMsg) (q : Sending) (r : RawMsg) (m : OutMsg) (p : Nat × W64) (tc : Fin 4),
    let n := link.val
    let x := g.slot.val
    let ch := g.ch.val
    let v := s.chan x ch
    let src := g.src.toNat
    let size := runsLen v.runs
    let u := s.recvMsg n h 1 2
    let dk := 1 + ceilDiv g.data.length 64
    let ud := s.recvMsg n h dk 2
    let early := (g.mseq - v.mseq).msb || g.offset != v.got
    (s.linkUp n = false → exec (.putReq link h g) s = .next s ∧ exec (.putGo link h g) s = .next s ∧ exec (.putData link h g) s = .next s ∧
      exec (.putDone link h g) s = .next s ∧ exec (.messageForward link h r) s = .next s) ∧
    (s.linkUp n = true → s.inSeq n h 1 2 = false → exec (.putReq link h g) s = .next (s.sendNak n) ∧ exec (.putGo link h g) s = .next (s.sendNak n) ∧
      exec (.putDone link h g) s = .next (s.sendNak n)) ∧
    (s.linkUp n = true → s.inSeq n h dk 2 = false → exec (.putData link h g) s = .next (s.sendNak n)) ∧
    (s.linkUp n = true → s.inSeq n h (1 + r.ndata) r.tc.val = false → exec (.messageForward link h r) s = .next (s.sendNak n)) ∧
    ((s.sendNak n).out = s.out ++ nakOf s n ∧ ((s.sendNak n).link n).nakSent = true) ∧
    (s.linkUp n = true → s.deaf x = true → (s.inSeq n h 1 2 = true → exec (.putReq link h g) s = .next u ∧ exec (.putGo link h g) s = .next u ∧
      exec (.putDone link h g) s = .next u) ∧ (s.inSeq n h dk 2 = true → exec (.putData link h g) s = .next ud)) ∧
    (s.linkUp n = true → s.inSeq n h 1 2 = true → s.deaf x = false →
      (expects s g = true →
        let k := min g.offset size
        let t1 := (u.setChan x ch { v with mseq := g.mseq + 1 }).sendPut (v.core / 100) x ch src 1 k [] []
        let t2 := t1.setChan x ch { t1.chan x ch with len := k }
        exec (.putReq link h g) s = .next (if size < g.offset then t2.endBy x stPage 0x08 else t2)) ∧
      (expects s g = false → exec (.putReq link h g) s = .next (u.setChan x ch { v with reqs := v.reqs ++ [(src, g.offset, g.mseq)] })) ∧
      ((u.ctx x).sending.find? (fun e => e.ch == ch && e.dst == src && !e.gone) = some q →
        exec (.putGo link h g) s = .next ((chunks 4096 (q.data.take g.offset).length (q.data.take g.offset)).zipIdx.foldl
          (fun t e => t.sendPut (q.core / 100) x q.ch q.dst 2 (4096 * e.2) e.1 ((q.po.drop (64 * e.2)).take 64))
          (u.setCtx x { u.ctx x with sending := (u.ctx x).sending.replace q { q with gone := true } }))) ∧
      ((s.ctx x).sending.find? (fun e => e.ch == ch && e.dst == src && e.gone) = some q → ∃ t, exec (.putDone link h g) s = .next t ∧
        (t.ctx x).sending = (s.ctx x).sending.erase q ∧ (t.core q.core).lsendOut = (s.core q.core).lsendOut - 1)) ∧
    (s.linkUp n = true → s.inSeq n h dk 2 = true → s.deaf x = false →
      (expects s g = true → early = true → exec (.putData link h g) s = .next s) ∧
      (expects s g = false → exec (.putData link h g) s = .next ud) ∧
      (expects s g = true → early = false →
        let w := if v.dev then ud.performWrite x (putPieces v g) else (ud.localWrite v.core (putPieces v g), false)
        let got := v.got + g.data.length
        let t1 := w.1.setChan x ch { w.1.chan x ch with got := got, full := decide (size ≤ got), mseq := g.mseq + 1 }
        let t2 := if v.len ≤ got then t1.sendPut (v.core / 100) x ch src 3 0 [] [] else t1
        (w.2 = true → exec (.putData link h g) s = .next (w.1.endBy x stPage 0x08)) ∧
        (w.2 = false → exec (.putData link h g) s = .next (if size ≤ got then t2.releaseAll x else t2)) ∧
        (v.dev = false → ∀ d len, v.runs = [(d, len)] → g.offset + g.data.length ≤ len →
          (w.1.core v.core).loc.read (d + g.offset) g.data.length = g.data ∧
          ∀ c, c < d + g.offset ∨ d + g.offset + g.data.length ≤ c → (w.1.core v.core).loc.byte c = (ud.core v.core).loc.byte c))) ∧
    (s.linkUp n = true → s.inSeq n h (1 + r.ndata) r.tc.val = true →
      let back := s.recvMsg n h (1 + r.ndata) r.tc.val
      let out := (r.route.map (fun e => e.val)).getD r.hptr 63
      (r.hops < r.hptr → exec (.messageForward link h r) s = .next (back.lnkErr n 4)) ∧
      (r.hptr = r.hops → exec (.messageForward link h r) s = .next (if r.dst.toNat = s.devId then back else back.lnkErr n 4)) ∧
      (r.hptr < r.hops → s.linkUp out = false → exec (.messageForward link h r) s = .next (back.lnkErr (if out < 48 then out else n) 4)) ∧
      (r.hptr < r.hops → s.linkUp out = true → out ≠ n → portIdle s n = true → portIdle s out = true → (s.link out).replay.length < 1023 → r.tc ≠ 0 →
        (0 < AMap.get 0 r.tc.val (s.link out).credits → ∃ t, exec (.messageForward link h r) s = .next t ∧
          wireSlot s out 0 (some (s.link out).nextSeq) (onward r) (s.link out).crdOut ∈ t.out) ∧
        (AMap.get 0 r.tc.val (s.link out).credits = 0 → ∃ t e, exec (.messageForward link h r) s = .next t ∧ (t.link out).queue = [e] ∧
          e.tc = r.tc.val ∧ e.flits = onward r :: dataFlits r.tc.val r.data r.poison))) ∧
    ((s.link n).queue.find? (fun e => e.tc == tc.val) = some m → m.fwd = some p →
      (s.tim.now.toNat < p.2.toNat + 1000 * s.fld .lnkCfg n 0 31 16 → exec (.forwardStallTimeout link tc) s = .next s) ∧
      (p.2.toNat + 1000 * s.fld .lnkCfg n 0 31 16 ≤ s.tim.now.toNat → ∃ t, exec (.forwardStallTimeout link tc) s = .next t ∧
        natBit (t.reg .lnkErr n 0).toNat 5 = true ∧ t.ctxs = s.ctxs ∧ ((s.link n).queue = [m] → (t.link n).queue = []) ∧
        (s.linkUp n = false → (t.link n).queue = (s.link n).queue.erase m)))

/-- The digest of a test pass is cross-checked with those of other cores for the same pass number: equal to one other it passes, else it waits
for a third, and the majority decides. A TESTING core that passes is SPARE, a SUSPECT one after its owed passes; one that fails is SUSPECT, or
FAILED if it was SUSPECT. A HALTED context with REPLAY set whose status replays, not yet replayed and with a SPARE for each SUSPECT core, is
BOUND again, the SPARE substituted, and its certificate under check with no T_L (R159, R162, R388 to R392, R405). The model's own choices in it:
log entries 65, 81, 92 and 98. -/
def Obligations.CoresAreTestedAndStepsReplayed : Prop :=
  ∀ (s : State) (k : CoreId) (r : TestResult) (slot : Fin 4) (a : Nat),
    let n := k.key
    let x := slot.val
    let c := s.ctx x
    let d := digestOf s r
    let others := s.och.tests.filter (fun q => q.pass == r.pass && q.core != n)
    let ok := others.any (fun q => q.digest == d)
    let decided := decide (2 ≤ others.length) || (others.length == 1 && ok)
    let ready := c.st = .halted ∧ natBit (s.reg .errCtxCfg 0 x).toNat 4 = true ∧ c.replayed = false ∧ c.replayCert = some a ∧ replayable s x ∧
      ∀ p, p ∈ partsOf c.parts → ((s.suspects x).filter (fun m => m / 100 == p)).length ≤ s.countIn p .spare
    (s.inTest n r.pass = false → exec (.testPassComplete k r) s = .next s) ∧
    (s.inTest n r.pass = true → ∃ t, exec (.testPassComplete k r) s = .next t ∧ (t.core n).pass = r.pass.toNat ∧
      t.reg .errCnt 0 5 = s.reg .errCnt 0 5 + 1 ∧
      (decided = false → t.och.tests = s.och.tests.filter (fun q => !(q.core == n && q.pass == r.pass)) ++ [{ core := n, pass := r.pass, digest := d }] ∧
        t.mem = s.mem ∧ (∀ m, t.coreState m = s.coreState m) ∧ (t.core n).lastTest = (s.core n).lastTest) ∧
      (decided = true → t.och.tests = s.och.tests.filter (fun q => q.pass != r.pass) ∧ (ok = true → (t.core n).lastTest = s.tim.now) ∧
        (s.partBusy k.part.val = true → (∀ q, q ∈ others → s.partBusy (q.core / 100) = true) → (unlogged s → t.mem = s.mem) ∧
          (ok = true → s.coreState n = .testing → t.coreState n = .spare) ∧
          (ok = true → s.coreState n = .suspect → (t.core n).owed = (s.core n).owed - 1 ∧
            t.coreState n = if (s.core n).owed ≤ 1 then .spare else .suspect) ∧
          (ok = false → s.coreState n = .suspect → t.coreState n = .failed) ∧
          (ok = false → s.coreState n = .testing → (t.core n).suspect = (s.core n).suspect + 1 ∧ (t.core n).owed = 3 ∧
            t.coreState n = if 3 ≤ (s.core n).suspect + 1 then .failed else .suspect)))) ∧
    (ready → ∃ t, exec (.stepReplay slot) s = .next t ∧ (t.ctx x).st = .bound ∧ (t.ctx x).replayed = true ∧
      (t.ctx x).checking = some { q := 0, cid := 0, addr := a, tL := 0, post := false } ∧ (t.ctx x).stepno = c.stepno ∧
      ∀ old new, s.suspects x = [old] → s.coreIn (old / 100) .spare = some new → t.coreState new = .inService ∧
        t.coreState old = .suspect ∧ (t.core new).imem = (s.core old).imem) ∧
    (¬ (∃ b, c.replayCert = some b ∧ c.st = .halted ∧ natBit (s.reg .errCtxCfg 0 x).toNat 4 = true ∧ c.replayed = false ∧ replayable s x ∧
        ∀ p, p ∈ partsOf c.parts → ((s.suspects x).filter (fun m => m / 100 == p)).length ≤ s.countIn p .spare) →
      exec (.stepReplay slot) s = .next s)

/-- The commit digests of a check group are held until every member has reported, or for 1 ms: agreement where all equal this device's, else the
shard lists are exchanged. With the last list the value of a strict majority decides: a context with another value ends with SDC_MISMATCH, and
with no strict majority with TRIPLE_DISAGREE (R402, R411, R412). The model's own choices in it: log entries 28 and 29. -/
def Obligations.ReplicasAgreeOrEnd : Prop :=
  ∀ (s : State) (slot : Fin 4) (member : BitVec 12) (step : W32) (d own : W64) (no : W32) (ms : List Nat) (l : List W64),
    let x := slot.val
    let c := s.ctx x
    let u := withDigest s x member.toNat step d
    let takes := c.st ≠ .free ∧ (s.ckGroup x).contains member.toNat = true ∧ c.cmpVote = none
    let late := decide (c.cmpStart.toNat + 1000000 ≤ s.tim.now.toNat)
    let values := own :: (c.reports).map (fun e => e.2)
    (¬ takes → exec (.commitDigestReceive slot member step d) s = .next s) ∧
    (takes → c.cmpDone = true ∨ allIn u x = false → exec (.commitDigestReceive slot member step d) s = .next u) ∧
    (takes → c.cmpDone = false → allIn u x = true → c.ownDigest = some (no, own) → ∃ t,
      exec (.commitDigestReceive slot member step d) s = .next t ∧
      (((u.ctx x).reports).all (fun e => e.2 == own) = true → (t.ctx x).cmpDone = true ∧ (t.ctx x).agreed = true) ∧
      (((u.ctx x).reports).all (fun e => e.2 == own) = false → (t.ctx x).cmpVote = some (((u.ctx x).reports).map (fun e => e.1)) ∧
        t.reg .sepCnt 0 7 = s.reg .sepCnt 0 7 + 1 ∧ (t.ctx x).st = c.st)) ∧
    (c.cmpDone = true ∨ c.cmpVote ≠ none ∨ late = false → exec (.checkGroupTimeout slot) s = .next s) ∧
    (c.cmpDone = false → c.cmpVote = none → late = true → c.ownDigest = some (no, own) → ∃ t, exec (.checkGroupTimeout slot) s = .next t ∧
      ((c.reports).all (fun e => e.2 == own) = true → (t.ctx x).cmpDone = true ∧ (t.ctx x).agreed = true) ∧
      ((c.reports).all (fun e => e.2 == own) = false → (t.ctx x).cmpVote = some ((c.reports).map (fun e => e.1)))) ∧
    (c.cmpVote = some ms → c.ownDigest = some (no, own) → ms.contains member.toNat = true →
      c.shardLists.any (fun e => e.1 == member.toNat) = false →
      (c.shardLists.length + 1 < ms.length → exec (.shardListReceive slot member l) s =
        .next (s.setCtx x { c with shardLists := c.shardLists ++ [(member.toNat, l)] })) ∧
      (ms.length ≤ c.shardLists.length + 1 → ∃ t, exec (.shardListReceive slot member l) s = .next t ∧ (t.ctx x).cmpDone = true ∧
        (strictMajority values = some own → (t.ctx x).agreed = true) ∧
        (∀ v, strictMajority values = some v → v ≠ own → c.st = .running → (t.ctx x).st = .draining ∧ (t.ctx x).status = stSdc) ∧
        (strictMajority values = none → c.st = .running → (t.ctx x).st = .draining ∧ (t.ctx x).status = stTriple))) ∧
    (c.cmpVote = none → exec (.shardListReceive slot member l) s = .next s)

/-- A droop counts in OCH_CNT[2] and for the last hour. A sample sets the risk M + ⌊(S − M)/4⌋, at most 255, from the class stresses; a risk at
RISK_TH requests saves of the bound slots once until it falls below RISK_TH − HYST, and a worn partition is derated by one step a day. The daily
fit keeps 30 daily means, shows 0xFFFF with fewer than seven, and a lower bound below LIFE_TH is a replacement cause (R421 to R425, R468). The
model's own choices in it: log entries 93 and 99. -/
def Obligations.HealthIsMonitored : Prop :=
  ∀ (s : State) (part : Fin 4) (inst : Nat) (l : List SensorReading),
    let now := s.tim.now.toNat
    let u := sensed s l
    let r := riskOf u
    let th := s.fld .ochCtrl 0 0 7 0
    let mean := fun c : Nat => AMap.get 0 c s.och.daySum * 65536 / max 1 (AMap.get 0 c s.och.dayCount)
    let days := if AMap.get 0 0 s.och.dayCount = 0 then s.och.means else s.och.means ++ [(mean 0, mean 1)]
    let w := s.setOch { s.och with means := days.drop (days.length - 30), daySum := [], dayCount := [] }
    (∃ t, exec (.droopEvent part inst) s = .next t ∧ t.reg .ochCnt 0 2 = s.reg .ochCnt 0 2 + 1 ∧ t.mem = s.mem ∧
      t.pwr.droop = s.pwr.droop.filter (fun e => decide (now < e.1 + 3600000000000)) ++ [(now, sensorKey 5 part.val inst)]) ∧
    (∃ t, exec (.ochreSample l) s = .next t ∧ t.och.risk = r ∧ t.fld .ochStatus 0 0 7 0 = r ∧ t.och.sensors = u.och.sensors ∧
      (th ≤ r → s.och.armed = true → natBit (s.reg .sepCtrl 0 0).toNat 1 = true → t.och.armed = false ∧
        t.reg .ochCnt 0 0 = s.reg .ochCnt 0 0 + 1 ∧ ∀ x, x < 4 → (s.ctx x).st ≠ .free → (t.ctx x).savePending = true) ∧
      (r + s.fld .ochCtrl 0 0 15 8 < th → t.och.armed = true) ∧
      (∀ p, p < 4 → derates u p = true → (t.part p).kOchre = (s.part p).kOchre - 1 ∧ natBit (t.reg .ochStatus 0 0).toNat (9 + p) = true ∧
        AMap.get 0 p t.och.lastDerate = now + 1) ∧
      (∀ p, p < 4 → derates u p = false → (t.part p).kOchre = (s.part p).kOchre)) ∧
    (∃ t up, exec .lifeFit s = .next t ∧ (∀ i, up i ≤ 1) ∧ t.och.means = w.och.means ∧ t.och.daySum = [] ∧ t.och.dayCount = [] ∧
      t.reg .ochLife 0 0 = BitVec.ofNat 32 ((w.lifeVals up).1 + 2 ^ 16 * (w.lifeVals up).2) ∧
      (w.och.means.length < 7 → t.reg .ochLife 0 0 = 0xFFFFFFFF) ∧
      ((w.lifeVals (fun _ => 0)).2 < s.fld .ochCtrl 0 0 31 16 → natBit (t.reg .ochReplace 0 0).toNat 0 = true))

/-- A partition reset ends the context bound to the partition with PARTITION_RESET, zeroes the partition store, makes its armed regions INVALID,
disables its links, locks its window, keeps instruction memory and the Vat-writes in flight, and is recorded; the third within 1 s takes the
partition offline. UMB_CTRL.PART_RST asks for it of partitions that are not in reset, and its end opens the partition again. What is tripped or
not yet up takes none (R110, R343, R385, R386, R448, R451). A device reset, DEV_RST_N and UMB_CTRL.WARM make a warm reset of their kind, which
halts every bound context with PARTITION_RESET, zeroes the stores, keeps device memory in self-refresh (at its addresses, where ILV stands at its
reset value), device time and test data, loses instruction memory, disables the links and locks every lock. Power-on reset loses all but the
fuses, the flash and the daily means, and sets device time to 0. A reset of the host link disables the queue pairs and the tier-3 windows; D3hot
is left by it alone (R302, R387, R436, R448 to R451, R458). The model's own choices in it: log entries 5, 68 and 94. -/
def Obligations.ResetsActOnTheirScope : Prop :=
  (∀ (s : State) (part : Fin 4) (c : ErrCause) (v : BitVec 4),
     let p := part.val
     let now := s.tim.now.toNat
     let recent := (s.part p).resets.filter (fun t => decide (now < t.toNat + 1000000000))
     let up := decide (3 ≤ s.stage) && !s.pwr.tripped
     (up = false → exec (.partitionReset part c) s = .next s) ∧
     (up = true → ∃ t, exec (.partitionReset part c) s = .next t ∧ (t.part p).resetting = true ∧
       (t.part p).offline = ((s.part p).offline || decide (2 ≤ recent.length)) ∧ (t.part p).logical = (s.part p).logical ∧
       (∀ i, i < 12 → t.linkState (12 * p + i) = 0) ∧ AMap.get false (8 + p) t.unlocked = false ∧ t.reg .umbCnt 0 0 = s.reg .umbCnt 0 0 + 1 ∧
       t.reg .errLastReset 0 0 = BitVec.ofNat 32 (c.source.toNat + 512 * p) ∧ t.tim.now = s.tim.now ∧
       (∀ i, i < 100 → (t.core (100 * p + i)).imem = (s.core (100 * p + i)).imem ∧ (∃ l, (t.core (100 * p + i)).vwq = (s.core (100 * p + i)).vwq ++ l) ∧
         (t.core (100 * p + i)).epochs = []) ∧
       (∀ q j, q < 4 → j < 16 → (s.region q j).armed = true → q = p ∨ (s.region q j).ownerPart = p → (t.region q j).armed = false ∧
         (t.region q j).invalid = true) ∧
       (∀ x, s.partSlot p = some x → (s.ctx x).st = .bound ∨ (s.ctx x).st = .running → (t.ctx x).st = .draining ∧
         ((∀ v, s.sep.save = some v → v.slot ≠ x) → (t.ctx x).status = stReset)) ∧
       (unlogged s → noneAdmitted s → ∀ o, o < 0xC000000 → t.mem.byte (storeAddr p o) = 0 ∧ t.mem.poAt (storeAddr p o) = false)) ∧
     ((s.part p).resetting = true → ∃ t, exec (.partitionResetDone part) s = .next t ∧ (t.part p).resetting = false ∧
       (t.part p).offline = (s.part p).offline ∧ natBit (t.reg .wldStatus (496 + p) 0).toNat 2 = true ∧
       natBit (t.reg .wldStatus (500 + p) 0).toNat 2 = true ∧ t.mem = s.mem ∧ t.ctxs = s.ctxs) ∧
     ((s.part p).resetting = false → exec (.partitionResetDone part) s = .next s) ∧
     (up = true → s.blkOpen .umb 0 = true → partsOf v = [p] → (s.part p).resetting = false →
       exec (.partRst v) s = exec (.partitionReset part { source := 0x11 }) s) ∧
     (∃ t, exec (.partRst v) s = .next t ∧ (up = true → s.blkOpen .umb 0 = true → ∀ q, q ∈ partsOf v → (t.part q).resetting = true)) ∧
     (s.blkOpen .umb 0 = false ∨ up = false → exec (.partRst v) s = .next s)) ∧
  (∀ (s : State) (c : ErrCause),
     (mayWarm s = false → exec (.deviceReset c) s = .next s ∧ exec .devRstN s = .next s ∧ exec .warm s = .next s) ∧
     (mayWarm s = true → unlogged s → ∃ t, exec (.deviceReset c) s = .next t ∧ warmed s t 4 ∧
       t.reg .errLastReset 0 0 = BitVec.ofNat 32 (c.source.toNat + 256)) ∧
     (mayWarm s = true → ∃ t, exec (.deviceReset c) s = .next t ∧ t.stage = 0 ∧ kindOf t = 4 ∧
       t.reg .errLastReset 0 0 = BitVec.ofNat 32 (c.source.toNat + 256) ∧ ∀ x, x < 4 → (s.ctx x).st ≠ .free → (t.ctx x).st = .halted) ∧
     (mayWarm s = true → ∃ t, exec .devRstN s = .next t ∧ warmed s t 2 ∧ AMap.get true 1 t.mgmt.pins = false) ∧
     (mayWarm s = true → s.blkOpen .umb 0 = true → ∃ t, exec .warm s = .next t ∧ warmed s t 3) ∧
     (s.blkOpen .umb 0 = false → exec .warm s = .next s) ∧
     (∃ t, exec .powerOnReset s = .next t ∧ t.tim = {} ∧ t.mem = {} ∧ t.host = s.host ∧ t.ctxs = [] ∧ t.cores = [] ∧ t.links = [] ∧ t.unlocked = [] ∧
       t.mgmt.flash = s.mgmt.flash ∧ t.mgmt.active = s.mgmt.active ∧ t.och.means = s.och.means ∧ t.och.risk = 0 ∧ t.mgmt.powerOn = true ∧
       t.mgmt.vcoreOn = false ∧ t.stage = 0 ∧ kindOf t = 1 ∧ natBit (t.reg .umbRstCause 0 0).toNat 3 = s.mgmt.trip ∧ t.pending = s.pending ∧
       (∀ e, e ∈ s.mgmt.flashLog → e ∈ t.mgmt.hard)) ∧
     (∀ flr, ∃ t, exec (.hostLinkReset flr) s = .next t ∧ t.hif.d3hot = false ∧ t.hif.linkUp = (flr && s.hif.linkUp) ∧ t.hif.nonceValid = false ∧
       (∀ q, q < 16 → natBit (t.reg .hifQCfg 0 q).toNat 9 = false) ∧
       (∀ w, w < 16 → t.reg .hifT3Lo 0 w = 0 ∧ t.reg .hifT3Hi 0 w = 0) ∧ t.hif.t3 = [] ∧
       (s.hif.t3 = [] → t.mem = s.mem ∧ ∀ x, x < 4 → (t.ctx x).st = (s.ctx x).st ∧ (t.ctx x).status = (s.ctx x).status)) ∧
     (∃ t, exec .perstNRelease s = .next t ∧ AMap.get true 2 t.mgmt.pins = true ∧ t.mem = s.mem ∧ t.ctxs = s.ctxs ∧
       ((1 ≤ s.stage ∨ s.mgmt.recovery = true) → t.hif.linkUp = true) ∧
       (s.stage = 0 → s.mgmt.recovery = false → t.hif.linkUp = s.hif.linkUp)) ∧
     exec .d3hotEntry s = .next (if s.hif.linkUp then s.setHif { s.hif with d3hot := true } else s))

/-- BOOT boots the ACTIVE bank where it passes, else the other with FALLBACK, else enters recovery; the stacks leave self-refresh, and a core
whose generator failed its test vector is FAILED. Bring-up ends READY at STAGE 3. UMB_PART_PWR is refused whole where a partition that it sends
to RET or OFF has a context or a link that is not DISABLED; OFF loses the partition store. The target of VCORE is the fused voltage of a
partition in IDLE, 0.55 V in RET, commanded to the regulator in steps, and OPERATION off in OFF, where a regulator that fails leaves its
partition, logged. PREPARE_OFF puts every stack into self-refresh, and OFF_READY follows with the repair log in the flash (R170, R303, R440,
R441, R456, R457, R460, R469, R470). The model's own choices in it: log entries 11, 69, 96 and 97. -/
def Obligations.DeviceBootsAndPartitionsRest : Prop :=
  ∀ (s : State) (kat : List Nat) (v : W32) (part : Fin 4),
    let p := part.val
    let starts := decide (s.stage = 0) && !s.mgmt.recovery && !s.pwr.tripped
    let bank := if s.bankOk s.mgmt.active then some s.mgmt.active else if s.bankOk (1 - s.mgmt.active) then some (1 - s.mgmt.active) else none
    let refused := (List.range 4).any (fun q => decide (2 ≤ asked v q) && !s.mayRest q)
    (starts = false → exec (.boot kat) s = .next s) ∧
    (starts = true → bank = none → ∃ t, exec (.boot kat) s = .next t ∧ t.mgmt.recovery = true ∧ natBit (t.reg .hifStatus 0 0).toNat 5 = true ∧
      t.stage = 0 ∧ t.mgmt.powerOn = false ∧ t.mem = s.mem) ∧
    (∀ b, starts = true → bank = some b → ∃ t, exec (.boot kat) s = .next t ∧ t.stage = 2 ∧ t.mgmt.booted = b ∧ t.mgmt.powerOn = false ∧
      t.mgmt.recovery = false ∧ natBit (t.reg .hifStatus 0 0).toNat 4 = (b != s.mgmt.active) ∧ t.reg .gctFw 0 0 =
        BitVec.ofNat 32 (leField (s.flashRead (b * 0x1000000) 16) 4 7) ∧
      natBit (t.reg .krmStatus 0 0).toNat 0 = true ∧ (natBit (t.reg .krmStatus 0 0).toNat 1 = kat.all (fun u => decide (2068 ≤ u))) ∧
      (∀ n, n < 400 → n ∈ kat → s.coreState n ≠ .fused → t.coreState n = .failed) ∧ t.mgmt.vcoreOn = true ∧
      (allAnswer s → (unlogged s → t.mem = s.mem) ∧ (∀ i, i < 20 → (t.stack i).selfRefresh = false) ∧ ∀ q, q < 4 →
        (t.part q).mv = Config.fusedVoltage q ∧ ((s.part q).pwr ≠ .off → (s.part q).mv ≠ Config.fusedVoltage q →
        Out.pmbus (0x40 + q) (.voutCommand (Config.fusedVoltage q)) ∈ t.out)) ∧
      (∀ q, q < 4 → (s.part q).regBad = true → (t.part q).pwr = .off ∧ Out.pmbus (0x40 + q) (.operation false) ∈ t.out ∧
        natBit (t.reg .errSrc 0 0).toNat 0x11 = true)) ∧
    (s.stage = 2 → s.mgmt.recovery = false → ∃ t, exec .bringUpReady s = .next t ∧ t.stage = 3 ∧ natBit (t.reg .hifStatus 0 0).toNat 0 = true) ∧
    (s.stage ≠ 2 ∨ s.mgmt.recovery = true → exec .bringUpReady s = .next s) ∧
    (s.blkOpen .umb 0 = false → exec (.umbPartPwrWrite v) s = .next s ∧ exec .prepareOff s = .next s) ∧
    (s.blkOpen .umb 0 = true → refused = true → exec (.umbPartPwrWrite v) s = .next (s.orReg .umbStatus 0 0 0x800)) ∧
    (s.blkOpen .umb 0 = true → refused = false → (∀ q, q < 4 → asked v q = 2 → (s.part q).regBad = false) → ∃ t, exec (.umbPartPwrWrite v) s = .next t ∧ t.ctxs = s.ctxs ∧
      (∀ q, q < 4 → (t.part q).pwr = if asked v q = 2 then .ret else if asked v q = 3 then .off else (s.part q).pwr) ∧
      (∀ q, q < 4 → asked v q = 1 → (s.part q).pwr ≠ .idle → (t.part q).waking = true) ∧
      (∀ q i, q < 4 → i < 5 → 2 ≤ asked v q → (t.stack (5 * q + i)).selfRefresh = true) ∧
      (∀ q o, q < 4 → o < 0xC000000 → asked v q = 3 → t.mem.byte (storeAddr q o) = 0) ∧
      (∀ q, q < 4 → (asked v q = 2 → (t.part q).mv = 550) ∧ (asked v q = 3 → (t.part q).mv = 0 ∧ Out.pmbus (0x40 + q) (.operation false) ∈ t.out)) ∧
      (∀ a r off, locOf a = .mem r off → t.mem.byte a = s.mem.byte a) ∧
      ((∀ q, q < 4 → 2 ≤ asked v q) → s.clocksStopped = false → s.role = 1 → t.tim.state = 1)) ∧
    ((s.part p).waking = true → (s.part p).pwr ≠ .idle → (s.part p).regBad = true → ∃ t, exec (.partitionWakeDone part) s = .next t ∧
      (t.part p).pwr = .off ∧ natBit (t.reg .errSrc 0 0).toNat 0x11 = true ∧ t.reg .umbCnt 0 5 = s.reg .umbCnt 0 5) ∧
    ((s.part p).waking = true → (s.part p).pwr ≠ .idle → (s.part p).regBad = false → ∃ t, exec (.partitionWakeDone part) s = .next t ∧ (t.part p).pwr = .idle ∧
      (t.part p).waking = false ∧ (t.part p).mv = Config.fusedVoltage p ∧ t.reg .umbCnt 0 5 = s.reg .umbCnt 0 5 + 1 ∧ t.mem = s.mem ∧
      ∀ i, i < 5 → (t.stack (5 * p + i)).selfRefresh = false) ∧
    ((s.part p).waking = false → exec (.partitionWakeDone part) s = .next s) ∧
    (s.blkOpen .umb 0 = true → ∃ t, exec .prepareOff s = .next t ∧ t.mgmt.preparing = true ∧ t.mem = s.mem ∧
      ∀ i, i < 20 → (t.stack i).selfRefresh = true) ∧
    (s.mgmt.preparing = true → ∃ t, exec .offReady s = .next t ∧ natBit (t.reg .umbStatus 0 0).toNat 8 = true ∧ t.mgmt.preparing = false ∧
      t.mgmt.flashLog = s.mgmt.flashLog ++ s.mgmt.repairLog ∧ t.mgmt.repairLog = []) ∧
    (s.mgmt.preparing = false → exec .offReady s = .next s)

/-- An interval of power above the limit less its guard lowers k by one, at k = 8 it withholds issue; 100 intervals in a row below the limit less
four guards end the withheld issue or raise k by one, at most to 16. A sample above THROTTLE_C lowers its partition's k by one where the 1 ms
count stands at 0, down to 8, and below THROTTLE_C − 5 the sample that completes 100 ms raises it by one; at 110 °C every fast clock stops,
THERM_TRIP_N is asserted and every context is lost (R461 to R463). The model's own choices in it: log entry 96. -/
def Obligations.PowerAndHeatAreLimited : Prop :=
  ∀ (s : State) (mw : Nat) (temps : List Nat),
    let w := s.pwr
    let th := s.fld .umbTherm 0 0 7 0
    (∃ t, exec (.powerInterval mw) s = .next t ∧ t.fld .umbStatus 0 0 31 16 = min 0xFFFF (mw / 1000) ∧ t.pwr.energy = w.energy + mw ∧
      t.pwr.tripped = w.tripped ∧
      (overPower s mw = true → 8 < w.k → t.pwr.k = w.k - 1 ∧ t.pwr.below = 0 ∧ t.pwr.withheld = w.withheld ∧
        t.reg .umbCnt 0 1 = s.reg .umbCnt 0 1 + 1) ∧
      (overPower s mw = true → w.k ≤ 8 → t.pwr.k = w.k ∧ t.pwr.below = 0 ∧ t.pwr.withheld = true ∧
        t.reg .umbCnt 0 3 = s.reg .umbCnt 0 3 + 1) ∧
      (overPower s mw = false → underPower s mw = false → t.pwr.k = w.k ∧ t.pwr.below = 0 ∧ t.pwr.withheld = w.withheld) ∧
      (overPower s mw = false → underPower s mw = true → w.below < 99 → t.pwr.k = w.k ∧ t.pwr.below = w.below + 1 ∧ t.pwr.withheld = w.withheld) ∧
      (overPower s mw = false → underPower s mw = true → 99 ≤ w.below → t.pwr.below = 0 ∧ t.pwr.withheld = false ∧
        t.pwr.k = if w.withheld then w.k else min 16 (w.k + 1))) ∧
    (w.tripped = true ∨ s.mgmt.powerOn = true → exec (.thermalSample temps) s = .next s) ∧
    (w.tripped = false → s.mgmt.powerOn = false → temps.any (fun c => decide (110 ≤ c)) = true → ∃ t, exec (.thermalSample temps) s = .next t ∧
      t.pwr.tripped = true ∧ t.ctxs = [] ∧ t.stage = 0 ∧ t.mgmt.trip = true ∧ AMap.get true 4 t.mgmt.pins = false ∧ Out.pin 4 false ∈ t.out) ∧
    (w.tripped = false → s.mgmt.powerOn = false → temps.any (fun c => decide (110 ≤ c)) = false → ∃ t, exec (.thermalSample temps) s = .next t ∧
      t.fld .umbTherm 0 0 31 24 = min 255 (temps.foldl max 0) ∧ t.pwr.tripped = false ∧
      ∀ p c, p < 4 → temps[p]? = some c → AMap.get 0 p t.pwr.temps = c ∧
        (th < c → (t.part p).kTherm = if AMap.get 0 p w.hot = 0 ∧ 8 < (s.part p).kTherm then (s.part p).kTherm - 1 else (s.part p).kTherm) ∧
        (c ≤ th → th ≤ c + 5 → (t.part p).kTherm = (s.part p).kTherm) ∧
        (c + 5 < th → (t.part p).kTherm = if AMap.get 0 p w.cool = 9999 then min 16 ((s.part p).kTherm + 1) else (s.part p).kTherm))

/-- Set Endpoint ID and firmware update are answered in recovery too, every other request only with firmware. An update takes the bank that is
not ACTIVE, one at a time; its image is verified under R440, and only a verified one becomes ACTIVE. SPDM answers in the order GET_VERSION,
GET_CAPABILITIES, NEGOTIATE_ALGORITHMS, then the others; measurements are 1 to 4, or all of them (R440, R442 to R445). The model's own choices in
it: log entries 12 and 95. -/
def Obligations.ManagementRequestsAreAnswered : Prop :=
  ∀ (s : State) (eid : Byte) (b : List Byte) (id v k : Nat),
    let spdmRows : List (Instr × Nat × Nat × Nat) :=
      [(.getCapabilities b, 1, 1, 2), (.negotiateAlgorithms b, 2, 2, 3), (.getDigests b, 3, 3, 0), (.getCertificate b, 4, 3, 0), (.challenge b, 5, 3, 0)]
    let answers := fun (i : Instr) (t : State) (r : Reply) => exec i s = .next t ∧ t.out = s.out ++ [.mgmt r] ∧ t.mem = s.mem ∧ t.ctxs = s.ctxs
    (updates s = false → exec (.setEndpointId eid) s = .next s ∧ exec (.requestUpdate b) s = .next s ∧ exec (.verifyComplete b) s = .next s ∧
      exec (.activateFirmware b) s = .next s) ∧
    (manages s = false → exec (.pldmMonitoringRequest b) s = .next s ∧ exec (.getVersion b) s = .next s ∧ exec (.getMeasurements b) s = .next s ∧
      ∀ e, e ∈ spdmRows → exec e.1 s = .next s) ∧
    (updates s = true →
      (eid ≠ 0 → eid ≠ 0xFF → ∃ t, answers (.setEndpointId eid) t (.endpoint eid) ∧ t.mgmt.eid = eid) ∧
      (eid = 0 ∨ eid = 0xFF → ∃ t, answers (.setEndpointId eid) t (.endpoint s.mgmt.eid) ∧ t.mgmt.eid = s.mgmt.eid) ∧
      (s.mgmt.update = none → ∃ t, answers (.requestUpdate b) t .updateAccepted ∧ t.mgmt.update = some (1 - s.mgmt.active) ∧
        t.mgmt.updateOk = false ∧ t.mgmt.active = s.mgmt.active) ∧
      (s.mgmt.update = some k → ∃ t, answers (.requestUpdate b) t .alreadyInUpdateMode ∧ t.mgmt = s.mgmt) ∧
      (s.mgmt.update = none → (∃ t, answers (.verifyComplete b) t .notInUpdateMode) ∧ ∃ t, answers (.activateFirmware b) t .notInUpdateMode) ∧
      (s.mgmt.update = some k → ∃ t, answers (.verifyComplete b) t (.verified (t.bankOk k)) ∧ t.mgmt.updateOk = t.bankOk k ∧
        t.mgmt.active = s.mgmt.active ∧ (∀ a, a < b.length → a < 0x1000000 → AMap.get 0 (k * 0x1000000 + a) t.mgmt.flash = b.getD a 0) ∧
        ∀ a, a < k * 0x1000000 ∨ (k + 1) * 0x1000000 ≤ a → AMap.get 0 a t.mgmt.flash = AMap.get 0 a s.mgmt.flash) ∧
      (s.mgmt.update = some k → s.mgmt.updateOk = false → ∃ t, answers (.activateFirmware b) t (.activated false) ∧ t.mgmt = s.mgmt) ∧
      (s.mgmt.update = some k → s.mgmt.updateOk = true → natBit (leField b 0 0) 0 = false → ∃ t, answers (.activateFirmware b) t (.activated true) ∧
        t.mgmt.active = k ∧ t.mgmt.update = none) ∧
      (s.mgmt.update = some k → s.mgmt.updateOk = true → natBit (leField b 0 0) 0 = true → mayWarm s = true → ∃ t,
        exec (.activateFirmware b) s = .next t ∧ t.mgmt.active = k ∧ t.mgmt.update = none ∧ kindOf t = 5 ∧ t.stage = 0)) ∧
    (manages s = true →
      (b.length = 2 → leField b 0 1 = id → s.sensorValue id = some v → ∃ t, answers (.pldmMonitoringRequest b) t (.sensor id v)) ∧
      (b.length ≠ 2 ∨ s.sensorValue (leField b 0 1) = none → ∃ t, answers (.pldmMonitoringRequest b) t (.pdr (Config.pdrBody b))) ∧
      (∃ t, answers (.getVersion b) t (.spdm 0 (Config.spdmBody 0 s.free)) ∧ t.mgmt.spdm = 1) ∧
      (∀ e, e ∈ spdmRows →
        (s.mgmt.spdm < e.2.2.1 ∨ (4 ≤ e.2.1 ∧ leField b 0 0 ≠ 0) → ∃ t, answers e.1 t .spdmError ∧ t.mgmt = s.mgmt) ∧
        (e.2.2.1 ≤ s.mgmt.spdm → (4 ≤ e.2.1 → leField b 0 0 = 0) → ∃ t, answers e.1 t (.spdm e.2.1 (Config.spdmBody e.2.1 s.free)) ∧
          t.mgmt.spdm = if s.mgmt.spdm = e.2.2.1 ∧ e.2.2.2 ≠ 0 then e.2.2.2 else s.mgmt.spdm)) ∧
      (s.mgmt.spdm < 3 ∨ (4 < leField b 0 0 ∧ leField b 0 0 ≠ 0xFF) → ∃ t, answers (.getMeasurements b) t .spdmError) ∧
      (3 ≤ s.mgmt.spdm → 1 ≤ leField b 0 0 → leField b 0 0 ≤ 4 → ∃ t, answers (.getMeasurements b) t
        (.measurements [leField b 0 0] s.minSvn (s.fld .hifDbgStatus 0 0 3 0) (Config.spdmBody 6 s.free))) ∧
      (3 ≤ s.mgmt.spdm → leField b 0 0 = 0 → ∃ t, answers (.getMeasurements b) t
        (.measurements [] s.minSvn (s.fld .hifDbgStatus 0 0 3 0) (Config.spdmBody 6 s.free))) ∧
      (3 ≤ s.mgmt.spdm → leField b 0 0 = 0xFF → ∃ t, answers (.getMeasurements b) t
        (.measurements [1, 2, 3, 4] s.minSvn (s.fld .hifDbgStatus 0 0 3 0) (Config.spdmBody 6 s.free))))

/-- A doorbell within its queue moves its pointer and one beyond sets DB_RANGE; a queue pair is enabled with legal sizes only, empty, and keeps
its sizes while it is. Tier-3 windows do not move under a program. NEW draws a nonce; SUBMIT consumes it, and a token that passes adds its
grants, one that fails counts, and after eight failures none passes (R432, R433, R436, R446, R447, R494, R495). The model's own choices in it:
log entries 3 and 89. -/
def Obligations.QueuesWindowsAndTokens : Prop :=
  ∀ (s : State) (q w : Fin 16) (v : W32),
    let i := q.val
    let old := (s.reg .hifQCfg 0 i).toNat
    let okSize := fun (n : Nat) => decide (2 ≤ n ∧ n ≤ 12)
    let sizes := okSize (bitsOf v 3 0) && okSize (bitsOf v 7 4)
    let lo := s.reg .hifT3Lo 0 w.val
    (hifOpen s = false → exec (.sqDoorbell q v) s = .next s ∧ exec (.cqDoorbell q v) s = .next s ∧ exec (.qCfgWrite q v) s = .next s ∧
      exec (.t3WindowWrite (Reg.addr .hifT3Lo 0 w.val) v) s = .next s ∧ exec (.t3WindowWrite (Reg.addr .hifT3Hi 0 w.val) v) s = .next s ∧
      exec .dbgNew s = .next s ∧ exec .dbgSubmit s = .next s) ∧
    (hifOpen s = true →
      (bitsOf v 11 0 < s.sqSize i → exec (.sqDoorbell q v) s = .next (s.setReg .hifSqDb 0 i (BitVec.ofNat 32 (bitsOf v 11 0)))) ∧
      (s.sqSize i ≤ bitsOf v 11 0 → exec (.sqDoorbell q v) s = .next (s.orReg .hifErr 0 0 4)) ∧
      (bitsOf v 11 0 < s.cqSize i → s.hif.held = [] → exec (.cqDoorbell q v) s = .next (s.setReg .hifCqDb 0 i (BitVec.ofNat 32 (bitsOf v 11 0)))) ∧
      (∀ c : Cpl, bitsOf v 11 0 < s.cqSize i → s.hif.held = [c] → c.q = i → natBit old 9 = true →
        ((s.queue i).cqTail + 1) % s.cqSize i ≠ bitsOf v 11 0 % s.cqSize i → ∃ t, exec (.cqDoorbell q v) s = .next t ∧
        Out.completion i (c.bytes (s.queue i).phase (s.queue i).sqHead) ∈ t.out ∧ t.hif.held = []) ∧
      (s.cqSize i ≤ bitsOf v 11 0 → exec (.cqDoorbell q v) s = .next (s.orReg .hifErr 0 0 4)) ∧
      (natBit old 9 = false → sizes = true → ∃ t, exec (.qCfgWrite q v) s = .next t ∧ t.fld .hifQCfg 0 i 9 0 = bitsOf v 9 0 ∧
        (natBit v.toNat 9 = true → t.queue i = {} ∧ t.reg .hifSqDb 0 i = 0 ∧ t.reg .hifCqDb 0 i = 0)) ∧
      (natBit old 9 = false → sizes = false → ∃ t, exec (.qCfgWrite q v) s = .next t ∧ natBit (t.reg .hifErr 0 0).toNat 4 = true ∧
        (okSize (bitsOf v 3 0) = false → t.fld .hifQCfg 0 i 3 0 = bitsOf (s.reg .hifQCfg 0 i) 3 0) ∧
        (okSize (bitsOf v 7 4) = false → t.fld .hifQCfg 0 i 7 4 = bitsOf (s.reg .hifQCfg 0 i) 7 4)) ∧
      (natBit old 9 = true → ∃ t, exec (.qCfgWrite q v) s = .next t ∧ t.fld .hifQCfg 0 i 7 0 = s.fld .hifQCfg 0 i 7 0 ∧
        t.fld .hifQCfg 0 i 9 8 = bitsOf v 9 8 ∧ (natBit v.toNat 9 = false → t.hif.held.all (fun c => c.q != i) = true)) ∧
      (s.anyProgram = true → exec (.t3WindowWrite (Reg.addr .hifT3Lo 0 w.val) v) s = .next (s.orReg .hifErr 0 0 8) ∧
        exec (.t3WindowWrite (Reg.addr .hifT3Hi 0 w.val) v) s = .next (s.orReg .hifErr 0 0 8)) ∧
      (s.anyProgram = false → exec (.t3WindowWrite (Reg.addr .hifT3Hi 0 w.val) v) s = .next (s.setReg .hifT3Hi 0 w.val v) ∧
        (12 ≤ bitsOf v 7 2 ∧ bitsOf v 7 2 ≤ 43 →
          exec (.t3WindowWrite (Reg.addr .hifT3Lo 0 w.val) v) s = .next (s.setReg .hifT3Lo 0 w.val (v &&& 0xFFFFF0FF#32))) ∧
        (bitsOf v 7 2 < 12 ∨ 43 < bitsOf v 7 2 →
          exec (.t3WindowWrite (Reg.addr .hifT3Lo 0 w.val) v) s = .next (s.setReg .hifT3Lo 0 w.val (putBits (v &&& 0xFFFFF0FF#32) 7 2 (bitsOf lo 7 2))))) ∧
      (∃ t, exec .dbgNew s = .next t ∧ t.nonce = (Config.entropy s.free).toNat ∧ t.hif.nonceValid = true ∧ t.free = s.free + 1 ∧ t.ctxs = s.ctxs) ∧
      (∃ t, exec .dbgSubmit s = .next t ∧ t.nonce = 0 ∧ t.hif.nonceValid = false ∧ t.mem = s.mem ∧ t.ctxs = s.ctxs ∧
        let fails := s.fld .hifDbgStatus 0 0 11 8
        (8 ≤ fails → t.fld .hifDbgStatus 0 0 6 4 = 6 ∧ t.fld .hifDbgStatus 0 0 3 0 = s.fld .hifDbgStatus 0 0 3 0) ∧
        (fails < 8 → s.tokenFails = [] → t.fld .hifDbgStatus 0 0 6 4 = 1 ∧ t.fld .hifDbgStatus 0 0 11 8 = fails ∧
          BitVec.ofNat 4 (t.fld .hifDbgStatus 0 0 3 0) = (BitVec.ofNat 4 (s.fld .hifDbgStatus 0 0 3 0) ||| BitVec.ofNat 4 (leField s.tokenBytes 4 7))) ∧
        (fails < 8 → s.tokenFails ≠ [] → t.fld .hifDbgStatus 0 0 6 4 ∈ s.tokenFails ∧ t.fld .hifDbgStatus 0 0 11 8 = fails + 1 ∧
          t.fld .hifDbgStatus 0 0 3 0 = s.fld .hifDbgStatus 0 0 3 0)))

/-- A write of BAR0 of 8 aligned bytes is two of 4; one of another size or place sets BAD_ACCESS, one at a reserved offset does nothing, one that
starts an operation is that command, and any other sets the RW and RWS bits, the RWL bits only while its block is unlocked, and clears the W1C
bits written 1. Locks answer their key; seeds change only while nothing uses them; an event that is unmasked while pending sends its message; a
debug read of an accumulator shows it only to a context in debug mode, and zero with DBG_BUSY while the array has an instruction in flight (R7,
R80, R122, R161, R484 to R486, R489). The model's own choices in it: log entries 15 and 16. -/
def Obligations.RegistersAreWrittenByTheirCodes : Prop :=
  ∀ (s : State) (off size u n : Nat) (vv : W64) (r : Reg) (l : Lock) (q : Fin 16) (p : Fin 4) (e k : Fin 48) (x : Fin 4) (d : WeldId) (c : CoreId)
      (check hi : Bool),
    let v : W32 := vv.extractLsb' 0 32
    let old := s.reg r u n
    let m := r.info.rw ||| r.info.rws ||| (if s.lockOpen r.info.blk u then r.info.rwl else 0)
    let seed : Reg := if check then (if hi then .krmCtxChkHi else .krmCtxChkLo) else (if hi then .krmCtxSeedHi else .krmCtxSeedLo)
    let commands : List (Reg × Nat × Nat × Instr) :=
      [(.timSetHi, 0, 0, .timSetWrite v), (.memVwrCtrl, p.val, q.val, .vwrArm p q v), (.hifQCfg, 0, q.val, .qCfgWrite q v),
       (.hifSqDb, 0, q.val, .sqDoorbell q v), (.hifCqDb, 0, q.val, .cqDoorbell q v), (.hifT3Lo, 0, q.val, .t3WindowWrite (Reg.addr .hifT3Lo 0 q.val) v),
       (.hifT3Hi, 0, q.val, .t3WindowWrite (Reg.addr .hifT3Hi 0 q.val) v), (.indEditHi, e.val, 0, .indEditSubmit e v),
       (.umbPartPwr, 0, 0, .umbPartPwrWrite v), (.lnkCrdAlloc, k.val, 0, .lnkCrdAllocWrite k v), (.wldProgData, d.key, 0, .wldProgDataWrite d v),
       (.gctEvtMask, 0, 0, .evtMaskWrite v), (.krmCtxSeedLo, 0, x.val, .krmCtxSeedWrite x false false v),
       (.krmCtxSeedHi, 0, x.val, .krmCtxSeedWrite x false true v), (.krmCtxChkLo, 0, x.val, .krmCtxSeedWrite x true false v),
       (.krmCtxChkHi, 0, x.val, .krmCtxSeedWrite x true true v), (.krmVwSeedHi, 0, 0, .vwSeedWrite v)]
    (¬ (size = 4 ∧ off % 4 = 0) → ¬ (size = 8 ∧ off % 8 = 0) → exec (.registerWrite off { size := size, v := vv }) s = .next (s.orReg .gctErr 0 0 1)) ∧
    (off % 8 = 0 → ∃ t, exec (.registerWrite off { size := 4, v := vv }) s = .next t ∧
      exec (.registerWrite off { size := 8, v := vv }) s = exec (.registerWrite (off + 4) { size := 4, v := (vv >>> 32) }) t) ∧
    (off % 4 = 0 → Lock.ofOffset off = none → (off < 0x21000 ∨ 0x21400 ≤ off) →
      (Reg.ofOffset off = none → exec (.registerWrite off { size := 4, v := vv }) s = .next s) ∧
      (Reg.ofOffset off = some (r, u, n) → startsMore r = false →
        (s.blkOpen r.info.blk u = false ∨ s.writeIgnored r u n v = true → exec (.registerWrite off { size := 4, v := vv }) s = .next s) ∧
        (s.blkOpen r.info.blk u = true → s.writeIgnored r u n v = false → exec (.registerWrite off { size := 4, v := vv }) s =
          .next (s.setReg r u n ((old &&& ~~~m &&& ~~~(v &&& r.info.w1c)) ||| (legalWrite r old v &&& m)))))) ∧
    (∀ z, z ∈ commands → exec (.registerWrite (z.1.addr z.2.1 z.2.2.1) { size := 4, v := vv }) s = exec z.2.2.2 s) ∧
    (Lock.ofOffset off = some l → exec (.registerWrite off { size := 4, v := vv }) s = exec (.lockWrite off v) s ∧
      (s.lockAnswers l = false → exec (.lockWrite off v) s = .next s) ∧
      (s.lockAnswers l = true → ∃ t, exec (.lockWrite off v) s = .next t ∧ t.mem = s.mem ∧
        (v = 0x4C590001 → AMap.get false l.key t.unlocked = true) ∧ (v = 1 → AMap.get false l.key t.unlocked = false) ∧
        (v ≠ 0x4C590001 → v ≠ 1 → t.unlocked = s.unlocked ∧ natBit (t.reg .gctErr 0 0).toNat 1 = true))) ∧
    (∃ t, exec (.evtMaskWrite v) s = .next t ∧ t.mem = s.mem ∧ (s.blkOpen .gct 0 = false → t = s) ∧
      (s.blkOpen .gct 0 = true → t.reg .gctEvtMask 0 0 = v &&& 0x3FF#32 ∧ t.reg .gctEvtPend 0 0 = s.reg .gctEvtPend 0 0 ∧
        ∀ i, i < 10 → natBit (s.reg .gctEvtMask 0 0).toNat i = true → natBit v.toNat i = false → natBit (s.reg .gctEvtPend 0 0).toNat i = true →
          natBit (s.reg .gctCtrl 0 0).toNat 0 = true → (AMap.get (0, 0, true) (16 + i) s.hif.msix).2.2 = false →
          Out.msix (16 + i) (AMap.get (0, 0, true) (16 + i) s.hif.msix).1 (AMap.get (0, 0, true) (16 + i) s.hif.msix).2.1 ∈ t.out)) ∧
    (krmOpen s = false → exec (.krmCtxSeedWrite x check hi v) s = .next s ∧ exec (.vwSeedWrite v) s = .next s) ∧
    (krmOpen s = true →
      ((s.ctx x.val).st = .free → exec (.krmCtxSeedWrite x check hi v) s = .next (s.setReg seed 0 x.val v)) ∧
      ((s.ctx x.val).st ≠ .free → exec (.krmCtxSeedWrite x check hi v) s = .next (s.orReg .krmErr 0 0 1)) ∧
      (s.anyArmed = true → exec (.vwSeedWrite v) s = .next (s.orReg .krmErr 0 0 2)) ∧
      (s.anyArmed = false → s.lockOpen .krm 0 = false → exec (.vwSeedWrite v) s = .next s) ∧
      (s.anyArmed = false → s.lockOpen .krm 0 = true → ∃ t, exec (.vwSeedWrite v) s = .next t ∧ t.reg .krmVwSeedHi 0 0 = v ∧
        natBit (t.reg .krmStatus 0 0).toNat 3 = false) ∧
      (s.anyArmed = true → exec (.registerWrite (Reg.addr .krmVwSeedLo 0 0) { size := 4, v := vv }) s = .next (s.orReg .krmErr 0 0 2)) ∧
      (s.anyArmed = false → exec (.registerWrite (Reg.addr .krmVwSeedLo 0 0) { size := 4, v := vv }) s =
        .next (if s.lockOpen .krm 0 then s.setReg .krmVwSeedLo 0 0 v else s))) ∧
    (natBit (s.reg .krmStatus 0 0).toNat 3 = false → ∃ t, exec .vwSeedCopyDone s = .next t ∧ natBit (t.reg .krmStatus 0 0).toNat 3 = true ∧
      ∀ i, i < 20 → (t.stack i).vwSeed = BitVec.ofNat 64 (s.reg64 .krmVwSeedLo .krmVwSeedHi 0 0)) ∧
    (natBit (s.reg .krmStatus 0 0).toNat 3 = true → exec .vwSeedCopyDone s = .next s) ∧
    (s.blkOpen .core c.key = false → exec (.woaAccDataRead c) s = .next (s.emit (.regRead 0)) ∧
      exec (.madAccDataRead c) s = .next (s.emit (.regRead 0))) ∧
    (s.blkOpen .core c.key = true →
      let busy := fun (a : Nat) => s.debugCore c.key && (s.core c.key).flight.contains a
      let wi := s.reg .woaAccIdx c.key 0
      let mi := s.reg .madAccIdx c.key 0
      let wv := if s.debugCore c.key then (AMap.get (0, 0) (8192 * bitsOf wi 13 13 + bitsOf wi 12 0) (s.core c.key).woaAcc).1 else 0
      let mv := if s.debugCore c.key then (AMap.get (0, 0) (4096 * bitsOf mi 13 12 + bitsOf mi 11 0) (s.core c.key).madAcc).1 else 0
      (∃ t, exec (.woaAccDataRead c) s = .next t ∧ t.out = s.out ++ [.regRead (if busy (bitsOf wi 13 13) then 0 else wv)] ∧ t.cores = s.cores ∧
        (busy (bitsOf wi 13 13) = true → natBit (t.reg .woaErr c.key 0).toNat 4 = true) ∧
        t.fld .woaAccIdx c.key 0 12 0 = if natBit wi.toNat 14 then (bitsOf wi 12 0 + 1) % 8192 else bitsOf wi 12 0) ∧
      (∃ t, exec (.madAccDataRead c) s = .next t ∧ t.out = s.out ++ [.regRead (if busy (2 + bitsOf mi 13 12) then 0 else mv)] ∧ t.cores = s.cores ∧
        (busy (2 + bitsOf mi 13 12) = true → natBit (t.reg .madErr c.key 0).toNat 8 = true) ∧
        t.fld .madAccIdx c.key 0 11 0 = if natBit mi.toNat 14 then (bitsOf mi 11 0 + 1) % 4096 else bitsOf mi 11 0))

/-- The block refuses no command and stops at one only: a slot of a core that the part does not have. A slot with a reserved bit set raises
ILLEGAL_INSTRUCTION, one with a poisoned predicate POISON_CONSUMED or, where another of its fields is illegal, ILLEGAL_INSTRUCTION: outside an
epoch the context drains with that status, and GCT_CTX_FAULT names the word, the core and the time; in an epoch a reserved bit aborts the epoch,
and the core stands at its restart address with the registers of its snapshot. A slot that others follow is collected. A slot whose predicate is
off, of a kind other than V, whose fields are legal has no effect but to end its wide instruction. A slot of a core that does not issue changes
nothing (R3, R252, R258, R275, R276, R300, R301, R382, R490). The model's own choices in it: log entries 4 and 30. -/
def Obligations.NothingIsRefusedAndStatusesEndContexts : Prop :=
  ∀ (i : Instr) (s : State),
    (safe i s = true → completes (exec i s) = true) ∧
    (∀ h, i.issueOf = some h → s.coreState h.k.key = .fused → exec i s = .fault .noSuchUnit) ∧
    (∀ h, i.issueOf = some h → s.coreState h.k.key ≠ .fused → s.issuer h.k.key = none → exec i s = .next s) ∧
    (∀ h x, i.issueOf = some h → runs s h.k x = true → h.more = true →
      exec i s = .next (s.setCore h.k.key { s.core h.k.key with word := [i] })) ∧
    (∀ h x, i.issueOf = some h → runs s h.k x = true → h.more = false → h.rsv = true →
      (noEpoch s h.k = true → ∃ t, exec i s = .next t ∧ endsWith s t h.k x stIllegal) ∧
      (∀ e, (s.core h.k.key).epochs = [e] → (s.core h.k.key).cur = some e.tag → ∃ t, exec i s = .next t ∧
        (t.ctx x).st = .running ∧ (t.ctx x).status = (s.ctx x).status ∧ (t.core h.k.key).pc = e.restart ∧ (t.core h.k.key).epochs = [] ∧
        (t.core h.k.key).s = e.snap.s ∧ (t.core h.k.key).p = e.snap.p ∧ (t.core h.k.key).level = e.snap.level)) ∧
    (∀ h x, i.issueOf = some h → runs s h.k x = true → h.more = false → h.rsv = false → ((s.core h.k.key).preg h.pred.val).2 = true →
      noEpoch s h.k = true → ∃ t status, exec i s = .next t ∧ endsWith s t h.k x status ∧ (status = stPoison ∨ status = stIllegal)) ∧
    (∀ h x, i.issueOf = some h → lanewise i = false → runs s h.k x = true → h.more = false → predIs s h false = true → noEpoch s h.k = true →
      exec i s = .next (wrote s h [] none) ∨ ∃ t, exec i s = .next t ∧ endsWith s t h.k x stIllegal) ∧
    (∀ k p neg x, runs s k x = true → ((s.core k.key).preg p.val).2 = true → noEpoch s k = true → ∃ t,
      exec (.add { i := hdr k p neg }) s = .next t ∧ endsWith s t k x stPoison)

/-- The slots of one wide instruction act as one. Each is collected in place of one of its kind, until the last is presented. They read the
registers as those stand before it, and a branch beside a V slot moves the PC. Where one is refused, or two write one register, none takes
effect; where one waits, all wait; a status found at execution ends the context after the effects of the others, and of two statuses the lower is
reported and the other recorded. A word that fetches with an uncorrectable error raises POISON_CONSUMED. The sequencer issues the word of
instruction memory at its PC, of which slot n spells the bits 128n + 127 to 128n: a zero word does nothing, the WMM of R289 is that WMM, and an
unlisted opcode is illegal (R244, R245, R253, R273 to R276, R281, R289, R301, R380). -/
def Obligations.WideInstructionsActAsOne : Prop :=
  ∀ (s : State) (k : CoreId) (x : Nat) (d a b vd sa va lane : Fin 64) (p : Fin 16) (t : BitVec 12) (ch : Fin 16),
    let n := k.key
    let c := s.core n
    let fetched := !c.badWords.contains c.pc.toNat
    let h : Issue := { k := k }
    let add := Instr.add { i := { h with more := true }, rd := d, ra := a, rb := b }
    let bad := Instr.add { i := { h with more := true, rsv := true }, rd := d, ra := a, rb := b }
    let jump := Instr.jmp { i := { h with more := true }, tgt := t }
    let bcast := Instr.vbcast { i := h, vd := vd, sa := sa }
    let sum : W64 × Bool := ((sr s k a).1 + (sr s k b).1, (sr s k a).2 || (sr s k b).2)
    let lanes : List Lane := List.replicate 64 ((sr s k sa).1.setWidth 32, (sr s k sa).2)
    let after := fun (ws : List RegW) (g : Option (BitVec 12)) => (engine s k).setCore n (ends ((engine s k).core n) ws g)
    let kept := fun (u : State) => ∀ r, (u.core n).sreg r = c.sreg r ∧ (u.core n).vreg r = c.vreg r
    issues s k x = true →
      (c.word = [] → exec add s = .next (s.setCore n { c with word := [add] })) ∧
      (c.word = [add] → exec jump s = .next (s.setCore n { c with word := [jump] })) ∧
      (fetched = true → c.word = [add] → exec bcast s = .next (after [.s d.val sum.1 sum.2, .v vd.val lanes] none)) ∧
      (fetched = true → c.word = [jump] → exec bcast s = .next (after [.v vd.val lanes] (some t))) ∧
      (fetched = true → c.word = [add] → noEpoch s k = true →
        (∃ u, exec (.vbcast { i := { h with rsv := true }, vd := vd, sa := sa }) s = .next u ∧ endsWith s u k x stIllegal ∧ kept u) ∧
        (d ≠ 0 → ∃ u, exec (.vext { i := { h with fl := true }, sb := d, va := va, lane := lane }) s = .next u ∧ endsWith s u k x stIllegal ∧
          kept u) ∧
        (((s.core n).preg p.val).2 = true → d ≠ 0 → ∃ u, exec (.vbcast { i := { h with pred := p }, vd := vd, sa := sa }) s = .next u ∧
          endsWith s u k x stPoison ∧ (u.core n).sreg d.val = sum ∧ (u.core n).vreg vd.val = c.vreg vd.val) ∧
        (c.rel = [] → c.wait = .none → s.eventDone x ch.val 0 = false → exec (.lwait { i := h, ch := ch, ev := 0 }) s =
          .next (s.setCore n { c with wait := .lwait 0 ch.val 0 }))) ∧
      (fetched = true → c.word = [bad] → noEpoch s k = true → (sr s k sa).2 = false → (sr s k sa).1.toNat % 2 = 1 → ∃ u,
        exec (.vld { i := h, vd := vd, sa := sa }) s = .next u ∧ endsWith s u k x stIllegal ∧ (u.ctx x).fault.other = stAlign ∧ kept u) ∧
      (fetched = false → noEpoch s k = true → ∃ u, exec bcast s = .next u ∧ endsWith s u k x stPoison ∧ kept u) ∧
      (fetched = true → c.word = [] →
        let im := AMap.get 0 c.pc.toNat c.imem
        let wmm := Instr.wmm { i := h, td := 3, start := true, g := 1 }
        (im = 0 → issueAt k s = wrote s h [] none) ∧
        (im = BitVec.ofNat 1024 (0x0000000808C00002 * 2 ^ (128 * 3)) → exec wmm s = .next (issueAt k s)) ∧
        (im = 0xFF → noEpoch s k = true → endsWith s (issueAt k s) k x stIllegal))

/-- One step of the block with a command at the front of its queue is that command on the state with the queue's rest; with none waiting, device
time advances: by 40 ns while every fabric clock stands still, else by 1 ns at the corrected rate, and not at all in power-on reset; then what
happens of itself happens, if anything does (the order of commands and the tick are the model's: log entries 2 and 130; R302, R303, R307). -/
def Obligations.StepRunsTheFrontCommand : Prop :=
  (∀ (s : State) (c : Instr) (rest : List Instr), step { s with pending := c :: rest } = exec c { s with pending := rest }) ∧
  (∀ (s : State), s.pending = [] →
    let u := { s with free := s.free + 1, tim := { s.tim with now := s.tim.now + (if s.clocksStopped then 40 else 1) } }
    (s.mgmt.powerOn = true → step s = .next s) ∧
    (s.mgmt.powerOn = false → s.calib = [] → s.clocksStopped = true ∨ (s.tim.rate = 0 ∧ s.tim.frac < 2 ^ 32) →
      step s = .next (match Config.happens s.free with
        | none => u
        | some h => u.happen h)) ∧
    (∀ h, ∃ t, step s = .next t ∧ (s.mgmt.powerOn = false → Config.happens s.free = some h → t = (s.advance.serveCalib.draw).happen h)))

/-- Every step keeps both memories in their canonical form, the part's variant and serial number, and the order of the commands: what waits after
a step is what waited behind the command that it took (log entries 2 and 8). -/
def Obligations.EveryStepKeepsTheInvariant : Prop :=
  ∀ (s t : State), canonical s → step s = .next t → canonical t ∧ t.variant = s.variant ∧ t.serial = s.serial ∧ t.pending = s.pending.tail

/-- The state right after reset: memories canonical and empty, nothing waits, device time 0, every slot FREE, STAGE 0 and not READY, KIND 1,
every lock locked, every link DISABLED, every partition IDLE at k = 16, every register of BAR0 at its reset value, and 96 cores of each partition
in service with 4 SPARE; on the LXV4-352-15-L 88 with 4 SPARE and 8 fused off, as log entry 5 has them (R2, R5, R22, R302, R388, R448, R486,
R492). The model's own choices in it: log entries 5, 6 and 8. -/
def Obligations.ResetStateIsAsSpecified : Prop :=
  let s := State.reset
  canonical s ∧ s.mem = {} ∧ s.host = {} ∧ s.pending = [] ∧ s.tim.now = 0 ∧ s.tim.state = 0 ∧ s.stage = 0 ∧
  natBit (s.reg .hifStatus 0 0).toNat 0 = false ∧ kindOf s = 1 ∧ (∀ l, AMap.get false l s.unlocked = false) ∧
  (∀ x, (s.ctx x).st = .free ∧ (s.ctx x).status = 0 ∧ (s.ctx x).admitted = none ∧ (s.ctx x).running = none) ∧
  (∀ n, n < 48 → s.linkState n = 0) ∧ (∀ r u n, s.reg r u n = resetOf s.variant r) ∧
  (∀ p, (s.part p).pwr = .idle ∧ (s.part p).kTherm = 16 ∧ (s.part p).kOchre = 16 ∧ (s.part p).offline = false) ∧
  (∀ p i, p < 4 → i < 100 → s.coreState (100 * p + i) = if i < 96 then .inService else .spare) ∧
  (∀ n r, (s.core n).sreg r = (0, false)) ∧ (∀ n r, r ≠ 0 → (s.core n).preg r = (0, false)) ∧ (∀ n, (s.core n).pc = 0) ∧
  s.mgmt.powerOn = true ∧ s.och.risk = 0 ∧ s.hif.linkUp = false ∧
  (∀ p, p < 4 → let q := State.resetOn .l352
    (q.part p).logical.length = 88 ∧ q.countIn p .fused = 8 ∧ q.countIn p .spare = 4 ∧ q.countIn p .inService = 88 ∧
    (∀ i, i ∈ (q.part p).logical → q.coreState (100 * p + i) = .inService))
end

