-- ==== Sys2Proof/Laws/AMap.lean ====
section
/-! SUPPORT. Sparse maps: reading after writing, and the canonical form kept by every operation. -/

namespace Sys2Proof.Machine

variable {α : Type}

@[simp] theorem AMap.get_nil (d : α) (k : Nat) : AMap.get d k [] = d := rfl

theorem AMap.get_erase_self (d : α) (k : Nat) (m : AMap α) : AMap.get d k (AMap.erase k m) = d := by
  induction m with
  | nil => rfl
  | cons e t ih =>
    obtain ⟨a, v⟩ := e
    simp only [AMap.erase]
    split
    · exact ih
    · next h => simp only [AMap.get, h, if_false]; exact ih

theorem AMap.get_erase_ne (d : α) {k j : Nat} (h : j ≠ k) (m : AMap α) : AMap.get d j (AMap.erase k m) = AMap.get d j m := by
  induction m with
  | nil => rfl
  | cons e t ih =>
    obtain ⟨a, v⟩ := e
    simp only [AMap.erase]
    split
    · next ha =>
      subst ha
      simp only [AMap.get, if_neg (Ne.symm h)]
      exact ih
    · simp only [AMap.get, ih]

theorem AMap.get_insert_erase_self (d : α) (k : Nat) (v : α) (m : AMap α) :
    AMap.get d k (AMap.insert k v (AMap.erase k m)) = v := by
  induction m with
  | nil => simp [AMap.erase, AMap.insert, AMap.get]
  | cons e t ih =>
    obtain ⟨a, w⟩ := e
    simp only [AMap.erase]
    split
    · exact ih
    · next h =>
      simp only [AMap.insert]
      split
      · simp [AMap.get]
      · simp only [AMap.get, h, if_false]; exact ih

theorem AMap.get_insert_ne (d : α) {k j : Nat} (h : j ≠ k) (v : α) (m : AMap α) :
    AMap.get d j (AMap.insert k v m) = AMap.get d j m := by
  induction m with
  | nil => simp [AMap.insert, AMap.get, Ne.symm h]
  | cons e t ih =>
    obtain ⟨a, w⟩ := e
    simp only [AMap.insert]
    split
    · simp [AMap.get, Ne.symm h]
    · simp only [AMap.get, ih]

/-- Reading the key that was written gives what was written. -/
@[simp] theorem AMap.get_put_self [DecidableEq α] (d : α) (k : Nat) (v : α) (m : AMap α) :
    AMap.get d k (AMap.put d k v m) = v := by
  unfold AMap.put
  split
  · next h => rw [AMap.get_erase_self, h]
  · exact AMap.get_insert_erase_self d k v m

/-- A write leaves every other key alone. -/
theorem AMap.get_put_ne [DecidableEq α] (d e : α) {k j : Nat} (h : j ≠ k) (v : α) (m : AMap α) :
    AMap.get d j (AMap.put e k v m) = AMap.get d j m := by
  unfold AMap.put
  split
  · exact AMap.get_erase_ne d h m
  · rw [AMap.get_insert_ne d h, AMap.get_erase_ne d h]

theorem AMap.get_put [DecidableEq α] (d : α) (k j : Nat) (v : α) (m : AMap α) :
    AMap.get d j (AMap.put d k v m) = if j = k then v else AMap.get d j m := by
  split
  · next h => rw [h, AMap.get_put_self]
  · next h => exact AMap.get_put_ne d d h v m

theorem AMap.erase_erase (k : Nat) (m : AMap α) : AMap.erase k (AMap.erase k m) = AMap.erase k m := by
  induction m with
  | nil => rfl
  | cons e t ih =>
    obtain ⟨a, w⟩ := e
    simp only [AMap.erase]
    split
    · exact ih
    · next h => simp only [AMap.erase, h, if_false, ih]

theorem AMap.erase_insert_erase (k : Nat) (v : α) (m : AMap α) :
    AMap.erase k (AMap.insert k v (AMap.erase k m)) = AMap.erase k m := by
  induction m with
  | nil => simp [AMap.erase, AMap.insert]
  | cons e t ih =>
    obtain ⟨a, w⟩ := e
    simp only [AMap.erase]
    split
    · exact ih
    · next h =>
      simp only [AMap.insert]
      split
      · simp [AMap.erase, h, AMap.erase_erase]
      · simp only [AMap.erase, h, if_false, ih]

/-- The last of two writes of a key is the one that counts. -/
@[simp] theorem AMap.put_put [DecidableEq α] (d : α) (k : Nat) (v w : α) (m : AMap α) :
    AMap.put d k v (AMap.put d k w m) = AMap.put d k v m := by
  have h : AMap.erase k (AMap.put d k w m) = AMap.erase k m := by
    unfold AMap.put
    split
    · exact AMap.erase_erase k m
    · exact AMap.erase_insert_erase k w m
  have e : ∀ x : AMap α, AMap.put d k v x = if v = d then AMap.erase k x else AMap.insert k v (AMap.erase k x) := fun _ => rfl
  rw [e, h, e]

theorem AMap.above_mono {b c : Nat} (h : c ≤ b) {m : AMap α} (hm : AMap.above b m = true) : AMap.above c m = true := by
  induction m with
  | nil => rfl
  | cons e t ih =>
    obtain ⟨a, v⟩ := e
    simp only [AMap.above, Bool.and_eq_true, decide_eq_true_eq] at hm ⊢
    exact ⟨by omega, ih hm.2⟩

theorem AMap.above_erase {b : Nat} (k : Nat) {m : AMap α} (hm : AMap.above b m = true) :
    AMap.above b (AMap.erase k m) = true := by
  induction m with
  | nil => rfl
  | cons e t ih =>
    obtain ⟨a, v⟩ := e
    simp only [AMap.above, Bool.and_eq_true, decide_eq_true_eq] at hm
    simp only [AMap.erase]
    split
    · exact ih hm.2
    · simp only [AMap.above, Bool.and_eq_true, decide_eq_true_eq]
      exact ⟨hm.1, ih hm.2⟩

theorem AMap.above_insert {b k : Nat} (h : b < k) (v : α) {m : AMap α} (hm : AMap.above b m = true) :
    AMap.above b (AMap.insert k v m) = true := by
  induction m with
  | nil => simp [AMap.insert, AMap.above, h]
  | cons e t ih =>
    obtain ⟨a, w⟩ := e
    simp only [AMap.insert]
    simp only [AMap.above, Bool.and_eq_true, decide_eq_true_eq] at hm
    split
    · simp only [AMap.above, Bool.and_eq_true, decide_eq_true_eq]
      exact ⟨h, hm⟩
    · simp only [AMap.above, Bool.and_eq_true, decide_eq_true_eq]
      exact ⟨hm.1, ih hm.2⟩

theorem AMap.wf_erase [DecidableEq α] (d : α) (k : Nat) {m : AMap α} (hm : AMap.wf d m = true) :
    AMap.wf d (AMap.erase k m) = true := by
  induction m with
  | nil => rfl
  | cons e t ih =>
    obtain ⟨a, v⟩ := e
    simp only [AMap.wf, Bool.and_eq_true, decide_eq_true_eq] at hm
    simp only [AMap.erase]
    split
    · exact ih hm.2
    · simp only [AMap.wf, Bool.and_eq_true, decide_eq_true_eq]
      exact ⟨⟨hm.1.1, AMap.above_erase k hm.1.2⟩, ih hm.2⟩

theorem AMap.wf_insert_erase [DecidableEq α] (d : α) (k : Nat) {v : α} (hv : v ≠ d) {m : AMap α} (hm : AMap.wf d m = true) :
    AMap.wf d (AMap.insert k v (AMap.erase k m)) = true := by
  induction m with
  | nil => simp [AMap.erase, AMap.insert, AMap.wf, AMap.above, hv]
  | cons e t ih =>
    obtain ⟨a, w⟩ := e
    have h0 := hm
    simp only [AMap.wf, Bool.and_eq_true, decide_eq_true_eq] at hm
    simp only [AMap.erase]
    split
    · exact ih hm.2
    · next hne =>
      simp only [AMap.insert]
      split
      · next hk =>
        simp only [AMap.wf, AMap.above, Bool.and_eq_true, decide_eq_true_eq]
        exact ⟨⟨hv, hk, AMap.above_mono (Nat.le_of_lt hk) (AMap.above_erase k hm.1.2)⟩,
          ⟨hm.1.1, AMap.above_erase k hm.1.2⟩, AMap.wf_erase d k hm.2⟩
      · next hk =>
        simp only [AMap.wf, Bool.and_eq_true, decide_eq_true_eq]
        exact ⟨⟨hm.1.1, AMap.above_insert (by omega) v (AMap.above_erase k hm.1.2)⟩, ih hm.2⟩

/-- A write keeps the canonical form. -/
theorem AMap.wf_put [DecidableEq α] (d : α) (k : Nat) (v : α) {m : AMap α} (hm : AMap.wf d m = true) :
    AMap.wf d (AMap.put d k v m) = true := by
  unfold AMap.put
  split
  · exact AMap.wf_erase d k hm
  · next h => exact AMap.wf_insert_erase d k h hm

/-- Dropping entries keeps the canonical form. -/
theorem AMap.wf_filter [DecidableEq α] (d : α) (p : Nat × α → Bool) {m : AMap α} (hm : AMap.wf d m = true) :
    AMap.wf d (m.filter p) = true := by
  have ha : ∀ (b : Nat) (l : AMap α), AMap.above b l = true → AMap.above b (l.filter p) = true := by
    intro b l
    induction l with
    | nil => exact id
    | cons e t ih =>
      intro h
      simp only [AMap.above, Bool.and_eq_true, decide_eq_true_eq] at h
      simp only [List.filter]
      split
      · simp only [AMap.above, Bool.and_eq_true, decide_eq_true_eq]
        exact ⟨h.1, ih h.2⟩
      · exact ih h.2
  induction m with
  | nil => rfl
  | cons e t ih =>
    simp only [AMap.wf, Bool.and_eq_true, decide_eq_true_eq] at hm
    simp only [List.filter]
    split
    · simp only [AMap.wf, Bool.and_eq_true, decide_eq_true_eq]
      exact ⟨⟨hm.1.1, ha _ _ hm.1.2⟩, ih hm.2⟩
    · exact ih hm.2

/-- A key at or below the bound of a map reads as an unlisted one. -/
theorem AMap.get_of_above (d : α) {b k : Nat} (h : k ≤ b) {m : AMap α} (hm : AMap.above b m = true) : AMap.get d k m = d := by
  induction m with
  | nil => rfl
  | cons e t ih =>
    obtain ⟨a, v⟩ := e
    simp only [AMap.above, Bool.and_eq_true, decide_eq_true_eq] at hm
    simp only [AMap.get, if_neg (show ¬ a = k by omega)]
    exact ih hm.2

end Sys2Proof.Machine
end

