-- ==== Sys2Proof/Laws/State.lean ====
section
/-! SUPPORT. What each update of the state does to each of its fields, and what the units read after it. -/

namespace Sys2Proof.Machine

variable (s : State)

@[simp] theorem State.setCore_pending (n : Nat) (c : Core) : (s.setCore n c).pending = s.pending := rfl
@[simp] theorem State.setCore_free (n : Nat) (c : Core) : (s.setCore n c).free = s.free := rfl
@[simp] theorem State.setCore_out (n : Nat) (c : Core) : (s.setCore n c).out = s.out := rfl
@[simp] theorem State.setCore_variant (n : Nat) (c : Core) : (s.setCore n c).variant = s.variant := rfl
@[simp] theorem State.setCore_serial (n : Nat) (c : Core) : (s.setCore n c).serial = s.serial := rfl
@[simp] theorem State.setCore_tim (n : Nat) (c : Core) : (s.setCore n c).tim = s.tim := rfl
@[simp] theorem State.setCore_ctxs (n : Nat) (c : Core) : (s.setCore n c).ctxs = s.ctxs := rfl
@[simp] theorem State.setCore_cores (n : Nat) (c : Core) : (s.setCore n c).cores = AMap.put {} n c s.cores := rfl
@[simp] theorem State.setCore_parts (n : Nat) (c : Core) : (s.setCore n c).parts = s.parts := rfl
@[simp] theorem State.setCore_mem (n : Nat) (c : Core) : (s.setCore n c).mem = s.mem := rfl
@[simp] theorem State.setCore_host (n : Nat) (c : Core) : (s.setCore n c).host = s.host := rfl
@[simp] theorem State.setCore_hbms (n : Nat) (c : Core) : (s.setCore n c).hbms = s.hbms := rfl
@[simp] theorem State.setCore_inds (n : Nat) (c : Core) : (s.setCore n c).inds = s.inds := rfl
@[simp] theorem State.setCore_links (n : Nat) (c : Core) : (s.setCore n c).links = s.links := rfl
@[simp] theorem State.setCore_welds (n : Nat) (c : Core) : (s.setCore n c).welds = s.welds := rfl
@[simp] theorem State.setCore_sep (n : Nat) (c : Core) : (s.setCore n c).sep = s.sep := rfl
@[simp] theorem State.setCore_och (n : Nat) (c : Core) : (s.setCore n c).och = s.och := rfl
@[simp] theorem State.setCore_hif (n : Nat) (c : Core) : (s.setCore n c).hif = s.hif := rfl
@[simp] theorem State.setCore_mgmt (n : Nat) (c : Core) : (s.setCore n c).mgmt = s.mgmt := rfl
@[simp] theorem State.setCore_pwr (n : Nat) (c : Core) : (s.setCore n c).pwr = s.pwr := rfl
@[simp] theorem State.setCore_regs (n : Nat) (c : Core) : (s.setCore n c).regs = s.regs := rfl
@[simp] theorem State.setCore_latched (n : Nat) (c : Core) : (s.setCore n c).latched = s.latched := rfl
@[simp] theorem State.setCore_evals (n : Nat) (c : Core) : (s.setCore n c).evals = s.evals := rfl
@[simp] theorem State.setCore_unlocked (n : Nat) (c : Core) : (s.setCore n c).unlocked = s.unlocked := rfl
@[simp] theorem State.setCore_calib (n : Nat) (c : Core) : (s.setCore n c).calib = s.calib := rfl
@[simp] theorem State.setCore_away (n : Nat) (c : Core) : (s.setCore n c).away = s.away := rfl
@[simp] theorem State.setCore_images (n : Nat) (c : Core) : (s.setCore n c).images = s.images := rfl
@[simp] theorem State.setCore_headless (n : Nat) (c : Core) : (s.setCore n c).headless = s.headless := rfl
@[simp] theorem State.setCtx_pending (x : Nat) (c : Ctx) : (s.setCtx x c).pending = s.pending := rfl
@[simp] theorem State.setCtx_free (x : Nat) (c : Ctx) : (s.setCtx x c).free = s.free := rfl
@[simp] theorem State.setCtx_out (x : Nat) (c : Ctx) : (s.setCtx x c).out = s.out := rfl
@[simp] theorem State.setCtx_variant (x : Nat) (c : Ctx) : (s.setCtx x c).variant = s.variant := rfl
@[simp] theorem State.setCtx_serial (x : Nat) (c : Ctx) : (s.setCtx x c).serial = s.serial := rfl
@[simp] theorem State.setCtx_tim (x : Nat) (c : Ctx) : (s.setCtx x c).tim = s.tim := rfl
@[simp] theorem State.setCtx_ctxs (x : Nat) (c : Ctx) : (s.setCtx x c).ctxs = AMap.put {} x c s.ctxs := rfl
@[simp] theorem State.setCtx_cores (x : Nat) (c : Ctx) : (s.setCtx x c).cores = s.cores := rfl
@[simp] theorem State.setCtx_parts (x : Nat) (c : Ctx) : (s.setCtx x c).parts = s.parts := rfl
@[simp] theorem State.setCtx_mem (x : Nat) (c : Ctx) : (s.setCtx x c).mem = s.mem := rfl
@[simp] theorem State.setCtx_host (x : Nat) (c : Ctx) : (s.setCtx x c).host = s.host := rfl
@[simp] theorem State.setCtx_hbms (x : Nat) (c : Ctx) : (s.setCtx x c).hbms = s.hbms := rfl
@[simp] theorem State.setCtx_inds (x : Nat) (c : Ctx) : (s.setCtx x c).inds = s.inds := rfl
@[simp] theorem State.setCtx_links (x : Nat) (c : Ctx) : (s.setCtx x c).links = s.links := rfl
@[simp] theorem State.setCtx_welds (x : Nat) (c : Ctx) : (s.setCtx x c).welds = s.welds := rfl
@[simp] theorem State.setCtx_sep (x : Nat) (c : Ctx) : (s.setCtx x c).sep = s.sep := rfl
@[simp] theorem State.setCtx_och (x : Nat) (c : Ctx) : (s.setCtx x c).och = s.och := rfl
@[simp] theorem State.setCtx_hif (x : Nat) (c : Ctx) : (s.setCtx x c).hif = s.hif := rfl
@[simp] theorem State.setCtx_mgmt (x : Nat) (c : Ctx) : (s.setCtx x c).mgmt = s.mgmt := rfl
@[simp] theorem State.setCtx_pwr (x : Nat) (c : Ctx) : (s.setCtx x c).pwr = s.pwr := rfl
@[simp] theorem State.setCtx_regs (x : Nat) (c : Ctx) : (s.setCtx x c).regs = s.regs := rfl
@[simp] theorem State.setCtx_latched (x : Nat) (c : Ctx) : (s.setCtx x c).latched = s.latched := rfl
@[simp] theorem State.setCtx_evals (x : Nat) (c : Ctx) : (s.setCtx x c).evals = s.evals := rfl
@[simp] theorem State.setCtx_unlocked (x : Nat) (c : Ctx) : (s.setCtx x c).unlocked = s.unlocked := rfl
@[simp] theorem State.setCtx_calib (x : Nat) (c : Ctx) : (s.setCtx x c).calib = s.calib := rfl
@[simp] theorem State.setCtx_away (x : Nat) (c : Ctx) : (s.setCtx x c).away = s.away := rfl
@[simp] theorem State.setCtx_images (x : Nat) (c : Ctx) : (s.setCtx x c).images = s.images := rfl
@[simp] theorem State.setCtx_headless (x : Nat) (c : Ctx) : (s.setCtx x c).headless = s.headless := rfl
@[simp] theorem State.setPart_pending (p : Nat) (c : Part) : (s.setPart p c).pending = s.pending := rfl
@[simp] theorem State.setPart_free (p : Nat) (c : Part) : (s.setPart p c).free = s.free := rfl
@[simp] theorem State.setPart_out (p : Nat) (c : Part) : (s.setPart p c).out = s.out := rfl
@[simp] theorem State.setPart_variant (p : Nat) (c : Part) : (s.setPart p c).variant = s.variant := rfl
@[simp] theorem State.setPart_serial (p : Nat) (c : Part) : (s.setPart p c).serial = s.serial := rfl
@[simp] theorem State.setPart_tim (p : Nat) (c : Part) : (s.setPart p c).tim = s.tim := rfl
@[simp] theorem State.setPart_ctxs (p : Nat) (c : Part) : (s.setPart p c).ctxs = s.ctxs := rfl
@[simp] theorem State.setPart_cores (p : Nat) (c : Part) : (s.setPart p c).cores = s.cores := rfl
@[simp] theorem State.setPart_parts (p : Nat) (c : Part) : (s.setPart p c).parts = AMap.put (Part.fresh s.variant p) p c s.parts := rfl
@[simp] theorem State.setPart_mem (p : Nat) (c : Part) : (s.setPart p c).mem = s.mem := rfl
@[simp] theorem State.setPart_host (p : Nat) (c : Part) : (s.setPart p c).host = s.host := rfl
@[simp] theorem State.setPart_hbms (p : Nat) (c : Part) : (s.setPart p c).hbms = s.hbms := rfl
@[simp] theorem State.setPart_inds (p : Nat) (c : Part) : (s.setPart p c).inds = s.inds := rfl
@[simp] theorem State.setPart_links (p : Nat) (c : Part) : (s.setPart p c).links = s.links := rfl
@[simp] theorem State.setPart_welds (p : Nat) (c : Part) : (s.setPart p c).welds = s.welds := rfl
@[simp] theorem State.setPart_sep (p : Nat) (c : Part) : (s.setPart p c).sep = s.sep := rfl
@[simp] theorem State.setPart_och (p : Nat) (c : Part) : (s.setPart p c).och = s.och := rfl
@[simp] theorem State.setPart_hif (p : Nat) (c : Part) : (s.setPart p c).hif = s.hif := rfl
@[simp] theorem State.setPart_mgmt (p : Nat) (c : Part) : (s.setPart p c).mgmt = s.mgmt := rfl
@[simp] theorem State.setPart_pwr (p : Nat) (c : Part) : (s.setPart p c).pwr = s.pwr := rfl
@[simp] theorem State.setPart_regs (p : Nat) (c : Part) : (s.setPart p c).regs = s.regs := rfl
@[simp] theorem State.setPart_latched (p : Nat) (c : Part) : (s.setPart p c).latched = s.latched := rfl
@[simp] theorem State.setPart_evals (p : Nat) (c : Part) : (s.setPart p c).evals = s.evals := rfl
@[simp] theorem State.setPart_unlocked (p : Nat) (c : Part) : (s.setPart p c).unlocked = s.unlocked := rfl
@[simp] theorem State.setPart_calib (p : Nat) (c : Part) : (s.setPart p c).calib = s.calib := rfl
@[simp] theorem State.setPart_away (p : Nat) (c : Part) : (s.setPart p c).away = s.away := rfl
@[simp] theorem State.setPart_images (p : Nat) (c : Part) : (s.setPart p c).images = s.images := rfl
@[simp] theorem State.setPart_headless (p : Nat) (c : Part) : (s.setPart p c).headless = s.headless := rfl
@[simp] theorem State.setStack_pending (n : Nat) (c : Stack) : (s.setStack n c).pending = s.pending := rfl
@[simp] theorem State.setStack_free (n : Nat) (c : Stack) : (s.setStack n c).free = s.free := rfl
@[simp] theorem State.setStack_out (n : Nat) (c : Stack) : (s.setStack n c).out = s.out := rfl
@[simp] theorem State.setStack_variant (n : Nat) (c : Stack) : (s.setStack n c).variant = s.variant := rfl
@[simp] theorem State.setStack_serial (n : Nat) (c : Stack) : (s.setStack n c).serial = s.serial := rfl
@[simp] theorem State.setStack_tim (n : Nat) (c : Stack) : (s.setStack n c).tim = s.tim := rfl
@[simp] theorem State.setStack_ctxs (n : Nat) (c : Stack) : (s.setStack n c).ctxs = s.ctxs := rfl
@[simp] theorem State.setStack_cores (n : Nat) (c : Stack) : (s.setStack n c).cores = s.cores := rfl
@[simp] theorem State.setStack_parts (n : Nat) (c : Stack) : (s.setStack n c).parts = s.parts := rfl
@[simp] theorem State.setStack_mem (n : Nat) (c : Stack) : (s.setStack n c).mem = s.mem := rfl
@[simp] theorem State.setStack_host (n : Nat) (c : Stack) : (s.setStack n c).host = s.host := rfl
@[simp] theorem State.setStack_hbms (n : Nat) (c : Stack) : (s.setStack n c).hbms = AMap.put {} n c s.hbms := rfl
@[simp] theorem State.setStack_inds (n : Nat) (c : Stack) : (s.setStack n c).inds = s.inds := rfl
@[simp] theorem State.setStack_links (n : Nat) (c : Stack) : (s.setStack n c).links = s.links := rfl
@[simp] theorem State.setStack_welds (n : Nat) (c : Stack) : (s.setStack n c).welds = s.welds := rfl
@[simp] theorem State.setStack_sep (n : Nat) (c : Stack) : (s.setStack n c).sep = s.sep := rfl
@[simp] theorem State.setStack_och (n : Nat) (c : Stack) : (s.setStack n c).och = s.och := rfl
@[simp] theorem State.setStack_hif (n : Nat) (c : Stack) : (s.setStack n c).hif = s.hif := rfl
@[simp] theorem State.setStack_mgmt (n : Nat) (c : Stack) : (s.setStack n c).mgmt = s.mgmt := rfl
@[simp] theorem State.setStack_pwr (n : Nat) (c : Stack) : (s.setStack n c).pwr = s.pwr := rfl
@[simp] theorem State.setStack_regs (n : Nat) (c : Stack) : (s.setStack n c).regs = s.regs := rfl
@[simp] theorem State.setStack_latched (n : Nat) (c : Stack) : (s.setStack n c).latched = s.latched := rfl
@[simp] theorem State.setStack_evals (n : Nat) (c : Stack) : (s.setStack n c).evals = s.evals := rfl
@[simp] theorem State.setStack_unlocked (n : Nat) (c : Stack) : (s.setStack n c).unlocked = s.unlocked := rfl
@[simp] theorem State.setStack_calib (n : Nat) (c : Stack) : (s.setStack n c).calib = s.calib := rfl
@[simp] theorem State.setStack_away (n : Nat) (c : Stack) : (s.setStack n c).away = s.away := rfl
@[simp] theorem State.setStack_images (n : Nat) (c : Stack) : (s.setStack n c).images = s.images := rfl
@[simp] theorem State.setStack_headless (n : Nat) (c : Stack) : (s.setStack n c).headless = s.headless := rfl
@[simp] theorem State.setInd_pending (n : Nat) (c : Ind) : (s.setInd n c).pending = s.pending := rfl
@[simp] theorem State.setInd_free (n : Nat) (c : Ind) : (s.setInd n c).free = s.free := rfl
@[simp] theorem State.setInd_out (n : Nat) (c : Ind) : (s.setInd n c).out = s.out := rfl
@[simp] theorem State.setInd_variant (n : Nat) (c : Ind) : (s.setInd n c).variant = s.variant := rfl
@[simp] theorem State.setInd_serial (n : Nat) (c : Ind) : (s.setInd n c).serial = s.serial := rfl
@[simp] theorem State.setInd_tim (n : Nat) (c : Ind) : (s.setInd n c).tim = s.tim := rfl
@[simp] theorem State.setInd_ctxs (n : Nat) (c : Ind) : (s.setInd n c).ctxs = s.ctxs := rfl
@[simp] theorem State.setInd_cores (n : Nat) (c : Ind) : (s.setInd n c).cores = s.cores := rfl
@[simp] theorem State.setInd_parts (n : Nat) (c : Ind) : (s.setInd n c).parts = s.parts := rfl
@[simp] theorem State.setInd_mem (n : Nat) (c : Ind) : (s.setInd n c).mem = s.mem := rfl
@[simp] theorem State.setInd_host (n : Nat) (c : Ind) : (s.setInd n c).host = s.host := rfl
@[simp] theorem State.setInd_hbms (n : Nat) (c : Ind) : (s.setInd n c).hbms = s.hbms := rfl
@[simp] theorem State.setInd_inds (n : Nat) (c : Ind) : (s.setInd n c).inds = AMap.put {} n c s.inds := rfl
@[simp] theorem State.setInd_links (n : Nat) (c : Ind) : (s.setInd n c).links = s.links := rfl
@[simp] theorem State.setInd_welds (n : Nat) (c : Ind) : (s.setInd n c).welds = s.welds := rfl
@[simp] theorem State.setInd_sep (n : Nat) (c : Ind) : (s.setInd n c).sep = s.sep := rfl
@[simp] theorem State.setInd_och (n : Nat) (c : Ind) : (s.setInd n c).och = s.och := rfl
@[simp] theorem State.setInd_hif (n : Nat) (c : Ind) : (s.setInd n c).hif = s.hif := rfl
@[simp] theorem State.setInd_mgmt (n : Nat) (c : Ind) : (s.setInd n c).mgmt = s.mgmt := rfl
@[simp] theorem State.setInd_pwr (n : Nat) (c : Ind) : (s.setInd n c).pwr = s.pwr := rfl
@[simp] theorem State.setInd_regs (n : Nat) (c : Ind) : (s.setInd n c).regs = s.regs := rfl
@[simp] theorem State.setInd_latched (n : Nat) (c : Ind) : (s.setInd n c).latched = s.latched := rfl
@[simp] theorem State.setInd_evals (n : Nat) (c : Ind) : (s.setInd n c).evals = s.evals := rfl
@[simp] theorem State.setInd_unlocked (n : Nat) (c : Ind) : (s.setInd n c).unlocked = s.unlocked := rfl
@[simp] theorem State.setInd_calib (n : Nat) (c : Ind) : (s.setInd n c).calib = s.calib := rfl
@[simp] theorem State.setInd_away (n : Nat) (c : Ind) : (s.setInd n c).away = s.away := rfl
@[simp] theorem State.setInd_images (n : Nat) (c : Ind) : (s.setInd n c).images = s.images := rfl
@[simp] theorem State.setInd_headless (n : Nat) (c : Ind) : (s.setInd n c).headless = s.headless := rfl
@[simp] theorem State.setLink_pending (n : Nat) (c : Link) : (s.setLink n c).pending = s.pending := rfl
@[simp] theorem State.setLink_free (n : Nat) (c : Link) : (s.setLink n c).free = s.free := rfl
@[simp] theorem State.setLink_out (n : Nat) (c : Link) : (s.setLink n c).out = s.out := rfl
@[simp] theorem State.setLink_variant (n : Nat) (c : Link) : (s.setLink n c).variant = s.variant := rfl
@[simp] theorem State.setLink_serial (n : Nat) (c : Link) : (s.setLink n c).serial = s.serial := rfl
@[simp] theorem State.setLink_tim (n : Nat) (c : Link) : (s.setLink n c).tim = s.tim := rfl
@[simp] theorem State.setLink_ctxs (n : Nat) (c : Link) : (s.setLink n c).ctxs = s.ctxs := rfl
@[simp] theorem State.setLink_cores (n : Nat) (c : Link) : (s.setLink n c).cores = s.cores := rfl
@[simp] theorem State.setLink_parts (n : Nat) (c : Link) : (s.setLink n c).parts = s.parts := rfl
@[simp] theorem State.setLink_mem (n : Nat) (c : Link) : (s.setLink n c).mem = s.mem := rfl
@[simp] theorem State.setLink_host (n : Nat) (c : Link) : (s.setLink n c).host = s.host := rfl
@[simp] theorem State.setLink_hbms (n : Nat) (c : Link) : (s.setLink n c).hbms = s.hbms := rfl
@[simp] theorem State.setLink_inds (n : Nat) (c : Link) : (s.setLink n c).inds = s.inds := rfl
@[simp] theorem State.setLink_links (n : Nat) (c : Link) : (s.setLink n c).links = AMap.put {} n c s.links := rfl
@[simp] theorem State.setLink_welds (n : Nat) (c : Link) : (s.setLink n c).welds = s.welds := rfl
@[simp] theorem State.setLink_sep (n : Nat) (c : Link) : (s.setLink n c).sep = s.sep := rfl
@[simp] theorem State.setLink_och (n : Nat) (c : Link) : (s.setLink n c).och = s.och := rfl
@[simp] theorem State.setLink_hif (n : Nat) (c : Link) : (s.setLink n c).hif = s.hif := rfl
@[simp] theorem State.setLink_mgmt (n : Nat) (c : Link) : (s.setLink n c).mgmt = s.mgmt := rfl
@[simp] theorem State.setLink_pwr (n : Nat) (c : Link) : (s.setLink n c).pwr = s.pwr := rfl
@[simp] theorem State.setLink_regs (n : Nat) (c : Link) : (s.setLink n c).regs = s.regs := rfl
@[simp] theorem State.setLink_latched (n : Nat) (c : Link) : (s.setLink n c).latched = s.latched := rfl
@[simp] theorem State.setLink_evals (n : Nat) (c : Link) : (s.setLink n c).evals = s.evals := rfl
@[simp] theorem State.setLink_unlocked (n : Nat) (c : Link) : (s.setLink n c).unlocked = s.unlocked := rfl
@[simp] theorem State.setLink_calib (n : Nat) (c : Link) : (s.setLink n c).calib = s.calib := rfl
@[simp] theorem State.setLink_away (n : Nat) (c : Link) : (s.setLink n c).away = s.away := rfl
@[simp] theorem State.setLink_images (n : Nat) (c : Link) : (s.setLink n c).images = s.images := rfl
@[simp] theorem State.setLink_headless (n : Nat) (c : Link) : (s.setLink n c).headless = s.headless := rfl
@[simp] theorem State.setWeld_pending (n : Nat) (c : Weld) : (s.setWeld n c).pending = s.pending := rfl
@[simp] theorem State.setWeld_free (n : Nat) (c : Weld) : (s.setWeld n c).free = s.free := rfl
@[simp] theorem State.setWeld_out (n : Nat) (c : Weld) : (s.setWeld n c).out = s.out := rfl
@[simp] theorem State.setWeld_variant (n : Nat) (c : Weld) : (s.setWeld n c).variant = s.variant := rfl
@[simp] theorem State.setWeld_serial (n : Nat) (c : Weld) : (s.setWeld n c).serial = s.serial := rfl
@[simp] theorem State.setWeld_tim (n : Nat) (c : Weld) : (s.setWeld n c).tim = s.tim := rfl
@[simp] theorem State.setWeld_ctxs (n : Nat) (c : Weld) : (s.setWeld n c).ctxs = s.ctxs := rfl
@[simp] theorem State.setWeld_cores (n : Nat) (c : Weld) : (s.setWeld n c).cores = s.cores := rfl
@[simp] theorem State.setWeld_parts (n : Nat) (c : Weld) : (s.setWeld n c).parts = s.parts := rfl
@[simp] theorem State.setWeld_mem (n : Nat) (c : Weld) : (s.setWeld n c).mem = s.mem := rfl
@[simp] theorem State.setWeld_host (n : Nat) (c : Weld) : (s.setWeld n c).host = s.host := rfl
@[simp] theorem State.setWeld_hbms (n : Nat) (c : Weld) : (s.setWeld n c).hbms = s.hbms := rfl
@[simp] theorem State.setWeld_inds (n : Nat) (c : Weld) : (s.setWeld n c).inds = s.inds := rfl
@[simp] theorem State.setWeld_links (n : Nat) (c : Weld) : (s.setWeld n c).links = s.links := rfl
@[simp] theorem State.setWeld_welds (n : Nat) (c : Weld) : (s.setWeld n c).welds = AMap.put {} n c s.welds := rfl
@[simp] theorem State.setWeld_sep (n : Nat) (c : Weld) : (s.setWeld n c).sep = s.sep := rfl
@[simp] theorem State.setWeld_och (n : Nat) (c : Weld) : (s.setWeld n c).och = s.och := rfl
@[simp] theorem State.setWeld_hif (n : Nat) (c : Weld) : (s.setWeld n c).hif = s.hif := rfl
@[simp] theorem State.setWeld_mgmt (n : Nat) (c : Weld) : (s.setWeld n c).mgmt = s.mgmt := rfl
@[simp] theorem State.setWeld_pwr (n : Nat) (c : Weld) : (s.setWeld n c).pwr = s.pwr := rfl
@[simp] theorem State.setWeld_regs (n : Nat) (c : Weld) : (s.setWeld n c).regs = s.regs := rfl
@[simp] theorem State.setWeld_latched (n : Nat) (c : Weld) : (s.setWeld n c).latched = s.latched := rfl
@[simp] theorem State.setWeld_evals (n : Nat) (c : Weld) : (s.setWeld n c).evals = s.evals := rfl
@[simp] theorem State.setWeld_unlocked (n : Nat) (c : Weld) : (s.setWeld n c).unlocked = s.unlocked := rfl
@[simp] theorem State.setWeld_calib (n : Nat) (c : Weld) : (s.setWeld n c).calib = s.calib := rfl
@[simp] theorem State.setWeld_away (n : Nat) (c : Weld) : (s.setWeld n c).away = s.away := rfl
@[simp] theorem State.setWeld_images (n : Nat) (c : Weld) : (s.setWeld n c).images = s.images := rfl
@[simp] theorem State.setWeld_headless (n : Nat) (c : Weld) : (s.setWeld n c).headless = s.headless := rfl
@[simp] theorem State.setMem_pending (m : Mem) : (s.setMem m).pending = s.pending := rfl
@[simp] theorem State.setMem_free (m : Mem) : (s.setMem m).free = s.free := rfl
@[simp] theorem State.setMem_out (m : Mem) : (s.setMem m).out = s.out := rfl
@[simp] theorem State.setMem_variant (m : Mem) : (s.setMem m).variant = s.variant := rfl
@[simp] theorem State.setMem_serial (m : Mem) : (s.setMem m).serial = s.serial := rfl
@[simp] theorem State.setMem_tim (m : Mem) : (s.setMem m).tim = s.tim := rfl
@[simp] theorem State.setMem_ctxs (m : Mem) : (s.setMem m).ctxs = s.ctxs := rfl
@[simp] theorem State.setMem_cores (m : Mem) : (s.setMem m).cores = s.cores := rfl
@[simp] theorem State.setMem_parts (m : Mem) : (s.setMem m).parts = s.parts := rfl
@[simp] theorem State.setMem_mem (m : Mem) : (s.setMem m).mem = m := rfl
@[simp] theorem State.setMem_host (m : Mem) : (s.setMem m).host = s.host := rfl
@[simp] theorem State.setMem_hbms (m : Mem) : (s.setMem m).hbms = s.hbms := rfl
@[simp] theorem State.setMem_inds (m : Mem) : (s.setMem m).inds = s.inds := rfl
@[simp] theorem State.setMem_links (m : Mem) : (s.setMem m).links = s.links := rfl
@[simp] theorem State.setMem_welds (m : Mem) : (s.setMem m).welds = s.welds := rfl
@[simp] theorem State.setMem_sep (m : Mem) : (s.setMem m).sep = s.sep := rfl
@[simp] theorem State.setMem_och (m : Mem) : (s.setMem m).och = s.och := rfl
@[simp] theorem State.setMem_hif (m : Mem) : (s.setMem m).hif = s.hif := rfl
@[simp] theorem State.setMem_mgmt (m : Mem) : (s.setMem m).mgmt = s.mgmt := rfl
@[simp] theorem State.setMem_pwr (m : Mem) : (s.setMem m).pwr = s.pwr := rfl
@[simp] theorem State.setMem_regs (m : Mem) : (s.setMem m).regs = s.regs := rfl
@[simp] theorem State.setMem_latched (m : Mem) : (s.setMem m).latched = s.latched := rfl
@[simp] theorem State.setMem_evals (m : Mem) : (s.setMem m).evals = s.evals := rfl
@[simp] theorem State.setMem_unlocked (m : Mem) : (s.setMem m).unlocked = s.unlocked := rfl
@[simp] theorem State.setMem_calib (m : Mem) : (s.setMem m).calib = s.calib := rfl
@[simp] theorem State.setMem_away (m : Mem) : (s.setMem m).away = s.away := rfl
@[simp] theorem State.setMem_images (m : Mem) : (s.setMem m).images = s.images := rfl
@[simp] theorem State.setMem_headless (m : Mem) : (s.setMem m).headless = s.headless := rfl
@[simp] theorem State.setHost_pending (m : Mem) : (s.setHost m).pending = s.pending := rfl
@[simp] theorem State.setHost_free (m : Mem) : (s.setHost m).free = s.free := rfl
@[simp] theorem State.setHost_out (m : Mem) : (s.setHost m).out = s.out := rfl
@[simp] theorem State.setHost_variant (m : Mem) : (s.setHost m).variant = s.variant := rfl
@[simp] theorem State.setHost_serial (m : Mem) : (s.setHost m).serial = s.serial := rfl
@[simp] theorem State.setHost_tim (m : Mem) : (s.setHost m).tim = s.tim := rfl
@[simp] theorem State.setHost_ctxs (m : Mem) : (s.setHost m).ctxs = s.ctxs := rfl
@[simp] theorem State.setHost_cores (m : Mem) : (s.setHost m).cores = s.cores := rfl
@[simp] theorem State.setHost_parts (m : Mem) : (s.setHost m).parts = s.parts := rfl
@[simp] theorem State.setHost_mem (m : Mem) : (s.setHost m).mem = s.mem := rfl
@[simp] theorem State.setHost_host (m : Mem) : (s.setHost m).host = m := rfl
@[simp] theorem State.setHost_hbms (m : Mem) : (s.setHost m).hbms = s.hbms := rfl
@[simp] theorem State.setHost_inds (m : Mem) : (s.setHost m).inds = s.inds := rfl
@[simp] theorem State.setHost_links (m : Mem) : (s.setHost m).links = s.links := rfl
@[simp] theorem State.setHost_welds (m : Mem) : (s.setHost m).welds = s.welds := rfl
@[simp] theorem State.setHost_sep (m : Mem) : (s.setHost m).sep = s.sep := rfl
@[simp] theorem State.setHost_och (m : Mem) : (s.setHost m).och = s.och := rfl
@[simp] theorem State.setHost_hif (m : Mem) : (s.setHost m).hif = s.hif := rfl
@[simp] theorem State.setHost_mgmt (m : Mem) : (s.setHost m).mgmt = s.mgmt := rfl
@[simp] theorem State.setHost_pwr (m : Mem) : (s.setHost m).pwr = s.pwr := rfl
@[simp] theorem State.setHost_regs (m : Mem) : (s.setHost m).regs = s.regs := rfl
@[simp] theorem State.setHost_latched (m : Mem) : (s.setHost m).latched = s.latched := rfl
@[simp] theorem State.setHost_evals (m : Mem) : (s.setHost m).evals = s.evals := rfl
@[simp] theorem State.setHost_unlocked (m : Mem) : (s.setHost m).unlocked = s.unlocked := rfl
@[simp] theorem State.setHost_calib (m : Mem) : (s.setHost m).calib = s.calib := rfl
@[simp] theorem State.setHost_away (m : Mem) : (s.setHost m).away = s.away := rfl
@[simp] theorem State.setHost_images (m : Mem) : (s.setHost m).images = s.images := rfl
@[simp] theorem State.setHost_headless (m : Mem) : (s.setHost m).headless = s.headless := rfl
@[simp] theorem State.setTim_pending (t : Tim) : (s.setTim t).pending = s.pending := rfl
@[simp] theorem State.setTim_free (t : Tim) : (s.setTim t).free = s.free := rfl
@[simp] theorem State.setTim_out (t : Tim) : (s.setTim t).out = s.out := rfl
@[simp] theorem State.setTim_variant (t : Tim) : (s.setTim t).variant = s.variant := rfl
@[simp] theorem State.setTim_serial (t : Tim) : (s.setTim t).serial = s.serial := rfl
@[simp] theorem State.setTim_tim (t : Tim) : (s.setTim t).tim = t := rfl
@[simp] theorem State.setTim_ctxs (t : Tim) : (s.setTim t).ctxs = s.ctxs := rfl
@[simp] theorem State.setTim_cores (t : Tim) : (s.setTim t).cores = s.cores := rfl
@[simp] theorem State.setTim_parts (t : Tim) : (s.setTim t).parts = s.parts := rfl
@[simp] theorem State.setTim_mem (t : Tim) : (s.setTim t).mem = s.mem := rfl
@[simp] theorem State.setTim_host (t : Tim) : (s.setTim t).host = s.host := rfl
@[simp] theorem State.setTim_hbms (t : Tim) : (s.setTim t).hbms = s.hbms := rfl
@[simp] theorem State.setTim_inds (t : Tim) : (s.setTim t).inds = s.inds := rfl
@[simp] theorem State.setTim_links (t : Tim) : (s.setTim t).links = s.links := rfl
@[simp] theorem State.setTim_welds (t : Tim) : (s.setTim t).welds = s.welds := rfl
@[simp] theorem State.setTim_sep (t : Tim) : (s.setTim t).sep = s.sep := rfl
@[simp] theorem State.setTim_och (t : Tim) : (s.setTim t).och = s.och := rfl
@[simp] theorem State.setTim_hif (t : Tim) : (s.setTim t).hif = s.hif := rfl
@[simp] theorem State.setTim_mgmt (t : Tim) : (s.setTim t).mgmt = s.mgmt := rfl
@[simp] theorem State.setTim_pwr (t : Tim) : (s.setTim t).pwr = s.pwr := rfl
@[simp] theorem State.setTim_regs (t : Tim) : (s.setTim t).regs = s.regs := rfl
@[simp] theorem State.setTim_latched (t : Tim) : (s.setTim t).latched = s.latched := rfl
@[simp] theorem State.setTim_evals (t : Tim) : (s.setTim t).evals = s.evals := rfl
@[simp] theorem State.setTim_unlocked (t : Tim) : (s.setTim t).unlocked = s.unlocked := rfl
@[simp] theorem State.setTim_calib (t : Tim) : (s.setTim t).calib = s.calib := rfl
@[simp] theorem State.setTim_away (t : Tim) : (s.setTim t).away = s.away := rfl
@[simp] theorem State.setTim_images (t : Tim) : (s.setTim t).images = s.images := rfl
@[simp] theorem State.setTim_headless (t : Tim) : (s.setTim t).headless = s.headless := rfl
@[simp] theorem State.setSep_pending (t : Sepia) : (s.setSep t).pending = s.pending := rfl
@[simp] theorem State.setSep_free (t : Sepia) : (s.setSep t).free = s.free := rfl
@[simp] theorem State.setSep_out (t : Sepia) : (s.setSep t).out = s.out := rfl
@[simp] theorem State.setSep_variant (t : Sepia) : (s.setSep t).variant = s.variant := rfl
@[simp] theorem State.setSep_serial (t : Sepia) : (s.setSep t).serial = s.serial := rfl
@[simp] theorem State.setSep_tim (t : Sepia) : (s.setSep t).tim = s.tim := rfl
@[simp] theorem State.setSep_ctxs (t : Sepia) : (s.setSep t).ctxs = s.ctxs := rfl
@[simp] theorem State.setSep_cores (t : Sepia) : (s.setSep t).cores = s.cores := rfl
@[simp] theorem State.setSep_parts (t : Sepia) : (s.setSep t).parts = s.parts := rfl
@[simp] theorem State.setSep_mem (t : Sepia) : (s.setSep t).mem = s.mem := rfl
@[simp] theorem State.setSep_host (t : Sepia) : (s.setSep t).host = s.host := rfl
@[simp] theorem State.setSep_hbms (t : Sepia) : (s.setSep t).hbms = s.hbms := rfl
@[simp] theorem State.setSep_inds (t : Sepia) : (s.setSep t).inds = s.inds := rfl
@[simp] theorem State.setSep_links (t : Sepia) : (s.setSep t).links = s.links := rfl
@[simp] theorem State.setSep_welds (t : Sepia) : (s.setSep t).welds = s.welds := rfl
@[simp] theorem State.setSep_sep (t : Sepia) : (s.setSep t).sep = t := rfl
@[simp] theorem State.setSep_och (t : Sepia) : (s.setSep t).och = s.och := rfl
@[simp] theorem State.setSep_hif (t : Sepia) : (s.setSep t).hif = s.hif := rfl
@[simp] theorem State.setSep_mgmt (t : Sepia) : (s.setSep t).mgmt = s.mgmt := rfl
@[simp] theorem State.setSep_pwr (t : Sepia) : (s.setSep t).pwr = s.pwr := rfl
@[simp] theorem State.setSep_regs (t : Sepia) : (s.setSep t).regs = s.regs := rfl
@[simp] theorem State.setSep_latched (t : Sepia) : (s.setSep t).latched = s.latched := rfl
@[simp] theorem State.setSep_evals (t : Sepia) : (s.setSep t).evals = s.evals := rfl
@[simp] theorem State.setSep_unlocked (t : Sepia) : (s.setSep t).unlocked = s.unlocked := rfl
@[simp] theorem State.setSep_calib (t : Sepia) : (s.setSep t).calib = s.calib := rfl
@[simp] theorem State.setSep_away (t : Sepia) : (s.setSep t).away = s.away := rfl
@[simp] theorem State.setSep_images (t : Sepia) : (s.setSep t).images = s.images := rfl
@[simp] theorem State.setSep_headless (t : Sepia) : (s.setSep t).headless = s.headless := rfl
@[simp] theorem State.setOch_pending (t : Ochre) : (s.setOch t).pending = s.pending := rfl
@[simp] theorem State.setOch_free (t : Ochre) : (s.setOch t).free = s.free := rfl
@[simp] theorem State.setOch_out (t : Ochre) : (s.setOch t).out = s.out := rfl
@[simp] theorem State.setOch_variant (t : Ochre) : (s.setOch t).variant = s.variant := rfl
@[simp] theorem State.setOch_serial (t : Ochre) : (s.setOch t).serial = s.serial := rfl
@[simp] theorem State.setOch_tim (t : Ochre) : (s.setOch t).tim = s.tim := rfl
@[simp] theorem State.setOch_ctxs (t : Ochre) : (s.setOch t).ctxs = s.ctxs := rfl
@[simp] theorem State.setOch_cores (t : Ochre) : (s.setOch t).cores = s.cores := rfl
@[simp] theorem State.setOch_parts (t : Ochre) : (s.setOch t).parts = s.parts := rfl
@[simp] theorem State.setOch_mem (t : Ochre) : (s.setOch t).mem = s.mem := rfl
@[simp] theorem State.setOch_host (t : Ochre) : (s.setOch t).host = s.host := rfl
@[simp] theorem State.setOch_hbms (t : Ochre) : (s.setOch t).hbms = s.hbms := rfl
@[simp] theorem State.setOch_inds (t : Ochre) : (s.setOch t).inds = s.inds := rfl
@[simp] theorem State.setOch_links (t : Ochre) : (s.setOch t).links = s.links := rfl
@[simp] theorem State.setOch_welds (t : Ochre) : (s.setOch t).welds = s.welds := rfl
@[simp] theorem State.setOch_sep (t : Ochre) : (s.setOch t).sep = s.sep := rfl
@[simp] theorem State.setOch_och (t : Ochre) : (s.setOch t).och = t := rfl
@[simp] theorem State.setOch_hif (t : Ochre) : (s.setOch t).hif = s.hif := rfl
@[simp] theorem State.setOch_mgmt (t : Ochre) : (s.setOch t).mgmt = s.mgmt := rfl
@[simp] theorem State.setOch_pwr (t : Ochre) : (s.setOch t).pwr = s.pwr := rfl
@[simp] theorem State.setOch_regs (t : Ochre) : (s.setOch t).regs = s.regs := rfl
@[simp] theorem State.setOch_latched (t : Ochre) : (s.setOch t).latched = s.latched := rfl
@[simp] theorem State.setOch_evals (t : Ochre) : (s.setOch t).evals = s.evals := rfl
@[simp] theorem State.setOch_unlocked (t : Ochre) : (s.setOch t).unlocked = s.unlocked := rfl
@[simp] theorem State.setOch_calib (t : Ochre) : (s.setOch t).calib = s.calib := rfl
@[simp] theorem State.setOch_away (t : Ochre) : (s.setOch t).away = s.away := rfl
@[simp] theorem State.setOch_images (t : Ochre) : (s.setOch t).images = s.images := rfl
@[simp] theorem State.setOch_headless (t : Ochre) : (s.setOch t).headless = s.headless := rfl
@[simp] theorem State.setHif_pending (t : Hif) : (s.setHif t).pending = s.pending := rfl
@[simp] theorem State.setHif_free (t : Hif) : (s.setHif t).free = s.free := rfl
@[simp] theorem State.setHif_out (t : Hif) : (s.setHif t).out = s.out := rfl
@[simp] theorem State.setHif_variant (t : Hif) : (s.setHif t).variant = s.variant := rfl
@[simp] theorem State.setHif_serial (t : Hif) : (s.setHif t).serial = s.serial := rfl
@[simp] theorem State.setHif_tim (t : Hif) : (s.setHif t).tim = s.tim := rfl
@[simp] theorem State.setHif_ctxs (t : Hif) : (s.setHif t).ctxs = s.ctxs := rfl
@[simp] theorem State.setHif_cores (t : Hif) : (s.setHif t).cores = s.cores := rfl
@[simp] theorem State.setHif_parts (t : Hif) : (s.setHif t).parts = s.parts := rfl
@[simp] theorem State.setHif_mem (t : Hif) : (s.setHif t).mem = s.mem := rfl
@[simp] theorem State.setHif_host (t : Hif) : (s.setHif t).host = s.host := rfl
@[simp] theorem State.setHif_hbms (t : Hif) : (s.setHif t).hbms = s.hbms := rfl
@[simp] theorem State.setHif_inds (t : Hif) : (s.setHif t).inds = s.inds := rfl
@[simp] theorem State.setHif_links (t : Hif) : (s.setHif t).links = s.links := rfl
@[simp] theorem State.setHif_welds (t : Hif) : (s.setHif t).welds = s.welds := rfl
@[simp] theorem State.setHif_sep (t : Hif) : (s.setHif t).sep = s.sep := rfl
@[simp] theorem State.setHif_och (t : Hif) : (s.setHif t).och = s.och := rfl
@[simp] theorem State.setHif_hif (t : Hif) : (s.setHif t).hif = t := rfl
@[simp] theorem State.setHif_mgmt (t : Hif) : (s.setHif t).mgmt = s.mgmt := rfl
@[simp] theorem State.setHif_pwr (t : Hif) : (s.setHif t).pwr = s.pwr := rfl
@[simp] theorem State.setHif_regs (t : Hif) : (s.setHif t).regs = s.regs := rfl
@[simp] theorem State.setHif_latched (t : Hif) : (s.setHif t).latched = s.latched := rfl
@[simp] theorem State.setHif_evals (t : Hif) : (s.setHif t).evals = s.evals := rfl
@[simp] theorem State.setHif_unlocked (t : Hif) : (s.setHif t).unlocked = s.unlocked := rfl
@[simp] theorem State.setHif_calib (t : Hif) : (s.setHif t).calib = s.calib := rfl
@[simp] theorem State.setHif_away (t : Hif) : (s.setHif t).away = s.away := rfl
@[simp] theorem State.setHif_images (t : Hif) : (s.setHif t).images = s.images := rfl
@[simp] theorem State.setHif_headless (t : Hif) : (s.setHif t).headless = s.headless := rfl
@[simp] theorem State.setMgmt_pending (t : Mgmt) : (s.setMgmt t).pending = s.pending := rfl
@[simp] theorem State.setMgmt_free (t : Mgmt) : (s.setMgmt t).free = s.free := rfl
@[simp] theorem State.setMgmt_out (t : Mgmt) : (s.setMgmt t).out = s.out := rfl
@[simp] theorem State.setMgmt_variant (t : Mgmt) : (s.setMgmt t).variant = s.variant := rfl
@[simp] theorem State.setMgmt_serial (t : Mgmt) : (s.setMgmt t).serial = s.serial := rfl
@[simp] theorem State.setMgmt_tim (t : Mgmt) : (s.setMgmt t).tim = s.tim := rfl
@[simp] theorem State.setMgmt_ctxs (t : Mgmt) : (s.setMgmt t).ctxs = s.ctxs := rfl
@[simp] theorem State.setMgmt_cores (t : Mgmt) : (s.setMgmt t).cores = s.cores := rfl
@[simp] theorem State.setMgmt_parts (t : Mgmt) : (s.setMgmt t).parts = s.parts := rfl
@[simp] theorem State.setMgmt_mem (t : Mgmt) : (s.setMgmt t).mem = s.mem := rfl
@[simp] theorem State.setMgmt_host (t : Mgmt) : (s.setMgmt t).host = s.host := rfl
@[simp] theorem State.setMgmt_hbms (t : Mgmt) : (s.setMgmt t).hbms = s.hbms := rfl
@[simp] theorem State.setMgmt_inds (t : Mgmt) : (s.setMgmt t).inds = s.inds := rfl
@[simp] theorem State.setMgmt_links (t : Mgmt) : (s.setMgmt t).links = s.links := rfl
@[simp] theorem State.setMgmt_welds (t : Mgmt) : (s.setMgmt t).welds = s.welds := rfl
@[simp] theorem State.setMgmt_sep (t : Mgmt) : (s.setMgmt t).sep = s.sep := rfl
@[simp] theorem State.setMgmt_och (t : Mgmt) : (s.setMgmt t).och = s.och := rfl
@[simp] theorem State.setMgmt_hif (t : Mgmt) : (s.setMgmt t).hif = s.hif := rfl
@[simp] theorem State.setMgmt_mgmt (t : Mgmt) : (s.setMgmt t).mgmt = t := rfl
@[simp] theorem State.setMgmt_pwr (t : Mgmt) : (s.setMgmt t).pwr = s.pwr := rfl
@[simp] theorem State.setMgmt_regs (t : Mgmt) : (s.setMgmt t).regs = s.regs := rfl
@[simp] theorem State.setMgmt_latched (t : Mgmt) : (s.setMgmt t).latched = s.latched := rfl
@[simp] theorem State.setMgmt_evals (t : Mgmt) : (s.setMgmt t).evals = s.evals := rfl
@[simp] theorem State.setMgmt_unlocked (t : Mgmt) : (s.setMgmt t).unlocked = s.unlocked := rfl
@[simp] theorem State.setMgmt_calib (t : Mgmt) : (s.setMgmt t).calib = s.calib := rfl
@[simp] theorem State.setMgmt_away (t : Mgmt) : (s.setMgmt t).away = s.away := rfl
@[simp] theorem State.setMgmt_images (t : Mgmt) : (s.setMgmt t).images = s.images := rfl
@[simp] theorem State.setMgmt_headless (t : Mgmt) : (s.setMgmt t).headless = s.headless := rfl
@[simp] theorem State.setPwr_pending (t : Pwr) : (s.setPwr t).pending = s.pending := rfl
@[simp] theorem State.setPwr_free (t : Pwr) : (s.setPwr t).free = s.free := rfl
@[simp] theorem State.setPwr_out (t : Pwr) : (s.setPwr t).out = s.out := rfl
@[simp] theorem State.setPwr_variant (t : Pwr) : (s.setPwr t).variant = s.variant := rfl
@[simp] theorem State.setPwr_serial (t : Pwr) : (s.setPwr t).serial = s.serial := rfl
@[simp] theorem State.setPwr_tim (t : Pwr) : (s.setPwr t).tim = s.tim := rfl
@[simp] theorem State.setPwr_ctxs (t : Pwr) : (s.setPwr t).ctxs = s.ctxs := rfl
@[simp] theorem State.setPwr_cores (t : Pwr) : (s.setPwr t).cores = s.cores := rfl
@[simp] theorem State.setPwr_parts (t : Pwr) : (s.setPwr t).parts = s.parts := rfl
@[simp] theorem State.setPwr_mem (t : Pwr) : (s.setPwr t).mem = s.mem := rfl
@[simp] theorem State.setPwr_host (t : Pwr) : (s.setPwr t).host = s.host := rfl
@[simp] theorem State.setPwr_hbms (t : Pwr) : (s.setPwr t).hbms = s.hbms := rfl
@[simp] theorem State.setPwr_inds (t : Pwr) : (s.setPwr t).inds = s.inds := rfl
@[simp] theorem State.setPwr_links (t : Pwr) : (s.setPwr t).links = s.links := rfl
@[simp] theorem State.setPwr_welds (t : Pwr) : (s.setPwr t).welds = s.welds := rfl
@[simp] theorem State.setPwr_sep (t : Pwr) : (s.setPwr t).sep = s.sep := rfl
@[simp] theorem State.setPwr_och (t : Pwr) : (s.setPwr t).och = s.och := rfl
@[simp] theorem State.setPwr_hif (t : Pwr) : (s.setPwr t).hif = s.hif := rfl
@[simp] theorem State.setPwr_mgmt (t : Pwr) : (s.setPwr t).mgmt = s.mgmt := rfl
@[simp] theorem State.setPwr_pwr (t : Pwr) : (s.setPwr t).pwr = t := rfl
@[simp] theorem State.setPwr_regs (t : Pwr) : (s.setPwr t).regs = s.regs := rfl
@[simp] theorem State.setPwr_latched (t : Pwr) : (s.setPwr t).latched = s.latched := rfl
@[simp] theorem State.setPwr_evals (t : Pwr) : (s.setPwr t).evals = s.evals := rfl
@[simp] theorem State.setPwr_unlocked (t : Pwr) : (s.setPwr t).unlocked = s.unlocked := rfl
@[simp] theorem State.setPwr_calib (t : Pwr) : (s.setPwr t).calib = s.calib := rfl
@[simp] theorem State.setPwr_away (t : Pwr) : (s.setPwr t).away = s.away := rfl
@[simp] theorem State.setPwr_images (t : Pwr) : (s.setPwr t).images = s.images := rfl
@[simp] theorem State.setPwr_headless (t : Pwr) : (s.setPwr t).headless = s.headless := rfl
@[simp] theorem State.emit_pending (o : Out) : (s.emit o).pending = s.pending := rfl
@[simp] theorem State.emit_free (o : Out) : (s.emit o).free = s.free := rfl
@[simp] theorem State.emit_out (o : Out) : (s.emit o).out = s.out ++ [o] := rfl
@[simp] theorem State.emit_variant (o : Out) : (s.emit o).variant = s.variant := rfl
@[simp] theorem State.emit_serial (o : Out) : (s.emit o).serial = s.serial := rfl
@[simp] theorem State.emit_tim (o : Out) : (s.emit o).tim = s.tim := rfl
@[simp] theorem State.emit_ctxs (o : Out) : (s.emit o).ctxs = s.ctxs := rfl
@[simp] theorem State.emit_cores (o : Out) : (s.emit o).cores = s.cores := rfl
@[simp] theorem State.emit_parts (o : Out) : (s.emit o).parts = s.parts := rfl
@[simp] theorem State.emit_mem (o : Out) : (s.emit o).mem = s.mem := rfl
@[simp] theorem State.emit_host (o : Out) : (s.emit o).host = s.host := rfl
@[simp] theorem State.emit_hbms (o : Out) : (s.emit o).hbms = s.hbms := rfl
@[simp] theorem State.emit_inds (o : Out) : (s.emit o).inds = s.inds := rfl
@[simp] theorem State.emit_links (o : Out) : (s.emit o).links = s.links := rfl
@[simp] theorem State.emit_welds (o : Out) : (s.emit o).welds = s.welds := rfl
@[simp] theorem State.emit_sep (o : Out) : (s.emit o).sep = s.sep := rfl
@[simp] theorem State.emit_och (o : Out) : (s.emit o).och = s.och := rfl
@[simp] theorem State.emit_hif (o : Out) : (s.emit o).hif = s.hif := rfl
@[simp] theorem State.emit_mgmt (o : Out) : (s.emit o).mgmt = s.mgmt := rfl
@[simp] theorem State.emit_pwr (o : Out) : (s.emit o).pwr = s.pwr := rfl
@[simp] theorem State.emit_regs (o : Out) : (s.emit o).regs = s.regs := rfl
@[simp] theorem State.emit_latched (o : Out) : (s.emit o).latched = s.latched := rfl
@[simp] theorem State.emit_evals (o : Out) : (s.emit o).evals = s.evals := rfl
@[simp] theorem State.emit_unlocked (o : Out) : (s.emit o).unlocked = s.unlocked := rfl
@[simp] theorem State.emit_calib (o : Out) : (s.emit o).calib = s.calib := rfl
@[simp] theorem State.emit_away (o : Out) : (s.emit o).away = s.away := rfl
@[simp] theorem State.emit_images (o : Out) : (s.emit o).images = s.images := rfl
@[simp] theorem State.emit_headless (o : Out) : (s.emit o).headless = s.headless := rfl
@[simp] theorem State.draw_pending : (s.draw).pending = s.pending := rfl
@[simp] theorem State.draw_free : (s.draw).free = s.free + 1 := rfl
@[simp] theorem State.draw_out : (s.draw).out = s.out := rfl
@[simp] theorem State.draw_variant : (s.draw).variant = s.variant := rfl
@[simp] theorem State.draw_serial : (s.draw).serial = s.serial := rfl
@[simp] theorem State.draw_tim : (s.draw).tim = s.tim := rfl
@[simp] theorem State.draw_ctxs : (s.draw).ctxs = s.ctxs := rfl
@[simp] theorem State.draw_cores : (s.draw).cores = s.cores := rfl
@[simp] theorem State.draw_parts : (s.draw).parts = s.parts := rfl
@[simp] theorem State.draw_mem : (s.draw).mem = s.mem := rfl
@[simp] theorem State.draw_host : (s.draw).host = s.host := rfl
@[simp] theorem State.draw_hbms : (s.draw).hbms = s.hbms := rfl
@[simp] theorem State.draw_inds : (s.draw).inds = s.inds := rfl
@[simp] theorem State.draw_links : (s.draw).links = s.links := rfl
@[simp] theorem State.draw_welds : (s.draw).welds = s.welds := rfl
@[simp] theorem State.draw_sep : (s.draw).sep = s.sep := rfl
@[simp] theorem State.draw_och : (s.draw).och = s.och := rfl
@[simp] theorem State.draw_hif : (s.draw).hif = s.hif := rfl
@[simp] theorem State.draw_mgmt : (s.draw).mgmt = s.mgmt := rfl
@[simp] theorem State.draw_pwr : (s.draw).pwr = s.pwr := rfl
@[simp] theorem State.draw_regs : (s.draw).regs = s.regs := rfl
@[simp] theorem State.draw_latched : (s.draw).latched = s.latched := rfl
@[simp] theorem State.draw_evals : (s.draw).evals = s.evals := rfl
@[simp] theorem State.draw_unlocked : (s.draw).unlocked = s.unlocked := rfl
@[simp] theorem State.draw_calib : (s.draw).calib = s.calib := rfl
@[simp] theorem State.draw_away : (s.draw).away = s.away := rfl
@[simp] theorem State.draw_images : (s.draw).images = s.images := rfl
@[simp] theorem State.draw_headless : (s.draw).headless = s.headless := rfl
@[simp] theorem State.drawN_pending (k : Nat) : (s.drawN k).pending = s.pending := rfl
@[simp] theorem State.drawN_free (k : Nat) : (s.drawN k).free = s.free + k := rfl
@[simp] theorem State.drawN_out (k : Nat) : (s.drawN k).out = s.out := rfl
@[simp] theorem State.drawN_variant (k : Nat) : (s.drawN k).variant = s.variant := rfl
@[simp] theorem State.drawN_serial (k : Nat) : (s.drawN k).serial = s.serial := rfl
@[simp] theorem State.drawN_tim (k : Nat) : (s.drawN k).tim = s.tim := rfl
@[simp] theorem State.drawN_ctxs (k : Nat) : (s.drawN k).ctxs = s.ctxs := rfl
@[simp] theorem State.drawN_cores (k : Nat) : (s.drawN k).cores = s.cores := rfl
@[simp] theorem State.drawN_parts (k : Nat) : (s.drawN k).parts = s.parts := rfl
@[simp] theorem State.drawN_mem (k : Nat) : (s.drawN k).mem = s.mem := rfl
@[simp] theorem State.drawN_host (k : Nat) : (s.drawN k).host = s.host := rfl
@[simp] theorem State.drawN_hbms (k : Nat) : (s.drawN k).hbms = s.hbms := rfl
@[simp] theorem State.drawN_inds (k : Nat) : (s.drawN k).inds = s.inds := rfl
@[simp] theorem State.drawN_links (k : Nat) : (s.drawN k).links = s.links := rfl
@[simp] theorem State.drawN_welds (k : Nat) : (s.drawN k).welds = s.welds := rfl
@[simp] theorem State.drawN_sep (k : Nat) : (s.drawN k).sep = s.sep := rfl
@[simp] theorem State.drawN_och (k : Nat) : (s.drawN k).och = s.och := rfl
@[simp] theorem State.drawN_hif (k : Nat) : (s.drawN k).hif = s.hif := rfl
@[simp] theorem State.drawN_mgmt (k : Nat) : (s.drawN k).mgmt = s.mgmt := rfl
@[simp] theorem State.drawN_pwr (k : Nat) : (s.drawN k).pwr = s.pwr := rfl
@[simp] theorem State.drawN_regs (k : Nat) : (s.drawN k).regs = s.regs := rfl
@[simp] theorem State.drawN_latched (k : Nat) : (s.drawN k).latched = s.latched := rfl
@[simp] theorem State.drawN_evals (k : Nat) : (s.drawN k).evals = s.evals := rfl
@[simp] theorem State.drawN_unlocked (k : Nat) : (s.drawN k).unlocked = s.unlocked := rfl
@[simp] theorem State.drawN_calib (k : Nat) : (s.drawN k).calib = s.calib := rfl
@[simp] theorem State.drawN_away (k : Nat) : (s.drawN k).away = s.away := rfl
@[simp] theorem State.drawN_images (k : Nat) : (s.drawN k).images = s.images := rfl
@[simp] theorem State.drawN_headless (k : Nat) : (s.drawN k).headless = s.headless := rfl
@[simp] theorem State.setReg_pending (r : Reg) (u n : Nat) (v : W32) : (s.setReg r u n v).pending = s.pending := rfl
@[simp] theorem State.setReg_free (r : Reg) (u n : Nat) (v : W32) : (s.setReg r u n v).free = s.free := rfl
@[simp] theorem State.setReg_out (r : Reg) (u n : Nat) (v : W32) : (s.setReg r u n v).out = s.out := rfl
@[simp] theorem State.setReg_variant (r : Reg) (u n : Nat) (v : W32) : (s.setReg r u n v).variant = s.variant := rfl
@[simp] theorem State.setReg_serial (r : Reg) (u n : Nat) (v : W32) : (s.setReg r u n v).serial = s.serial := rfl
@[simp] theorem State.setReg_tim (r : Reg) (u n : Nat) (v : W32) : (s.setReg r u n v).tim = s.tim := rfl
@[simp] theorem State.setReg_ctxs (r : Reg) (u n : Nat) (v : W32) : (s.setReg r u n v).ctxs = s.ctxs := rfl
@[simp] theorem State.setReg_cores (r : Reg) (u n : Nat) (v : W32) : (s.setReg r u n v).cores = s.cores := rfl
@[simp] theorem State.setReg_parts (r : Reg) (u n : Nat) (v : W32) : (s.setReg r u n v).parts = s.parts := rfl
@[simp] theorem State.setReg_mem (r : Reg) (u n : Nat) (v : W32) : (s.setReg r u n v).mem = s.mem := rfl
@[simp] theorem State.setReg_host (r : Reg) (u n : Nat) (v : W32) : (s.setReg r u n v).host = s.host := rfl
@[simp] theorem State.setReg_hbms (r : Reg) (u n : Nat) (v : W32) : (s.setReg r u n v).hbms = s.hbms := rfl
@[simp] theorem State.setReg_inds (r : Reg) (u n : Nat) (v : W32) : (s.setReg r u n v).inds = s.inds := rfl
@[simp] theorem State.setReg_links (r : Reg) (u n : Nat) (v : W32) : (s.setReg r u n v).links = s.links := rfl
@[simp] theorem State.setReg_welds (r : Reg) (u n : Nat) (v : W32) : (s.setReg r u n v).welds = s.welds := rfl
@[simp] theorem State.setReg_sep (r : Reg) (u n : Nat) (v : W32) : (s.setReg r u n v).sep = s.sep := rfl
@[simp] theorem State.setReg_och (r : Reg) (u n : Nat) (v : W32) : (s.setReg r u n v).och = s.och := rfl
@[simp] theorem State.setReg_hif (r : Reg) (u n : Nat) (v : W32) : (s.setReg r u n v).hif = s.hif := rfl
@[simp] theorem State.setReg_mgmt (r : Reg) (u n : Nat) (v : W32) : (s.setReg r u n v).mgmt = s.mgmt := rfl
@[simp] theorem State.setReg_pwr (r : Reg) (u n : Nat) (v : W32) : (s.setReg r u n v).pwr = s.pwr := rfl
@[simp] theorem State.setReg_regs (r : Reg) (u n : Nat) (v : W32) : (s.setReg r u n v).regs = AMap.put (resetOf s.variant r) (r.addr u n) v s.regs := rfl
@[simp] theorem State.setReg_latched (r : Reg) (u n : Nat) (v : W32) : (s.setReg r u n v).latched = s.latched := rfl
@[simp] theorem State.setReg_evals (r : Reg) (u n : Nat) (v : W32) : (s.setReg r u n v).evals = s.evals := rfl
@[simp] theorem State.setReg_unlocked (r : Reg) (u n : Nat) (v : W32) : (s.setReg r u n v).unlocked = s.unlocked := rfl
@[simp] theorem State.setReg_calib (r : Reg) (u n : Nat) (v : W32) : (s.setReg r u n v).calib = s.calib := rfl
@[simp] theorem State.setReg_away (r : Reg) (u n : Nat) (v : W32) : (s.setReg r u n v).away = s.away := rfl
@[simp] theorem State.setReg_images (r : Reg) (u n : Nat) (v : W32) : (s.setReg r u n v).images = s.images := rfl
@[simp] theorem State.setReg_headless (r : Reg) (u n : Nat) (v : W32) : (s.setReg r u n v).headless = s.headless := rfl
@[simp] theorem State.evalsUp_pending (k n : Nat) : (s.evalsUp k n).pending = s.pending := rfl
@[simp] theorem State.evalsUp_free (k n : Nat) : (s.evalsUp k n).free = s.free := rfl
@[simp] theorem State.evalsUp_out (k n : Nat) : (s.evalsUp k n).out = s.out := rfl
@[simp] theorem State.evalsUp_variant (k n : Nat) : (s.evalsUp k n).variant = s.variant := rfl
@[simp] theorem State.evalsUp_serial (k n : Nat) : (s.evalsUp k n).serial = s.serial := rfl
@[simp] theorem State.evalsUp_tim (k n : Nat) : (s.evalsUp k n).tim = s.tim := rfl
@[simp] theorem State.evalsUp_ctxs (k n : Nat) : (s.evalsUp k n).ctxs = s.ctxs := rfl
@[simp] theorem State.evalsUp_cores (k n : Nat) : (s.evalsUp k n).cores = s.cores := rfl
@[simp] theorem State.evalsUp_parts (k n : Nat) : (s.evalsUp k n).parts = s.parts := rfl
@[simp] theorem State.evalsUp_mem (k n : Nat) : (s.evalsUp k n).mem = s.mem := rfl
@[simp] theorem State.evalsUp_host (k n : Nat) : (s.evalsUp k n).host = s.host := rfl
@[simp] theorem State.evalsUp_hbms (k n : Nat) : (s.evalsUp k n).hbms = s.hbms := rfl
@[simp] theorem State.evalsUp_inds (k n : Nat) : (s.evalsUp k n).inds = s.inds := rfl
@[simp] theorem State.evalsUp_links (k n : Nat) : (s.evalsUp k n).links = s.links := rfl
@[simp] theorem State.evalsUp_welds (k n : Nat) : (s.evalsUp k n).welds = s.welds := rfl
@[simp] theorem State.evalsUp_sep (k n : Nat) : (s.evalsUp k n).sep = s.sep := rfl
@[simp] theorem State.evalsUp_och (k n : Nat) : (s.evalsUp k n).och = s.och := rfl
@[simp] theorem State.evalsUp_hif (k n : Nat) : (s.evalsUp k n).hif = s.hif := rfl
@[simp] theorem State.evalsUp_mgmt (k n : Nat) : (s.evalsUp k n).mgmt = s.mgmt := rfl
@[simp] theorem State.evalsUp_pwr (k n : Nat) : (s.evalsUp k n).pwr = s.pwr := rfl
@[simp] theorem State.evalsUp_regs (k n : Nat) : (s.evalsUp k n).regs = s.regs := rfl
@[simp] theorem State.evalsUp_latched (k n : Nat) : (s.evalsUp k n).latched = s.latched := rfl
@[simp] theorem State.evalsUp_evals (k n : Nat) : (s.evalsUp k n).evals = AMap.put 0 k (AMap.get 0 k s.evals + n) s.evals := rfl
@[simp] theorem State.evalsUp_unlocked (k n : Nat) : (s.evalsUp k n).unlocked = s.unlocked := rfl
@[simp] theorem State.evalsUp_calib (k n : Nat) : (s.evalsUp k n).calib = s.calib := rfl
@[simp] theorem State.evalsUp_away (k n : Nat) : (s.evalsUp k n).away = s.away := rfl
@[simp] theorem State.evalsUp_images (k n : Nat) : (s.evalsUp k n).images = s.images := rfl
@[simp] theorem State.evalsUp_headless (k n : Nat) : (s.evalsUp k n).headless = s.headless := rfl

theorem State.core_setCore (j k : Nat) (v : Core) : (s.setCore j v).core k = if k = j then v else s.core k := by
  unfold State.core State.setCore
  exact AMap.get_put _ j k v _
@[simp] theorem State.core_setCore_self (j : Nat) (v : Core) : (s.setCore j v).core j = v := by
  unfold State.core State.setCore
  exact AMap.get_put_self _ j v _
theorem State.core_setCore_ne {j k : Nat} (h : k ≠ j) (v : Core) : (s.setCore j v).core k = s.core k := by
  unfold State.core State.setCore
  exact AMap.get_put_ne _ _ h v _
@[simp] theorem State.setCore_setCore (j : Nat) (v w : Core) : (s.setCore j v).setCore j w = s.setCore j w := by
  simp only [State.setCore, AMap.put_put]
@[simp] theorem State.core_of_setCtx (x : Nat) (c : Ctx) (j : Nat) : (s.setCtx x c).core j = s.core j := rfl
@[simp] theorem State.core_of_setPart (p : Nat) (c : Part) (j : Nat) : (s.setPart p c).core j = s.core j := rfl
@[simp] theorem State.core_of_setStack (n : Nat) (c : Stack) (j : Nat) : (s.setStack n c).core j = s.core j := rfl
@[simp] theorem State.core_of_setInd (n : Nat) (c : Ind) (j : Nat) : (s.setInd n c).core j = s.core j := rfl
@[simp] theorem State.core_of_setLink (n : Nat) (c : Link) (j : Nat) : (s.setLink n c).core j = s.core j := rfl
@[simp] theorem State.core_of_setWeld (n : Nat) (c : Weld) (j : Nat) : (s.setWeld n c).core j = s.core j := rfl
@[simp] theorem State.core_of_setMem (m : Mem) (j : Nat) : (s.setMem m).core j = s.core j := rfl
@[simp] theorem State.core_of_setHost (m : Mem) (j : Nat) : (s.setHost m).core j = s.core j := rfl
@[simp] theorem State.core_of_setTim (t : Tim) (j : Nat) : (s.setTim t).core j = s.core j := rfl
@[simp] theorem State.core_of_setSep (t : Sepia) (j : Nat) : (s.setSep t).core j = s.core j := rfl
@[simp] theorem State.core_of_setOch (t : Ochre) (j : Nat) : (s.setOch t).core j = s.core j := rfl
@[simp] theorem State.core_of_setHif (t : Hif) (j : Nat) : (s.setHif t).core j = s.core j := rfl
@[simp] theorem State.core_of_setMgmt (t : Mgmt) (j : Nat) : (s.setMgmt t).core j = s.core j := rfl
@[simp] theorem State.core_of_setPwr (t : Pwr) (j : Nat) : (s.setPwr t).core j = s.core j := rfl
@[simp] theorem State.core_of_emit (o : Out) (j : Nat) : (s.emit o).core j = s.core j := rfl
@[simp] theorem State.core_of_draw (j : Nat) : (s.draw).core j = s.core j := rfl
@[simp] theorem State.core_of_drawN (k : Nat) (j : Nat) : (s.drawN k).core j = s.core j := rfl
@[simp] theorem State.core_of_setReg (r : Reg) (u n : Nat) (v : W32) (j : Nat) : (s.setReg r u n v).core j = s.core j := rfl
@[simp] theorem State.core_of_evalsUp (k n : Nat) (j : Nat) : (s.evalsUp k n).core j = s.core j := rfl

theorem State.ctx_setCtx (j k : Nat) (v : Ctx) : (s.setCtx j v).ctx k = if k = j then v else s.ctx k := by
  unfold State.ctx State.setCtx
  exact AMap.get_put _ j k v _
@[simp] theorem State.ctx_setCtx_self (j : Nat) (v : Ctx) : (s.setCtx j v).ctx j = v := by
  unfold State.ctx State.setCtx
  exact AMap.get_put_self _ j v _
theorem State.ctx_setCtx_ne {j k : Nat} (h : k ≠ j) (v : Ctx) : (s.setCtx j v).ctx k = s.ctx k := by
  unfold State.ctx State.setCtx
  exact AMap.get_put_ne _ _ h v _
@[simp] theorem State.setCtx_setCtx (j : Nat) (v w : Ctx) : (s.setCtx j v).setCtx j w = s.setCtx j w := by
  simp only [State.setCtx, AMap.put_put]
@[simp] theorem State.ctx_of_setCore (n : Nat) (c : Core) (j : Nat) : (s.setCore n c).ctx j = s.ctx j := rfl
@[simp] theorem State.ctx_of_setPart (p : Nat) (c : Part) (j : Nat) : (s.setPart p c).ctx j = s.ctx j := rfl
@[simp] theorem State.ctx_of_setStack (n : Nat) (c : Stack) (j : Nat) : (s.setStack n c).ctx j = s.ctx j := rfl
@[simp] theorem State.ctx_of_setInd (n : Nat) (c : Ind) (j : Nat) : (s.setInd n c).ctx j = s.ctx j := rfl
@[simp] theorem State.ctx_of_setLink (n : Nat) (c : Link) (j : Nat) : (s.setLink n c).ctx j = s.ctx j := rfl
@[simp] theorem State.ctx_of_setWeld (n : Nat) (c : Weld) (j : Nat) : (s.setWeld n c).ctx j = s.ctx j := rfl
@[simp] theorem State.ctx_of_setMem (m : Mem) (j : Nat) : (s.setMem m).ctx j = s.ctx j := rfl
@[simp] theorem State.ctx_of_setHost (m : Mem) (j : Nat) : (s.setHost m).ctx j = s.ctx j := rfl
@[simp] theorem State.ctx_of_setTim (t : Tim) (j : Nat) : (s.setTim t).ctx j = s.ctx j := rfl
@[simp] theorem State.ctx_of_setSep (t : Sepia) (j : Nat) : (s.setSep t).ctx j = s.ctx j := rfl
@[simp] theorem State.ctx_of_setOch (t : Ochre) (j : Nat) : (s.setOch t).ctx j = s.ctx j := rfl
@[simp] theorem State.ctx_of_setHif (t : Hif) (j : Nat) : (s.setHif t).ctx j = s.ctx j := rfl
@[simp] theorem State.ctx_of_setMgmt (t : Mgmt) (j : Nat) : (s.setMgmt t).ctx j = s.ctx j := rfl
@[simp] theorem State.ctx_of_setPwr (t : Pwr) (j : Nat) : (s.setPwr t).ctx j = s.ctx j := rfl
@[simp] theorem State.ctx_of_emit (o : Out) (j : Nat) : (s.emit o).ctx j = s.ctx j := rfl
@[simp] theorem State.ctx_of_draw (j : Nat) : (s.draw).ctx j = s.ctx j := rfl
@[simp] theorem State.ctx_of_drawN (k : Nat) (j : Nat) : (s.drawN k).ctx j = s.ctx j := rfl
@[simp] theorem State.ctx_of_setReg (r : Reg) (u n : Nat) (v : W32) (j : Nat) : (s.setReg r u n v).ctx j = s.ctx j := rfl
@[simp] theorem State.ctx_of_evalsUp (k n : Nat) (j : Nat) : (s.evalsUp k n).ctx j = s.ctx j := rfl

theorem State.part_setPart (j k : Nat) (v : Part) : (s.setPart j v).part k = if k = j then v else s.part k := by
  unfold State.part State.setPart
  split
  · next h => subst h; exact AMap.get_put_self _ _ v _
  · next h => exact AMap.get_put_ne _ _ h v _
@[simp] theorem State.part_setPart_self (j : Nat) (v : Part) : (s.setPart j v).part j = v := by
  unfold State.part State.setPart
  exact AMap.get_put_self _ j v _
theorem State.part_setPart_ne {j k : Nat} (h : k ≠ j) (v : Part) : (s.setPart j v).part k = s.part k := by
  unfold State.part State.setPart
  exact AMap.get_put_ne _ _ h v _
@[simp] theorem State.setPart_setPart (j : Nat) (v w : Part) : (s.setPart j v).setPart j w = s.setPart j w := by
  simp only [State.setPart, AMap.put_put]
@[simp] theorem State.part_of_setCore (n : Nat) (c : Core) (j : Nat) : (s.setCore n c).part j = s.part j := rfl
@[simp] theorem State.part_of_setCtx (x : Nat) (c : Ctx) (j : Nat) : (s.setCtx x c).part j = s.part j := rfl
@[simp] theorem State.part_of_setStack (n : Nat) (c : Stack) (j : Nat) : (s.setStack n c).part j = s.part j := rfl
@[simp] theorem State.part_of_setInd (n : Nat) (c : Ind) (j : Nat) : (s.setInd n c).part j = s.part j := rfl
@[simp] theorem State.part_of_setLink (n : Nat) (c : Link) (j : Nat) : (s.setLink n c).part j = s.part j := rfl
@[simp] theorem State.part_of_setWeld (n : Nat) (c : Weld) (j : Nat) : (s.setWeld n c).part j = s.part j := rfl
@[simp] theorem State.part_of_setMem (m : Mem) (j : Nat) : (s.setMem m).part j = s.part j := rfl
@[simp] theorem State.part_of_setHost (m : Mem) (j : Nat) : (s.setHost m).part j = s.part j := rfl
@[simp] theorem State.part_of_setTim (t : Tim) (j : Nat) : (s.setTim t).part j = s.part j := rfl
@[simp] theorem State.part_of_setSep (t : Sepia) (j : Nat) : (s.setSep t).part j = s.part j := rfl
@[simp] theorem State.part_of_setOch (t : Ochre) (j : Nat) : (s.setOch t).part j = s.part j := rfl
@[simp] theorem State.part_of_setHif (t : Hif) (j : Nat) : (s.setHif t).part j = s.part j := rfl
@[simp] theorem State.part_of_setMgmt (t : Mgmt) (j : Nat) : (s.setMgmt t).part j = s.part j := rfl
@[simp] theorem State.part_of_setPwr (t : Pwr) (j : Nat) : (s.setPwr t).part j = s.part j := rfl
@[simp] theorem State.part_of_emit (o : Out) (j : Nat) : (s.emit o).part j = s.part j := rfl
@[simp] theorem State.part_of_draw (j : Nat) : (s.draw).part j = s.part j := rfl
@[simp] theorem State.part_of_drawN (k : Nat) (j : Nat) : (s.drawN k).part j = s.part j := rfl
@[simp] theorem State.part_of_setReg (r : Reg) (u n : Nat) (v : W32) (j : Nat) : (s.setReg r u n v).part j = s.part j := rfl
@[simp] theorem State.part_of_evalsUp (k n : Nat) (j : Nat) : (s.evalsUp k n).part j = s.part j := rfl

theorem State.stack_setStack (j k : Nat) (v : Stack) : (s.setStack j v).stack k = if k = j then v else s.stack k := by
  unfold State.stack State.setStack
  exact AMap.get_put _ j k v _
@[simp] theorem State.stack_setStack_self (j : Nat) (v : Stack) : (s.setStack j v).stack j = v := by
  unfold State.stack State.setStack
  exact AMap.get_put_self _ j v _
theorem State.stack_setStack_ne {j k : Nat} (h : k ≠ j) (v : Stack) : (s.setStack j v).stack k = s.stack k := by
  unfold State.stack State.setStack
  exact AMap.get_put_ne _ _ h v _
@[simp] theorem State.setStack_setStack (j : Nat) (v w : Stack) : (s.setStack j v).setStack j w = s.setStack j w := by
  simp only [State.setStack, AMap.put_put]
@[simp] theorem State.stack_of_setCore (n : Nat) (c : Core) (j : Nat) : (s.setCore n c).stack j = s.stack j := rfl
@[simp] theorem State.stack_of_setCtx (x : Nat) (c : Ctx) (j : Nat) : (s.setCtx x c).stack j = s.stack j := rfl
@[simp] theorem State.stack_of_setPart (p : Nat) (c : Part) (j : Nat) : (s.setPart p c).stack j = s.stack j := rfl
@[simp] theorem State.stack_of_setInd (n : Nat) (c : Ind) (j : Nat) : (s.setInd n c).stack j = s.stack j := rfl
@[simp] theorem State.stack_of_setLink (n : Nat) (c : Link) (j : Nat) : (s.setLink n c).stack j = s.stack j := rfl
@[simp] theorem State.stack_of_setWeld (n : Nat) (c : Weld) (j : Nat) : (s.setWeld n c).stack j = s.stack j := rfl
@[simp] theorem State.stack_of_setMem (m : Mem) (j : Nat) : (s.setMem m).stack j = s.stack j := rfl
@[simp] theorem State.stack_of_setHost (m : Mem) (j : Nat) : (s.setHost m).stack j = s.stack j := rfl
@[simp] theorem State.stack_of_setTim (t : Tim) (j : Nat) : (s.setTim t).stack j = s.stack j := rfl
@[simp] theorem State.stack_of_setSep (t : Sepia) (j : Nat) : (s.setSep t).stack j = s.stack j := rfl
@[simp] theorem State.stack_of_setOch (t : Ochre) (j : Nat) : (s.setOch t).stack j = s.stack j := rfl
@[simp] theorem State.stack_of_setHif (t : Hif) (j : Nat) : (s.setHif t).stack j = s.stack j := rfl
@[simp] theorem State.stack_of_setMgmt (t : Mgmt) (j : Nat) : (s.setMgmt t).stack j = s.stack j := rfl
@[simp] theorem State.stack_of_setPwr (t : Pwr) (j : Nat) : (s.setPwr t).stack j = s.stack j := rfl
@[simp] theorem State.stack_of_emit (o : Out) (j : Nat) : (s.emit o).stack j = s.stack j := rfl
@[simp] theorem State.stack_of_draw (j : Nat) : (s.draw).stack j = s.stack j := rfl
@[simp] theorem State.stack_of_drawN (k : Nat) (j : Nat) : (s.drawN k).stack j = s.stack j := rfl
@[simp] theorem State.stack_of_setReg (r : Reg) (u n : Nat) (v : W32) (j : Nat) : (s.setReg r u n v).stack j = s.stack j := rfl
@[simp] theorem State.stack_of_evalsUp (k n : Nat) (j : Nat) : (s.evalsUp k n).stack j = s.stack j := rfl

theorem State.ind_setInd (j k : Nat) (v : Ind) : (s.setInd j v).ind k = if k = j then v else s.ind k := by
  unfold State.ind State.setInd
  exact AMap.get_put _ j k v _
@[simp] theorem State.ind_setInd_self (j : Nat) (v : Ind) : (s.setInd j v).ind j = v := by
  unfold State.ind State.setInd
  exact AMap.get_put_self _ j v _
theorem State.ind_setInd_ne {j k : Nat} (h : k ≠ j) (v : Ind) : (s.setInd j v).ind k = s.ind k := by
  unfold State.ind State.setInd
  exact AMap.get_put_ne _ _ h v _
@[simp] theorem State.setInd_setInd (j : Nat) (v w : Ind) : (s.setInd j v).setInd j w = s.setInd j w := by
  simp only [State.setInd, AMap.put_put]
@[simp] theorem State.ind_of_setCore (n : Nat) (c : Core) (j : Nat) : (s.setCore n c).ind j = s.ind j := rfl
@[simp] theorem State.ind_of_setCtx (x : Nat) (c : Ctx) (j : Nat) : (s.setCtx x c).ind j = s.ind j := rfl
@[simp] theorem State.ind_of_setPart (p : Nat) (c : Part) (j : Nat) : (s.setPart p c).ind j = s.ind j := rfl
@[simp] theorem State.ind_of_setStack (n : Nat) (c : Stack) (j : Nat) : (s.setStack n c).ind j = s.ind j := rfl
@[simp] theorem State.ind_of_setLink (n : Nat) (c : Link) (j : Nat) : (s.setLink n c).ind j = s.ind j := rfl
@[simp] theorem State.ind_of_setWeld (n : Nat) (c : Weld) (j : Nat) : (s.setWeld n c).ind j = s.ind j := rfl
@[simp] theorem State.ind_of_setMem (m : Mem) (j : Nat) : (s.setMem m).ind j = s.ind j := rfl
@[simp] theorem State.ind_of_setHost (m : Mem) (j : Nat) : (s.setHost m).ind j = s.ind j := rfl
@[simp] theorem State.ind_of_setTim (t : Tim) (j : Nat) : (s.setTim t).ind j = s.ind j := rfl
@[simp] theorem State.ind_of_setSep (t : Sepia) (j : Nat) : (s.setSep t).ind j = s.ind j := rfl
@[simp] theorem State.ind_of_setOch (t : Ochre) (j : Nat) : (s.setOch t).ind j = s.ind j := rfl
@[simp] theorem State.ind_of_setHif (t : Hif) (j : Nat) : (s.setHif t).ind j = s.ind j := rfl
@[simp] theorem State.ind_of_setMgmt (t : Mgmt) (j : Nat) : (s.setMgmt t).ind j = s.ind j := rfl
@[simp] theorem State.ind_of_setPwr (t : Pwr) (j : Nat) : (s.setPwr t).ind j = s.ind j := rfl
@[simp] theorem State.ind_of_emit (o : Out) (j : Nat) : (s.emit o).ind j = s.ind j := rfl
@[simp] theorem State.ind_of_draw (j : Nat) : (s.draw).ind j = s.ind j := rfl
@[simp] theorem State.ind_of_drawN (k : Nat) (j : Nat) : (s.drawN k).ind j = s.ind j := rfl
@[simp] theorem State.ind_of_setReg (r : Reg) (u n : Nat) (v : W32) (j : Nat) : (s.setReg r u n v).ind j = s.ind j := rfl
@[simp] theorem State.ind_of_evalsUp (k n : Nat) (j : Nat) : (s.evalsUp k n).ind j = s.ind j := rfl

theorem State.link_setLink (j k : Nat) (v : Link) : (s.setLink j v).link k = if k = j then v else s.link k := by
  unfold State.link State.setLink
  exact AMap.get_put _ j k v _
@[simp] theorem State.link_setLink_self (j : Nat) (v : Link) : (s.setLink j v).link j = v := by
  unfold State.link State.setLink
  exact AMap.get_put_self _ j v _
theorem State.link_setLink_ne {j k : Nat} (h : k ≠ j) (v : Link) : (s.setLink j v).link k = s.link k := by
  unfold State.link State.setLink
  exact AMap.get_put_ne _ _ h v _
@[simp] theorem State.setLink_setLink (j : Nat) (v w : Link) : (s.setLink j v).setLink j w = s.setLink j w := by
  simp only [State.setLink, AMap.put_put]
@[simp] theorem State.link_of_setCore (n : Nat) (c : Core) (j : Nat) : (s.setCore n c).link j = s.link j := rfl
@[simp] theorem State.link_of_setCtx (x : Nat) (c : Ctx) (j : Nat) : (s.setCtx x c).link j = s.link j := rfl
@[simp] theorem State.link_of_setPart (p : Nat) (c : Part) (j : Nat) : (s.setPart p c).link j = s.link j := rfl
@[simp] theorem State.link_of_setStack (n : Nat) (c : Stack) (j : Nat) : (s.setStack n c).link j = s.link j := rfl
@[simp] theorem State.link_of_setInd (n : Nat) (c : Ind) (j : Nat) : (s.setInd n c).link j = s.link j := rfl
@[simp] theorem State.link_of_setWeld (n : Nat) (c : Weld) (j : Nat) : (s.setWeld n c).link j = s.link j := rfl
@[simp] theorem State.link_of_setMem (m : Mem) (j : Nat) : (s.setMem m).link j = s.link j := rfl
@[simp] theorem State.link_of_setHost (m : Mem) (j : Nat) : (s.setHost m).link j = s.link j := rfl
@[simp] theorem State.link_of_setTim (t : Tim) (j : Nat) : (s.setTim t).link j = s.link j := rfl
@[simp] theorem State.link_of_setSep (t : Sepia) (j : Nat) : (s.setSep t).link j = s.link j := rfl
@[simp] theorem State.link_of_setOch (t : Ochre) (j : Nat) : (s.setOch t).link j = s.link j := rfl
@[simp] theorem State.link_of_setHif (t : Hif) (j : Nat) : (s.setHif t).link j = s.link j := rfl
@[simp] theorem State.link_of_setMgmt (t : Mgmt) (j : Nat) : (s.setMgmt t).link j = s.link j := rfl
@[simp] theorem State.link_of_setPwr (t : Pwr) (j : Nat) : (s.setPwr t).link j = s.link j := rfl
@[simp] theorem State.link_of_emit (o : Out) (j : Nat) : (s.emit o).link j = s.link j := rfl
@[simp] theorem State.link_of_draw (j : Nat) : (s.draw).link j = s.link j := rfl
@[simp] theorem State.link_of_drawN (k : Nat) (j : Nat) : (s.drawN k).link j = s.link j := rfl
@[simp] theorem State.link_of_setReg (r : Reg) (u n : Nat) (v : W32) (j : Nat) : (s.setReg r u n v).link j = s.link j := rfl
@[simp] theorem State.link_of_evalsUp (k n : Nat) (j : Nat) : (s.evalsUp k n).link j = s.link j := rfl

theorem State.weld_setWeld (j k : Nat) (v : Weld) : (s.setWeld j v).weld k = if k = j then v else s.weld k := by
  unfold State.weld State.setWeld
  exact AMap.get_put _ j k v _
@[simp] theorem State.weld_setWeld_self (j : Nat) (v : Weld) : (s.setWeld j v).weld j = v := by
  unfold State.weld State.setWeld
  exact AMap.get_put_self _ j v _
theorem State.weld_setWeld_ne {j k : Nat} (h : k ≠ j) (v : Weld) : (s.setWeld j v).weld k = s.weld k := by
  unfold State.weld State.setWeld
  exact AMap.get_put_ne _ _ h v _
@[simp] theorem State.setWeld_setWeld (j : Nat) (v w : Weld) : (s.setWeld j v).setWeld j w = s.setWeld j w := by
  simp only [State.setWeld, AMap.put_put]
@[simp] theorem State.weld_of_setCore (n : Nat) (c : Core) (j : Nat) : (s.setCore n c).weld j = s.weld j := rfl
@[simp] theorem State.weld_of_setCtx (x : Nat) (c : Ctx) (j : Nat) : (s.setCtx x c).weld j = s.weld j := rfl
@[simp] theorem State.weld_of_setPart (p : Nat) (c : Part) (j : Nat) : (s.setPart p c).weld j = s.weld j := rfl
@[simp] theorem State.weld_of_setStack (n : Nat) (c : Stack) (j : Nat) : (s.setStack n c).weld j = s.weld j := rfl
@[simp] theorem State.weld_of_setInd (n : Nat) (c : Ind) (j : Nat) : (s.setInd n c).weld j = s.weld j := rfl
@[simp] theorem State.weld_of_setLink (n : Nat) (c : Link) (j : Nat) : (s.setLink n c).weld j = s.weld j := rfl
@[simp] theorem State.weld_of_setMem (m : Mem) (j : Nat) : (s.setMem m).weld j = s.weld j := rfl
@[simp] theorem State.weld_of_setHost (m : Mem) (j : Nat) : (s.setHost m).weld j = s.weld j := rfl
@[simp] theorem State.weld_of_setTim (t : Tim) (j : Nat) : (s.setTim t).weld j = s.weld j := rfl
@[simp] theorem State.weld_of_setSep (t : Sepia) (j : Nat) : (s.setSep t).weld j = s.weld j := rfl
@[simp] theorem State.weld_of_setOch (t : Ochre) (j : Nat) : (s.setOch t).weld j = s.weld j := rfl
@[simp] theorem State.weld_of_setHif (t : Hif) (j : Nat) : (s.setHif t).weld j = s.weld j := rfl
@[simp] theorem State.weld_of_setMgmt (t : Mgmt) (j : Nat) : (s.setMgmt t).weld j = s.weld j := rfl
@[simp] theorem State.weld_of_setPwr (t : Pwr) (j : Nat) : (s.setPwr t).weld j = s.weld j := rfl
@[simp] theorem State.weld_of_emit (o : Out) (j : Nat) : (s.emit o).weld j = s.weld j := rfl
@[simp] theorem State.weld_of_draw (j : Nat) : (s.draw).weld j = s.weld j := rfl
@[simp] theorem State.weld_of_drawN (k : Nat) (j : Nat) : (s.drawN k).weld j = s.weld j := rfl
@[simp] theorem State.weld_of_setReg (r : Reg) (u n : Nat) (v : W32) (j : Nat) : (s.setReg r u n v).weld j = s.weld j := rfl
@[simp] theorem State.weld_of_evalsUp (k n : Nat) (j : Nat) : (s.evalsUp k n).weld j = s.weld j := rfl
@[simp] theorem State.reg_of_setCore (n : Nat) (c : Core) (q : Reg) (i j : Nat) : (s.setCore n c).reg q i j = s.reg q i j := rfl
@[simp] theorem State.reg_of_setCtx (x : Nat) (c : Ctx) (q : Reg) (i j : Nat) : (s.setCtx x c).reg q i j = s.reg q i j := rfl
@[simp] theorem State.reg_of_setPart (p : Nat) (c : Part) (q : Reg) (i j : Nat) : (s.setPart p c).reg q i j = s.reg q i j := rfl
@[simp] theorem State.reg_of_setStack (n : Nat) (c : Stack) (q : Reg) (i j : Nat) : (s.setStack n c).reg q i j = s.reg q i j := rfl
@[simp] theorem State.reg_of_setInd (n : Nat) (c : Ind) (q : Reg) (i j : Nat) : (s.setInd n c).reg q i j = s.reg q i j := rfl
@[simp] theorem State.reg_of_setLink (n : Nat) (c : Link) (q : Reg) (i j : Nat) : (s.setLink n c).reg q i j = s.reg q i j := rfl
@[simp] theorem State.reg_of_setWeld (n : Nat) (c : Weld) (q : Reg) (i j : Nat) : (s.setWeld n c).reg q i j = s.reg q i j := rfl
@[simp] theorem State.reg_of_setMem (m : Mem) (q : Reg) (i j : Nat) : (s.setMem m).reg q i j = s.reg q i j := rfl
@[simp] theorem State.reg_of_setHost (m : Mem) (q : Reg) (i j : Nat) : (s.setHost m).reg q i j = s.reg q i j := rfl
@[simp] theorem State.reg_of_setTim (t : Tim) (q : Reg) (i j : Nat) : (s.setTim t).reg q i j = s.reg q i j := rfl
@[simp] theorem State.reg_of_setSep (t : Sepia) (q : Reg) (i j : Nat) : (s.setSep t).reg q i j = s.reg q i j := rfl
@[simp] theorem State.reg_of_setOch (t : Ochre) (q : Reg) (i j : Nat) : (s.setOch t).reg q i j = s.reg q i j := rfl
@[simp] theorem State.reg_of_setHif (t : Hif) (q : Reg) (i j : Nat) : (s.setHif t).reg q i j = s.reg q i j := rfl
@[simp] theorem State.reg_of_setMgmt (t : Mgmt) (q : Reg) (i j : Nat) : (s.setMgmt t).reg q i j = s.reg q i j := rfl
@[simp] theorem State.reg_of_setPwr (t : Pwr) (q : Reg) (i j : Nat) : (s.setPwr t).reg q i j = s.reg q i j := rfl
@[simp] theorem State.reg_of_emit (o : Out) (q : Reg) (i j : Nat) : (s.emit o).reg q i j = s.reg q i j := rfl
@[simp] theorem State.reg_of_draw (q : Reg) (i j : Nat) : (s.draw).reg q i j = s.reg q i j := rfl
@[simp] theorem State.reg_of_drawN (k : Nat) (q : Reg) (i j : Nat) : (s.drawN k).reg q i j = s.reg q i j := rfl
@[simp] theorem State.reg_of_evalsUp (k n : Nat) (q : Reg) (i j : Nat) : (s.evalsUp k n).reg q i j = s.reg q i j := rfl

@[simp] theorem State.reg_setReg_self (r : Reg) (u n : Nat) (v : W32) : (s.setReg r u n v).reg r u n = v := by
  unfold State.reg State.setReg
  exact AMap.get_put_self _ _ v _
theorem State.reg_setReg_ne {q r : Reg} {i j u n : Nat} (h : q.addr i j ≠ r.addr u n) (v : W32) : (s.setReg r u n v).reg q i j = s.reg q i j :=
  by unfold State.reg State.setReg; exact AMap.get_put_ne _ _ h v _

end Sys2Proof.Machine
end

