-- ==== Sys2Proof/Laws/Issue.lean ====
section
/-! SUPPORT. What a slot of a wide instruction does once it issues: the cases of `issue`, said once, and register files after a write. -/

namespace Sys2Proof.Machine

/-! ## Register files -/

@[simp] theorem Core.sreg_zero (c : Core) : c.sreg 0 = (0, false) := rfl
@[simp] theorem Core.preg_zero (c : Core) : c.preg 0 = (BitVec.allOnes 64, false) := rfl

/-- s0 ignores writes and reads zero; every other scalar register reads what was last written (R246). -/
theorem Core.sreg_putReg_s (c : Core) (r k : Nat) (v : W64) (po : Bool) :
    (c.putReg (.s r v po)).sreg k = if k = r ∧ r ≠ 0 then (v, po) else c.sreg k := by
  by_cases h0 : r = 0
  · subst h0
    simp [Core.putReg]
  · simp only [Core.putReg, Core.sreg, if_neg h0]
    by_cases hk : k = 0
    · simp [hk, Ne.symm h0]
    · rw [if_neg hk, if_neg hk, AMap.get_put]
      simp [h0]

theorem Core.preg_putReg_p (c : Core) (r k : Nat) (v : W64) (po : Bool) :
    (c.putReg (.p r v po)).preg k = if k = r ∧ r ≠ 0 then (v, po) else c.preg k := by
  by_cases h0 : r = 0
  · subst h0
    simp [Core.putReg]
  · simp only [Core.putReg, Core.preg, if_neg h0]
    by_cases hk : k = 0
    · simp [hk, Ne.symm h0]
    · rw [if_neg hk, if_neg hk, AMap.get_put]
      simp [h0]

theorem Core.vreg_putReg_v (c : Core) (r k : Nat) (l : List Lane) :
    (c.putReg (.v r l)).vreg k = if k = r then l else c.vreg k := by
  unfold Core.putReg Core.vreg
  exact AMap.get_put _ _ _ _ _

theorem Core.treg_putReg_t (c : Core) (r k : Nat) (d : BitVec 256) (po : Bool) :
    (c.putReg (.t r d po)).treg k = if k = r then (d, po) else c.treg k := by
  unfold Core.putReg Core.treg
  exact AMap.get_put _ _ _ _ _

@[simp] theorem Core.sreg_wait (c : Core) (w : Wait) (r : Nat) : Core.sreg { c with wait := w } r = c.sreg r := rfl
@[simp] theorem Core.preg_wait (c : Core) (w : Wait) (r : Nat) : Core.preg { c with wait := w } r = c.preg r := rfl
@[simp] theorem Core.vreg_wait (c : Core) (w : Wait) (r : Nat) : Core.vreg { c with wait := w } r = c.vreg r := rfl
@[simp] theorem Core.lane_wait (c : Core) (w : Wait) (r l : Nat) : Core.lane { c with wait := w } r l = c.lane r l := rfl
@[simp] theorem Core.treg_wait (c : Core) (w : Wait) (r : Nat) : Core.treg { c with wait := w } r = c.treg r := rfl
@[simp] theorem Core.active_wait (c : Core) (w : Wait) (i : Issue) (l : Nat) : Core.active { c with wait := w } i l = c.active i l := rfl
@[simp] theorem Core.gate_wait (c : Core) (w : Wait) (k : Cls) : Core.gate { c with wait := w } k = c.gate k := rfl

/-! ## One slot -/

@[simp] theorem State.woken_core (s : State) (n : Nat) : (s.woken n).core n = { s.core n with wait := .none } := by
  simp [State.woken]

/-- The fields of a slot described. -/
@[simp] theorem slotCmd_i (i : Issue) (slot op : Nat) (k : Cls) (vec legal : Bool) (body : State → Nat → Nat → SlotRes) :
    (slotCmd i slot op k vec legal body).i = i := rfl

variable {q : Slot} {s : State} {x : Nat}

/-- A legal slot whose predicate lets it run, past the gate of its class, does what its body says. -/
theorem Slot.eval_body (hl : q.legal = true) (hp : ((s.core q.i.k.key).preg q.i.pred.val).2 = false)
    (hr : q.vec = true ∨ (((s.core q.i.k.key).preg q.i.pred.val).1.getLsbD 0 != q.i.pneg) = true)
    (hg : (s.core q.i.k.key).gate q.cls = none) : q.eval s x = q.body s q.i.k.key x := by
  have h1 : ((s.core q.i.k.key).slotPred q.i).2 = false := hp
  have h2 : (!q.vec && !((s.core q.i.k.key).slotPred q.i).1) = false := by
    rcases hr with hr | hr
    · simp [hr]
    · simp only [Core.slotPred, hr, Bool.not_true, Bool.and_false]
  unfold Slot.eval
  simp only [hl, h1, h2, hg, Bool.not_true, Bool.false_eq_true, if_false]

/-- A legal slot, no V slot, whose predicate does not let it run does nothing (R276). -/
theorem Slot.eval_skip (hl : q.legal = true) (hv : q.vec = false) (hp : ((s.core q.i.k.key).preg q.i.pred.val).2 = false)
    (hr : (((s.core q.i.k.key).preg q.i.pred.val).1.getLsbD 0 != q.i.pneg) = false) : q.eval s x = .done s [] none := by
  have h1 : (s.core q.i.k.key).slotPred q.i = (false, false) := Prod.ext hr hp
  unfold Slot.eval
  simp [hl, hv, h1]

/-- A slot that does not pass the checks of R275 has the status ILLEGAL_INSTRUCTION. -/
theorem Slot.eval_illegal (hl : q.legal = false) : q.eval s x = .status stIllegal true := by
  simp [Slot.eval, hl]

/-! ## A wide instruction of one slot -/

/-- The core after a wide instruction whose slots write `ws` and branch to `t` (R244, R281). -/
def Core.ended (c : Core) (w : BitVec 12) (ws : List RegW) (t : Option (BitVec 12)) : Core :=
  { c.putRegs ws with word := [], pc := t.getD (w + 1) }

/-- A wide instruction of one slot that takes effect: the state that the slot leaves, with its register writes and the next PC. -/
theorem runWord_done {n : Nat} {s1 : State} {ws : List RegW} {t : Option (BitVec 12)}
    (hb : (s.core n).badWords.contains (s.core n).pc.toNat = false) (he : q.eval (s.woken n) x = .done s1 ws t)
    (hc : clash ws = false) (hh : ((s1.core n).ended (s.core n).pc ws t).halted = false) :
    runWord n x [q] s = s1.setCore n ((s1.core n).ended (s.core n).pc ws t) := by
  have ho : slotOrder [q] = [q] := rfl
  have hh' : ((s1.core n).putRegs ws).halted = false := hh
  unfold runWord
  simp only [hb, ho, List.map_cons, List.map_nil, he, List.filterMap_cons, List.filterMap_nil, List.findSome?_cons, List.findSome?_nil,
    SlotRes.refused, SlotRes.found, SlotRes.writes, SlotRes.waits, clashAt, List.nil_append, hc, List.foldl_cons, List.foldl_nil,
    WordRun.perform, WordRun.finish, Core.ended, State.core_setCore_self, Bool.false_eq_true, if_false, hh', Option.or_none]

/-- A wide instruction of one slot that waits: nothing but what its core waits for changes (R244). -/
theorem runWord_wait {n : Nat} {w : Wait} (hb : (s.core n).badWords.contains (s.core n).pc.toNat = false)
    (he : q.eval (s.woken n) x = .wait w) :
    runWord n x [q] s = s.setCore n { s.core n with wait := (s.core n).wait.renew w } := by
  have ho : slotOrder [q] = [q] := rfl
  unfold runWord
  simp only [hb, ho, List.map_cons, List.map_nil, he, List.filterMap_cons, List.filterMap_nil, List.findSome?_cons,
    SlotRes.refused, SlotRes.found, SlotRes.writes, SlotRes.waits, clashAt, Bool.false_eq_true, if_false, List.append_nil, clash]

/-- A wide instruction of one slot with a status found at issue: it has no effect, and the status is raised (R275, R301). -/
theorem runWord_refused {n : Nat} {code : Nat} (hb : (s.core n).badWords.contains (s.core n).pc.toNat = false)
    (he : q.eval (s.woken n) x = .status code true) :
    runWord n x [q] s = ((s.woken n).setCore n { s.core n with wait := .none, word := [] }).raiseAll n x (s.core n).pc
      [{ slot := q.slot, op := q.op, code := code, atIssue := true, tag := (s.core n).cur }] := by
  have ho : slotOrder [q] = [q] := rfl
  unfold runWord
  simp only [hb, ho, List.map_cons, List.map_nil, he, List.filterMap_cons, List.filterMap_nil, SlotRes.refused, SlotRes.found,
    List.foldl_cons, List.foldl_nil, noteRefused, Bool.false_eq_true, if_false, if_true, State.woken_core]

/-- A slot command that is the only slot of its wide instruction, on a core that issues. -/
theorem slotRun_one {c : Instr} (hf : s.coreState q.i.k.key ≠ .fused) (hx : s.issuer q.i.k.key = some x)
    (hw : (s.core q.i.k.key).word = []) (hm : q.i.more = false) : slotRun c q s = .next (runWord q.i.k.key x [q] s) := by
  unfold slotRun wideCmd
  simp [hf, hx, hw, hm]

/-- A slot command that others of its wide instruction follow is collected. -/
theorem slotRun_more {c : Instr} (hf : s.coreState q.i.k.key ≠ .fused) (hx : s.issuer q.i.k.key = some x) (hm : q.i.more = true) :
    slotRun c q s = .next (s.setCore q.i.k.key { s.core q.i.k.key with
      word := (s.core q.i.k.key).word.filter (fun p => (slotOf p).any (fun r => r.slot != q.slot)) ++ [c] }) := by
  unfold slotRun wideCmd
  simp [hf, hx, hm]

/-- A core that does not issue takes no slot. -/
theorem slotRun_idle {c : Instr} (hf : s.coreState q.i.k.key ≠ .fused) (hx : s.issuer q.i.k.key = none) : slotRun c q s = .next s := by
  unfold slotRun wideCmd
  simp [hf, hx]

end Sys2Proof.Machine
end

