-- ==== Sys2Proof/Laws/Memory.lean ====
section
/-! SUPPORT. Memories: reading after writing, what a write leaves alone, and the canonical form kept by every operation. -/

namespace Sys2Proof.Machine

/-! ## One byte -/

@[simp] theorem Mem.byte_setPo (m : Mem) (u a : Nat) (b : Bool) : (m.setPo u b).byte a = m.byte a := rfl

theorem Mem.byte_setByte (m : Mem) (a k : Nat) (b : Byte) : (m.setByte a b).byte k = if k = a then b else m.byte k :=
  AMap.get_put 0 a k b m.bytes

@[simp] theorem Mem.byte_markUnits (u : AMap (Bool × Nat)) (m : Mem) (a : Nat) : (m.markUnits u).byte a = m.byte a := by
  induction u generalizing m with
  | nil => rfl
  | cons e t ih =>
    obtain ⟨u, c⟩ := e
    simp only [Mem.markUnits, ih]
    split
    · rfl
    · split <;> rfl

/-- Bytes written from an address are read back there, and no other byte changes. -/
theorem Mem.byte_setBytes (l : List Byte) (m : Mem) (a k : Nat) :
    (m.setBytes a l).byte k = if a ≤ k ∧ k < a + l.length then l.getD (k - a) 0 else m.byte k := by
  induction l generalizing m a with
  | nil => simp [Mem.setBytes, show ¬ (a ≤ k ∧ k < a) by omega]
  | cons b t ih =>
    simp only [Mem.setBytes, ih, Mem.byte_setByte, List.length_cons]
    by_cases h1 : a + 1 ≤ k ∧ k < a + 1 + t.length
    · have h2 : a ≤ k ∧ k < a + (t.length + 1) := by omega
      have h3 : k - a = (k - (a + 1)) + 1 := by omega
      rw [if_pos h1, if_pos h2, h3, List.getD_cons_succ]
    · rw [if_neg h1]
      by_cases h2 : k = a
      · subst h2
        simp
      · rw [if_neg h2, if_neg (show ¬ (a ≤ k ∧ k < a + (t.length + 1)) by omega)]

/-- What was written from an address is what is read back there. -/
theorem Mem.read_setBytes (l : List Byte) (m : Mem) (a : Nat) : (m.setBytes a l).read a l.length = l := by
  apply List.ext_getElem (by simp [Mem.read])
  intro i h1 h2
  simp [Mem.read, Mem.byte_setBytes, h2]

/-- Bytes written leave the poison of every unit and the errors of the memory alone. -/
@[simp] theorem Mem.poison_setBytes (l : List Byte) (m : Mem) (a : Nat) : (m.setBytes a l).poison = m.poison := by
  induction l generalizing m a with
  | nil => rfl
  | cons b t ih => exact ih _ _

/-- The bytes that a list of pieces writes. -/
def inPieces (ps : List Piece) (k : Nat) : Prop := ∃ p ∈ ps, p.addr ≤ k ∧ k < p.addr + p.data.length

theorem Mem.byte_foldl_setBytes_out (ps : List Piece) (m : Mem) (k : Nat) (h : ¬ inPieces ps k) :
    (ps.foldl (fun m p => m.setBytes p.addr p.data) m).byte k = m.byte k := by
  induction ps generalizing m with
  | nil => rfl
  | cons p t ih =>
    have hp : ¬ (p.addr ≤ k ∧ k < p.addr + p.data.length) := fun hk => h ⟨p, List.mem_cons_self .., hk⟩
    have ht : ¬ inPieces t k := fun ⟨q, hq, hk⟩ => h ⟨q, List.mem_cons_of_mem _ hq, hk⟩
    rw [List.foldl_cons, ih _ ht, Mem.byte_setBytes, if_neg hp]

/-- A unit that is settled keeps its bytes. -/
@[simp] theorem Mem.byte_settle (m : Mem) (u a : Nat) : (m.settle u).byte a = m.byte a := by
  unfold Mem.settle
  split <;> rfl

@[simp] theorem Mem.byte_foldl_settle (l : AMap (Bool × Nat)) (m : Mem) (a : Nat) :
    (l.foldl (fun m e => m.settle e.1) m).byte a = m.byte a := by
  induction l generalizing m with
  | nil => rfl
  | cons e t ih => rw [List.foldl_cons, ih, Mem.byte_settle]

/-- A write leaves every byte outside its pieces alone. -/
theorem Mem.byte_write_out (m : Mem) (ps : List Piece) (k : Nat) (h : ¬ inPieces ps k) : (m.write ps).byte k = m.byte k := by
  unfold Mem.write
  rw [Mem.byte_markUnits, Mem.byte_foldl_setBytes_out ps _ k h, Mem.byte_foldl_settle]

/-- A write of one piece is read back. -/
theorem Mem.byte_write_one (m : Mem) (p : Piece) (k : Nat) :
    (m.write [p]).byte k = if p.addr ≤ k ∧ k < p.addr + p.data.length then p.data.getD (k - p.addr) 0 else m.byte k := by
  unfold Mem.write
  rw [Mem.byte_markUnits, List.foldl_cons, List.foldl_nil, Mem.byte_setBytes, Mem.byte_foldl_settle]

/-! ## The canonical form -/

theorem Mem.wf_mk {b : AMap Byte} {p : AMap Bool} {e : AMap (List (Nat × Byte))} (hb : AMap.wf 0 b = true) (hp : AMap.wf false p = true)
    (he : AMap.wf [] e = true) : Mem.wf { bytes := b, poison := p, errs := e } = true := by
  unfold Mem.wf
  rw [hb, hp, he]
  rfl

theorem Mem.wf_bytes {m : Mem} (h : m.wf = true) : AMap.wf 0 m.bytes = true := by
  simp only [Mem.wf, Bool.and_eq_true] at h
  exact h.1.1

theorem Mem.wf_poison {m : Mem} (h : m.wf = true) : AMap.wf false m.poison = true := by
  simp only [Mem.wf, Bool.and_eq_true] at h
  exact h.1.2

theorem Mem.wf_errs {m : Mem} (h : m.wf = true) : AMap.wf [] m.errs = true := by
  simp only [Mem.wf, Bool.and_eq_true] at h
  exact h.2

@[simp] theorem Mem.wf_empty : Mem.wf {} = true := rfl

theorem Mem.wf_setByte {m : Mem} (h : m.wf = true) (a : Nat) (b : Byte) : (m.setByte a b).wf = true :=
  Mem.wf_mk (AMap.wf_put 0 a b (Mem.wf_bytes h)) (Mem.wf_poison h) (Mem.wf_errs h)

@[simp] theorem Mem.wf_setPo {m : Mem} (h : m.wf = true) (u : Nat) (b : Bool) : (m.setPo u b).wf = true :=
  Mem.wf_mk (Mem.wf_bytes h) (AMap.wf_put false u b (Mem.wf_poison h)) (Mem.wf_errs h)

theorem Mem.wf_setBytes (l : List Byte) {m : Mem} (h : m.wf = true) (a : Nat) : (m.setBytes a l).wf = true := by
  induction l generalizing m a with
  | nil => exact h
  | cons b t ih => exact ih (Mem.wf_setByte h a b) (a + 1)

theorem Mem.wf_markUnits (u : AMap (Bool × Nat)) {m : Mem} (h : m.wf = true) : (m.markUnits u).wf = true := by
  induction u generalizing m with
  | nil => exact h
  | cons e t ih =>
    obtain ⟨u, c⟩ := e
    unfold Mem.markUnits
    apply ih
    split
    · exact Mem.wf_setPo h _ _
    · split
      · exact Mem.wf_setPo h _ _
      · exact h

theorem Mem.wf_foldl {β : Type} (f : Mem → β → Mem) (hf : ∀ m b, m.wf = true → (f m b).wf = true) (l : List β) {m : Mem}
    (h : m.wf = true) : (l.foldl f m).wf = true := by
  induction l generalizing m with
  | nil => exact h
  | cons b t ih => exact ih (hf m b h)

/-- A unit that is settled leaves the canonical form. -/
@[simp] theorem Mem.wf_settle {m : Mem} (h : m.wf = true) (u : Nat) : (m.settle u).wf = true := by
  unfold Mem.settle
  split
  · exact h
  · refine Mem.wf_mk (Mem.wf_bytes h) ?_ (AMap.wf_put [] u [] (Mem.wf_errs h))
    split
    · exact AMap.wf_put false u true (Mem.wf_poison h)
    · exact Mem.wf_poison h

theorem Mem.wf_setErrs {m : Mem} (h : m.wf = true) (u : Nat) (e : List (Nat × Byte)) : (m.setErrs u e).wf = true :=
  Mem.wf_mk (Mem.wf_bytes h) (Mem.wf_poison h) (AMap.wf_put [] u e (Mem.wf_errs h))

theorem Mem.wf_addSyms {m : Mem} (h : m.wf = true) (u : Nat) (l : List (Nat × Byte)) : (m.addSyms u l).wf = true := by
  refine Mem.wf_foldl _ (fun m x hm => ?_) l h
  split
  · exact Mem.wf_setByte hm _ _
  · split
    · exact Mem.wf_setPo hm _ _
    · exact hm

/-- An upset keeps the canonical form. -/
@[simp] theorem Mem.wf_upset {m : Mem} (h : m.wf = true) (u sym : Nat) (v : Byte) : (m.upset u sym v).wf = true := by
  unfold Mem.upset
  extract_lets old b e m1
  split
  · exact Mem.wf_setErrs h u e
  · exact Mem.wf_addSyms (Mem.wf_setErrs h u []) u e
  · next c _ =>
    split
    · exact Mem.wf_setErrs h u e
    · exact Mem.wf_addSyms (Mem.wf_addSyms (Mem.wf_setErrs h u c) u e) u c

/-- Moving every byte to a new address leaves the canonical form. -/
@[simp] theorem Mem.wf_move (m : Mem) (f : Nat → Nat) : (m.move f).wf = true := by
  have aux : ∀ {α : Type} [DecidableEq α] (d : α) (g : Nat → Nat) (l : AMap α) (acc : AMap α), AMap.wf d acc = true →
      AMap.wf d (l.foldl (fun l e => AMap.put d (g e.1) e.2 l) acc) = true := by
    intro α _ d g l
    induction l with
    | nil => exact fun _ h => h
    | cons e t ih => exact fun acc h => ih _ (AMap.wf_put d (g e.1) e.2 h)
  exact Mem.wf_mk (aux 0 f m.bytes [] rfl) (aux false (fun u => f (64 * u) / 64) m.poison [] rfl) (aux [] (fun u => f (64 * u) / 64) m.errs [] rfl)

/-- A write keeps the canonical form. -/
@[simp] theorem Mem.wf_write {m : Mem} (h : m.wf = true) (ps : List Piece) : (m.write ps).wf = true := by
  unfold Mem.write
  exact Mem.wf_markUnits _ (Mem.wf_foldl _ (fun m p hm => Mem.wf_setBytes p.data hm p.addr) ps
    (Mem.wf_foldl _ (fun m e hm => Mem.wf_settle hm e.1) (coverOf ps) h))

/-- Clearing a range keeps the canonical form. -/
@[simp] theorem Mem.wf_clearRange {m : Mem} (h : m.wf = true) (lo hi : Nat) : (m.clearRange lo hi).wf = true :=
  Mem.wf_mk (AMap.wf_filter 0 _ (Mem.wf_bytes h)) (AMap.wf_filter false _ (Mem.wf_poison h)) (AMap.wf_filter [] _ (Mem.wf_errs h))

theorem Mem.wf_reset : State.reset.mem.wf = true ∧ State.reset.host.wf = true := ⟨rfl, rfl⟩

end Sys2Proof.Machine
end

