-- ==== Sys2Proof/Laws/Kept/Base.lean ====
section
/-! SUPPORT. What every operation of the block keeps: the queue of waiting commands, the variant and the serial of the part, and the
canonical form of the memories. One lemma for each operation says so; `Kept r s` reads: `s` has kept what `r` holds. -/

namespace Sys2Proof.Machine

/-- The state `s` has the queue, the variant and the serial of `r`, and its memories are canonical. -/
structure Kept (r s : State) : Prop where
  pending : s.pending = r.pending
  variant : s.variant = r.variant
  serial : s.serial = r.serial
  mem : s.mem.wf = true
  host : s.host.wf = true

/-- The same of an outcome that is a next state. -/
def KeptOut (r : State) : Host.Outcome State Fault Refusal → Prop
  | .next s => Kept r s
  | .fault _ => True
  | .refused _ => True

/-- The same of an operation that may answer nothing. -/
def KeptOpt (r : State) : Option State → Prop
  | some s => Kept r s
  | none => True

variable {r s : State}

theorem Kept.refl (hm : s.mem.wf = true) (hh : s.host.wf = true) : Kept s s := ⟨rfl, rfl, rfl, hm, hh⟩

@[simp] theorem keptOut_next : KeptOut r (.next s) ↔ Kept r s := Iff.rfl
@[simp] theorem keptOut_fault (f : Fault) : KeptOut r (.fault f) := trivial
@[simp] theorem keptOpt_some : KeptOpt r (some s) ↔ Kept r s := Iff.rfl
@[simp] theorem keptOpt_none : KeptOpt r none := trivial

theorem KeptOpt.get {o : Option State} (h : KeptOpt r o) {t : State} (e : o = some t) : Kept r t := by
  rw [e] at h
  exact h

theorem Kept.congr {a b : State} (h : Kept r a) (e : a = b) : Kept r b := e ▸ h

@[simp] theorem kept_ite (c : Prop) [Decidable c] (a b : State) :
    Kept r (if c then a else b) ↔ if c then Kept r a else Kept r b := by
  split <;> rfl
@[simp] theorem keptOut_ite (c : Prop) [Decidable c] (a b : Host.Outcome State Fault Refusal) :
    KeptOut r (if c then a else b) ↔ if c then KeptOut r a else KeptOut r b := by
  split <;> rfl
@[simp] theorem keptOpt_ite (c : Prop) [Decidable c] (a b : Option State) :
    KeptOpt r (if c then a else b) ↔ if c then KeptOpt r a else KeptOpt r b := by
  split <;> rfl
@[simp] theorem kept_ite_fst {β : Type} (c : Prop) [Decidable c] (a b : State × β) :
    Kept r (if c then a else b).1 ↔ if c then Kept r a.1 else Kept r b.1 := by
  split <;> rfl

theorem Kept.foldl {β : Type} (f : State → β → State) (hf : ∀ s b, Kept r s → Kept r (f s b)) (l : List β) (h : Kept r s) :
    Kept r (l.foldl f s) := by
  induction l generalizing s with
  | nil => exact h
  | cons b t ih => exact ih (hf s b h)

theorem Kept.foldl_fst {β γ : Type} (f : State × γ → β → State × γ) (hf : ∀ s b, Kept r s.1 → Kept r (f s b).1) (l : List β)
    {p : State × γ} (h : Kept r p.1) : Kept r (l.foldl f p).1 := by
  induction l generalizing p with
  | nil => exact h
  | cons b t ih => exact ih (hf p b h)


/-! ## The setters -/

@[simp] theorem kept_setCore (n : Nat) (c : Core) : Kept r (s.setCore n c) ↔ Kept r s := ⟨fun ⟨a, b, c, d, e⟩ => ⟨a, b, c, d, e⟩, fun ⟨a, b, c, d, e⟩ => ⟨a, b, c, d, e⟩⟩
@[simp] theorem kept_setCtx (x : Nat) (c : Ctx) : Kept r (s.setCtx x c) ↔ Kept r s := ⟨fun ⟨a, b, c, d, e⟩ => ⟨a, b, c, d, e⟩, fun ⟨a, b, c, d, e⟩ => ⟨a, b, c, d, e⟩⟩
@[simp] theorem kept_setPart (p : Nat) (c : Part) : Kept r (s.setPart p c) ↔ Kept r s := ⟨fun ⟨a, b, c, d, e⟩ => ⟨a, b, c, d, e⟩, fun ⟨a, b, c, d, e⟩ => ⟨a, b, c, d, e⟩⟩
@[simp] theorem kept_setStack (n : Nat) (c : Stack) : Kept r (s.setStack n c) ↔ Kept r s := ⟨fun ⟨a, b, c, d, e⟩ => ⟨a, b, c, d, e⟩, fun ⟨a, b, c, d, e⟩ => ⟨a, b, c, d, e⟩⟩
@[simp] theorem kept_setInd (n : Nat) (c : Ind) : Kept r (s.setInd n c) ↔ Kept r s := ⟨fun ⟨a, b, c, d, e⟩ => ⟨a, b, c, d, e⟩, fun ⟨a, b, c, d, e⟩ => ⟨a, b, c, d, e⟩⟩
@[simp] theorem kept_setLink (n : Nat) (c : Link) : Kept r (s.setLink n c) ↔ Kept r s := ⟨fun ⟨a, b, c, d, e⟩ => ⟨a, b, c, d, e⟩, fun ⟨a, b, c, d, e⟩ => ⟨a, b, c, d, e⟩⟩
@[simp] theorem kept_setWeld (n : Nat) (c : Weld) : Kept r (s.setWeld n c) ↔ Kept r s := ⟨fun ⟨a, b, c, d, e⟩ => ⟨a, b, c, d, e⟩, fun ⟨a, b, c, d, e⟩ => ⟨a, b, c, d, e⟩⟩
@[simp] theorem kept_setTim (t : Tim) : Kept r (s.setTim t) ↔ Kept r s := ⟨fun ⟨a, b, c, d, e⟩ => ⟨a, b, c, d, e⟩, fun ⟨a, b, c, d, e⟩ => ⟨a, b, c, d, e⟩⟩
@[simp] theorem kept_setSep (t : Sepia) : Kept r (s.setSep t) ↔ Kept r s := ⟨fun ⟨a, b, c, d, e⟩ => ⟨a, b, c, d, e⟩, fun ⟨a, b, c, d, e⟩ => ⟨a, b, c, d, e⟩⟩
@[simp] theorem kept_setOch (t : Ochre) : Kept r (s.setOch t) ↔ Kept r s := ⟨fun ⟨a, b, c, d, e⟩ => ⟨a, b, c, d, e⟩, fun ⟨a, b, c, d, e⟩ => ⟨a, b, c, d, e⟩⟩
@[simp] theorem kept_setHif (t : Hif) : Kept r (s.setHif t) ↔ Kept r s := ⟨fun ⟨a, b, c, d, e⟩ => ⟨a, b, c, d, e⟩, fun ⟨a, b, c, d, e⟩ => ⟨a, b, c, d, e⟩⟩
@[simp] theorem kept_setMgmt (t : Mgmt) : Kept r (s.setMgmt t) ↔ Kept r s := ⟨fun ⟨a, b, c, d, e⟩ => ⟨a, b, c, d, e⟩, fun ⟨a, b, c, d, e⟩ => ⟨a, b, c, d, e⟩⟩
@[simp] theorem kept_setPwr (t : Pwr) : Kept r (s.setPwr t) ↔ Kept r s := ⟨fun ⟨a, b, c, d, e⟩ => ⟨a, b, c, d, e⟩, fun ⟨a, b, c, d, e⟩ => ⟨a, b, c, d, e⟩⟩
@[simp] theorem kept_emit (o : Out) : Kept r (s.emit o) ↔ Kept r s := ⟨fun ⟨a, b, c, d, e⟩ => ⟨a, b, c, d, e⟩, fun ⟨a, b, c, d, e⟩ => ⟨a, b, c, d, e⟩⟩
@[simp] theorem kept_draw : Kept r (s.draw) ↔ Kept r s := ⟨fun ⟨a, b, c, d, e⟩ => ⟨a, b, c, d, e⟩, fun ⟨a, b, c, d, e⟩ => ⟨a, b, c, d, e⟩⟩
@[simp] theorem kept_drawN (k : Nat) : Kept r (s.drawN k) ↔ Kept r s := ⟨fun ⟨a, b, c, d, e⟩ => ⟨a, b, c, d, e⟩, fun ⟨a, b, c, d, e⟩ => ⟨a, b, c, d, e⟩⟩
@[simp] theorem kept_setReg (x : Reg) (u n : Nat) (v : W32) : Kept r (s.setReg x u n v) ↔ Kept r s := ⟨fun ⟨a, b, c, d, e⟩ => ⟨a, b, c, d, e⟩, fun ⟨a, b, c, d, e⟩ => ⟨a, b, c, d, e⟩⟩
@[simp] theorem kept_setFld (x : Reg) (u n hi lo v : Nat) : Kept r (s.setFld x u n hi lo v) ↔ Kept r s := ⟨fun ⟨a, b, c, d, e⟩ => ⟨a, b, c, d, e⟩, fun ⟨a, b, c, d, e⟩ => ⟨a, b, c, d, e⟩⟩
@[simp] theorem kept_orReg (x : Reg) (u n : Nat) (m : W32) : Kept r (s.orReg x u n m) ↔ Kept r s := ⟨fun ⟨a, b, c, d, e⟩ => ⟨a, b, c, d, e⟩, fun ⟨a, b, c, d, e⟩ => ⟨a, b, c, d, e⟩⟩
@[simp] theorem kept_bump (x : Reg) (u n k : Nat) : Kept r (s.bump x u n k) ↔ Kept r s := ⟨fun ⟨a, b, c, d, e⟩ => ⟨a, b, c, d, e⟩, fun ⟨a, b, c, d, e⟩ => ⟨a, b, c, d, e⟩⟩
@[simp] theorem kept_setQueue (q : Nat) (v : Queue) : Kept r (s.setQueue q v) ↔ Kept r s := ⟨fun ⟨a, b, c, d, e⟩ => ⟨a, b, c, d, e⟩, fun ⟨a, b, c, d, e⟩ => ⟨a, b, c, d, e⟩⟩
@[simp] theorem kept_setCoreState (n : Nat) (c : CoreState) : Kept r (s.setCoreState n c) ↔ Kept r s := ⟨fun ⟨a, b, c, d, e⟩ => ⟨a, b, c, d, e⟩, fun ⟨a, b, c, d, e⟩ => ⟨a, b, c, d, e⟩⟩
@[simp] theorem Kept.setMem (h : Kept r s) {m : Mem} (hm : m.wf = true) : Kept r (s.setMem m) :=
  ⟨h.pending, h.variant, h.serial, hm, h.host⟩
@[simp] theorem Kept.setHost (h : Kept r s) {m : Mem} (hm : m.wf = true) : Kept r (s.setHost m) :=
  ⟨h.pending, h.variant, h.serial, h.mem, hm⟩

end Sys2Proof.Machine
end

