-- ==== Sys2Proof/Laws/Kept/Ops.lean ====
section
/-! SUPPORT. What the operations of Machine/Ops.lean keep (`Kept`). -/

namespace Sys2Proof.Machine

set_option linter.unusedSimpArgs false

@[simp] theorem State.mapCores_kept {ρ : State} (s : State) (l : List Nat) (f : Core → Core) (hK : Kept ρ s) : Kept ρ (State.mapCores s l f) := by
  unfold State.mapCores
  simp (maxDischargeDepth := 20) +contextual [hK, hK.mem, hK.host, Kept.foldl]

@[simp] theorem State.msix_kept {ρ : State} (s : State) (v : Nat) (hK : Kept ρ s) : Kept ρ (State.msix s v) := by
  unfold State.msix
  simp (maxDischargeDepth := 20) +contextual [hK, hK.mem, hK.host, Kept.foldl]

@[simp] theorem State.event_kept {ρ : State} (s : State) (n : Nat) (hK : Kept ρ s) : Kept ρ (State.event s n) := by
  unfold State.event
  simp (maxDischargeDepth := 20) +contextual [hK, hK.mem, hK.host, Kept.foldl]

theorem State.barredWrite_kept {ρ : State} (s : State) (note : State → Nat → Bar → State) (a : Nat) (b : List Byte)
    (hn : ∀ s a r, Kept ρ s → Kept ρ (note s a r)) (hK : Kept ρ s) : Kept ρ (State.barredWrite s note a b) := by
  unfold State.barredWrite
  dsimp only
  split
  · simp (maxDischargeDepth := 20) [hK, hK.mem]
  · refine Kept.foldl _ (fun s p h => ?_) _ hK
    split
    · exact hn _ _ _ h
    · simp (maxDischargeDepth := 20) [h, h.mem]

@[simp] theorem State.barBit_kept {ρ : State} (s : State) (a : Nat) (b : Bar) (hK : Kept ρ s) : Kept ρ (State.barBit s a b) := by
  cases b <;> simp (maxDischargeDepth := 20) [State.barBit, hK]

theorem State.writeBy_kept {ρ : State} (note : State → Nat → Bar → State) (s : State) (a : Nat) (b : List Byte)
    (hn : ∀ s a r, Kept ρ s → Kept ρ (note s a r)) (hK : Kept ρ s) : Kept ρ (State.writeBy note s a b) := by
  unfold State.writeBy
  split
  · split
    · simp (maxDischargeDepth := 20) [hK, hK.host]
    · exact hK
  · exact hK
  · exact State.barredWrite_kept _ _ _ _ hn hK

@[simp] theorem State.logWrite_kept {ρ : State} (s : State) (a : Nat) (b : List Byte) (hK : Kept ρ s) : Kept ρ (State.logWrite s a b) :=
  State.writeBy_kept _ _ _ _ (fun s a r h => State.barBit_kept s a r h) hK

@[simp] theorem State.errLog_kept {ρ : State} (s0 : State) (r : ErrRec) (hK : Kept ρ s0) : Kept ρ (State.errLog s0 r) := by
  unfold State.errLog
  simp (maxDischargeDepth := 20) +contextual [hK, hK.mem, hK.host, Kept.foldl]

@[simp] theorem State.memErr_kept {ρ : State} (s : State) (st b scope addr : Nat) (hK : Kept ρ s) : Kept ρ (State.memErr s st b scope addr) := by
  unfold State.memErr
  simp (maxDischargeDepth := 20) +contextual [hK, hK.mem, hK.host, Kept.foldl]

@[simp] theorem State.vwrErr_kept {ρ : State} (s : State) (p b addr : Nat) (hK : Kept ρ s) : Kept ρ (State.vwrErr s p b addr) := by
  unfold State.vwrErr
  simp (maxDischargeDepth := 20) +contextual [hK, hK.mem, hK.host, Kept.foldl]

@[simp] theorem State.barLog_kept {ρ : State} (s : State) (a : Nat) (b : Bar) (hK : Kept ρ s) : Kept ρ (State.barLog s a b) := by
  cases b <;> simp (maxDischargeDepth := 20) [State.barLog, hK]

@[simp] theorem State.rawWrite_kept {ρ : State} (s : State) (a : Nat) (b : List Byte) (hK : Kept ρ s) : Kept ρ (State.rawWrite s a b) :=
  State.writeBy_kept _ _ _ _ (fun s a r h => State.barLog_kept s a r h) hK

@[simp] theorem State.rawUnit_kept {ρ : State} (s : State) (a : Nat) (f : Mem → Mem) (hf : ∀ m, m.wf = true → (f m).wf = true)
    (hK : Kept ρ s) : Kept ρ (State.rawUnit s a f) := by
  unfold State.rawUnit
  split
  · exact State.barLog_kept _ _ _ hK
  · exact hK.setMem (hf _ hK.mem)

@[simp] theorem State.evqPut_kept {ρ : State} (f : Nat) (s : State) (l : List (List Byte)) (h : Kept ρ s) : Kept ρ (State.evqPut f s l) := by
  induction f generalizing s l with
  | zero => simp (maxDischargeDepth := 20) [State.evqPut, h]
  | succ n ih =>
    cases l with
    | nil => simp (maxDischargeDepth := 20) [State.evqPut, h]
    | cons b t =>
      unfold State.evqPut
      dsimp only
      split
      · simp (maxDischargeDepth := 20) [h]
      · exact ih _ _ (by simp (maxDischargeDepth := 20) [h])

@[simp] theorem State.timEvent_kept {ρ : State} (s : State) (r : TimRec) (hK : Kept ρ s) : Kept ρ (State.timEvent s r) := by
  unfold State.timEvent
  simp (maxDischargeDepth := 20) +contextual [hK, hK.mem, hK.host, Kept.foldl]

@[simp] theorem State.vatErr_kept {ρ : State} (s : State) (n b scope addr : Nat) (hK : Kept ρ s) : Kept ρ (State.vatErr s n b scope addr) := by
  unfold State.vatErr
  simp (maxDischargeDepth := 20) +contextual [hK, hK.mem, hK.host, Kept.foldl]

@[simp] theorem State.indErr_kept {ρ : State} (s : State) (e b : Nat) (hK : Kept ρ s) : Kept ρ (State.indErr s e b) := by
  unfold State.indErr
  simp (maxDischargeDepth := 20) +contextual [hK, hK.mem, hK.host, Kept.foldl]

end Sys2Proof.Machine
end

