-- ==== Sys2Proof/Laws/Kept/Ferdo.lean ====
section
/-! SUPPORT. What the operations of Machine/Ferdo.lean keep (`Kept`). -/

namespace Sys2Proof.Machine

set_option linter.unusedSimpArgs false

@[simp] theorem State.emitSlot_kept {ρ : State} (s : State) (n : Nat) (seq : Option Nat) (f : Flit) (ack : Nat) (crd : Nat × Nat) (hK : Kept ρ s) : Kept ρ (State.emitSlot s n seq f ack crd) := by
  unfold State.emitSlot
  simp (maxDischargeDepth := 20) +contextual [hK, hK.mem, hK.host, Kept.foldl]

@[simp] theorem State.sendPlain_kept {ρ : State} (s : State) (n : Nat) (f : Flit) (hK : Kept ρ s) : Kept ρ (State.sendPlain s n f) := by
  unfold State.sendPlain
  simp (maxDischargeDepth := 20) +contextual [hK, hK.mem, hK.host, Kept.foldl]

@[simp] theorem State.sendIdle_kept {ρ : State} (s : State) (n : Nat) (hK : Kept ρ s) : Kept ρ (State.sendIdle s n) := by
  unfold State.sendIdle
  simp (maxDischargeDepth := 20) +contextual [hK, hK.mem, hK.host, Kept.foldl]

@[simp] theorem State.freeEntries_kept {ρ : State} (s : State) (n tc k : Nat) (hK : Kept ρ s) : Kept ρ (State.freeEntries s n tc k) := by
  unfold State.freeEntries
  simp (maxDischargeDepth := 20) +contextual [hK, hK.mem, hK.host, Kept.foldl]

@[simp] theorem State.returnEntries_kept {ρ : State} (s : State) (n tc k : Nat) (hK : Kept ρ s) : Kept ρ (State.returnEntries s n tc k) := by
  unfold State.returnEntries
  simp (maxDischargeDepth := 20) +contextual [hK, hK.mem, hK.host, Kept.foldl]

@[simp] theorem State.returnOf_kept {ρ : State} (s : State) (m : OutMsg) (hK : Kept ρ s) : Kept ρ (State.returnOf s m) := by
  unfold State.returnOf
  split <;> simp (maxDischargeDepth := 20) [hK, hK.mem, hK.host]

end Sys2Proof.Machine
end

