-- ==== Sys2Proof/Laws/Kept/Status.lean ====
section
/-! SUPPORT. What the operations of Machine/Status.lean keep (`Kept`). -/

namespace Sys2Proof.Machine

set_option linter.unusedSimpArgs false

@[simp] theorem State.complete_kept {ρ : State} (s : State) (c : Cpl) (hK : Kept ρ s) : Kept ρ (s.complete c) := by
  unfold State.complete
  dsimp only
  split
  · exact hK
  · split
    · simp (maxDischargeDepth := 20) [hK]
    · split <;> simp (maxDischargeDepth := 20) [hK, hK.host]

@[simp] theorem State.putPte_kept {ρ : State} (s : State) (a p : Nat) (hK : Kept ρ s) : Kept ρ (State.putPte s a p) := by
  unfold State.putPte
  simp (maxDischargeDepth := 20) +contextual [hK, hK.mem, hK.host, Kept.foldl]

@[simp] theorem State.promote_kept {ρ : State} (s : State) (h : Nat) (a : Nat) (hK : Kept ρ s) : Kept ρ (State.promote s h a) := by
  unfold State.promote
  dsimp only
  (repeat' split) <;> simp (maxDischargeDepth := 20) +contextual [hK, hK.mem, hK.host, Kept.foldl]

@[simp] theorem State.unpin_kept {ρ : State} (s : State) (h : Nat) (w : WalkPage) (hK : Kept ρ s) : Kept ρ (State.unpin s h w) := by
  unfold State.unpin
  dsimp only
  (repeat' split) <;> simp (maxDischargeDepth := 20) +contextual [hK, hK.mem, hK.host, Kept.foldl]

@[simp] theorem State.endWalk_kept {ρ : State} (s : State) (eng : Nat) (w : Walk) (hK : Kept ρ s) : Kept ρ (State.endWalk s eng w) := by
  unfold State.endWalk
  simp (maxDischargeDepth := 20) +contextual [hK, hK.mem, hK.host, Kept.foldl]

@[simp] theorem State.endWalks_kept {ρ : State} (s : State) (n : Nat) (tags : Nat → Bool) (hK : Kept ρ s) : Kept ρ (s.endWalks n tags) := by
  unfold State.endWalks
  exact Kept.foldl _ (fun s i hK => Kept.foldl _ (fun s w hK => by simp (maxDischargeDepth := 20) [hK]) _ (by simp (maxDischargeDepth := 20) [hK])) _ hK

@[simp] theorem State.abortOn_kept {ρ : State} (s : State) (n : Nat) (runs : List Run) (hK : Kept ρ s) : Kept ρ (State.abortOn s n runs) := by
  unfold State.abortOn
  dsimp only
  (repeat' split) <;> simp (maxDischargeDepth := 20) +contextual [hK, hK.mem, hK.host, Kept.foldl]

@[simp] theorem State.abortRun_kept {ρ : State} (s : State) (x : Nat) (run : Run) (hK : Kept ρ s) : Kept ρ (State.abortRun s x run) := by
  unfold State.abortRun
  simp (maxDischargeDepth := 20) +contextual [hK, hK.mem, hK.host, Kept.foldl]

@[simp] theorem State.abandonSave_kept {ρ : State} (s : State) (b : Nat) (hK : Kept ρ s) : Kept ρ (State.abandonSave s b) := by
  unfold State.abandonSave
  dsimp only
  (repeat' split) <;> simp (maxDischargeDepth := 20) +contextual [hK, hK.mem, hK.host, Kept.foldl]

@[simp] theorem State.poisonJob_kept {ρ : State} (s : State) (p : Nat) (j : Job) (hK : Kept ρ s) : Kept ρ (s.poisonJob p j) := by
  unfold State.poisonJob
  extract_lets us s1 q
  have h1 : Kept ρ s1 := Kept.foldl _ (fun s u h => State.rawUnit_kept _ _ _ (fun m hm => Mem.wf_setPo hm _ _) h) _ hK
  simp (maxDischargeDepth := 20) [h1]

@[simp] theorem State.poisonJobs_kept {ρ : State} (s : State) (x : Nat) (hK : Kept ρ s) : Kept ρ (s.poisonJobs x) := by
  unfold State.poisonJobs
  exact Kept.foldl _ (fun s p hK => Kept.foldl _ (fun s j hK => by simp (maxDischargeDepth := 20) [hK]) _ hK) _ hK

@[simp] theorem State.withdraw_kept {ρ : State} (s : State) (x reason detail : Nat) (hK : Kept ρ s) : Kept ρ (State.withdraw s x reason detail) := by
  unfold State.withdraw
  dsimp only
  (repeat' split) <;> simp (maxDischargeDepth := 20) +contextual [hK, hK.mem, hK.host, Kept.foldl]

@[simp] theorem State.abandonColls_kept {ρ : State} (s : State) (x : Nat) (hK : Kept ρ s) : Kept ρ (State.abandonColls s x) := by
  unfold State.abandonColls
  simp (maxDischargeDepth := 20) +contextual [hK, hK.mem, hK.host, Kept.foldl]

@[simp] theorem State.drainCore_kept {ρ : State} (s : State) (n : Nat) (hK : Kept ρ s) : Kept ρ (State.drainCore s n) := by
  unfold State.drainCore
  simp (maxDischargeDepth := 20) +contextual [hK, hK.mem, hK.host, Kept.foldl]

@[simp] theorem State.endContext_kept {ρ : State} (s : State) (x : Nat) (r : StatusRec) (src : Nat) (hK : Kept ρ s) : Kept ρ (s.endContext x r src) := by
  unfold State.endContext
  extract_lets c log s1 s2 s3 s4 s5 c5 s6 s7 c8 s8
  have hlog : ∀ t, Kept ρ t → Kept ρ (log t) := fun t h => by simp (maxDischargeDepth := 20) [log, h]
  have h2 : Kept ρ s2 := Kept.foldl _ (fun s n hK => by simp (maxDischargeDepth := 20) [hK]) _ (by simp (maxDischargeDepth := 20) [s1, hK])
  have h5 : Kept ρ s5 := by simp (maxDischargeDepth := 20) [s5, s4, s3, h2]
  have h6 : Kept ρ s6 := by
    simp only [s6]
    split
    · exact Kept.foldl _ (fun s n hK => by simp (maxDischargeDepth := 20) [hK]) _ h5
    · exact h5
  have h7 : Kept ρ s7 := by
    simp only [s7]
    split
    · exact Kept.foldl _ (fun s n hK => by split <;> simp (maxDischargeDepth := 20) [hK]) _ h6
    · exact h6
  have h8 : Kept ρ s8 := by simp (maxDischargeDepth := 20) [s8, h7]
  split
  · exact hK
  · exact hlog _ hK
  · exact hlog _ hK
  · exact hlog _ (by split <;> simp (maxDischargeDepth := 20) [h8])

@[simp] theorem State.endBy_kept {ρ : State} (s : State) (x status src : Nat) (hK : Kept ρ s) : Kept ρ (State.endBy s x status src) := by
  unfold State.endBy
  simp (maxDischargeDepth := 20) +contextual [hK, hK.mem, hK.host, Kept.foldl]

@[simp] theorem State.raiseAt_kept {ρ : State} (s : State) (n x : Nat) (word : BitVec 12) (tag : Option Nat) (code slot op : Nat) (atIssue : Bool) (src : Nat) (other : Nat := 0) (hK : Kept ρ s) : Kept ρ (State.raiseAt s n x word tag code slot op atIssue src other) := by
  unfold State.raiseAt
  dsimp only
  (repeat' split) <;> simp (maxDischargeDepth := 20) +contextual [hK, hK.mem, hK.host, Kept.foldl]

@[simp] theorem State.raise_kept {ρ : State} (s : State) (n x code slot op : Nat) (atIssue : Bool) (hK : Kept ρ s) : Kept ρ (State.raise s n x code slot op atIssue) := by
  unfold State.raise
  simp (maxDischargeDepth := 20) +contextual [hK, hK.mem, hK.host, Kept.foldl]

end Sys2Proof.Machine
end

