-- ==== Sys2Proof/Laws/Kept/Units.lean ====
section
/-! SUPPORT. What the operations of Machine/Units.lean keep (`Kept`). -/

namespace Sys2Proof.Machine

set_option linter.unusedSimpArgs false

@[simp] theorem State.setSleep_kept {ρ : State} (s : State) (u : UnitRef) (b : Bool) (hK : Kept ρ s) : Kept ρ (State.setSleep s u b) := by
  unfold State.setSleep
  dsimp only
  (repeat' split) <;> simp (maxDischargeDepth := 20) +contextual [hK, hK.mem, hK.host, Kept.foldl]

@[simp] theorem State.wakeCount_kept {ρ : State} (s : State) (hK : Kept ρ s) : Kept ρ (State.wakeCount s) := by
  unfold State.wakeCount
  simp (maxDischargeDepth := 20) +contextual [hK, hK.mem, hK.host, Kept.foldl]

@[simp] theorem State.wakeUnit_kept {ρ : State} (s : State) (u : UnitRef) (hK : Kept ρ s) : Kept ρ (State.wakeUnit s u) := by
  unfold State.wakeUnit
  simp (maxDischargeDepth := 20) +contextual [hK, hK.mem, hK.host, Kept.foldl]

@[simp] theorem State.demandUnit_kept {ρ : State} (s : State) (u : UnitRef) (hK : Kept ρ s) : Kept ρ (State.demandUnit s u) := by
  unfold State.demandUnit
  simp (maxDischargeDepth := 20) +contextual [hK, hK.mem, hK.host, Kept.foldl]

end Sys2Proof.Machine
end

