-- ==== Sys2Proof/Laws/Kept/Issue.lean ====
section
/-! SUPPORT. What the operations of Machine/Issue.lean keep (`Kept`). -/

namespace Sys2Proof.Machine

set_option linter.unusedSimpArgs false

/-- The same of what a slot does. -/
def KeptRes (ρ : State) : SlotRes → Prop
  | .done s _ _ => Kept ρ s
  | .status _ _ => True
  | .faultIn s _ _ => Kept ρ s
  | .wait _ => True

@[simp] theorem keptRes_done {ρ s : State} (w : List RegW) (t : Option (BitVec 12)) : KeptRes ρ (.done s w t) ↔ Kept ρ s := Iff.rfl
@[simp] theorem keptRes_status {ρ : State} (c : Nat) (a : Bool) : KeptRes ρ (.status c a) := trivial
@[simp] theorem keptRes_faultIn {ρ s : State} (c : Nat) (a : Bool) : KeptRes ρ (.faultIn s c a) ↔ Kept ρ s := Iff.rfl
@[simp] theorem keptRes_wait {ρ : State} (w : Wait) : KeptRes ρ (.wait w) := trivial
@[simp] theorem keptRes_ite {ρ : State} (c : Prop) [Decidable c] (a b : SlotRes) :
    KeptRes ρ (if c then a else b) ↔ if c then KeptRes ρ a else KeptRes ρ b := by
  split <;> rfl

theorem Core.gate_kept {ρ : State} (c : Core) (k : Cls) {x : SlotRes} (h : c.gate k = some x) : KeptRes ρ x := by
  unfold Core.gate at h
  (repeat' split at h) <;> simp_all <;> subst h <;> trivial

/-- What a slot's body keeps. -/
def Slot.Keeps (q : Slot) : Prop := ∀ (ρ s : State) (n x : Nat), Kept ρ s → KeptRes ρ (q.body s n x)

/-- The same of the effects of slots as they add up. -/
theorem KeptRes.none {ρ : State} {r : SlotRes} (h : KeptRes ρ r) {s : State} {ws : List RegW} {t : Option (BitVec 12)}
    (e : r = .done s ws t) : Kept ρ s := by
  subst e
  exact h

/-- The status of a record that cannot be used. -/
def KeptChk (ρ : State) : Option SlotRes → Prop
  | some r => KeptRes ρ r
  | none => True

theorem KeptChk.get {ρ : State} {o : Option SlotRes} (h : KeptChk ρ o) {r : SlotRes} (e : o = some r) : KeptRes ρ r := by
  rw [e] at h
  exact h

@[simp] theorem keptChk_none {ρ : State} : KeptChk ρ none := True.intro

@[simp] theorem keptChk_ite {ρ : State} (c : Prop) [Decidable c] (a b : Option SlotRes) :
    KeptChk ρ (if c then a else b) ↔ if c then KeptChk ρ a else KeptChk ρ b := by
  split <;> rfl

theorem slotCmd_keeps (i : Issue) (slot op : Nat) (k : Cls) (vec legal : Bool) (body : State → Nat → Nat → SlotRes)
    (hb : ∀ (ρ s : State) (n x : Nat), Kept ρ s → KeptRes ρ (body s n x)) : (slotCmd i slot op k vec legal body).Keeps := hb

theorem Slot.eval_kept {ρ : State} {q : Slot} (hq : q.Keeps) (s : State) (x : Nat) (hK : Kept ρ s) : KeptRes ρ (q.eval s x) := by
  unfold Slot.eval
  dsimp only
  (repeat' split) <;> first
    | trivial
    | exact hK
    | (next e => exact Core.gate_kept _ _ e)
    | exact hq _ _ _ _ hK

@[simp] theorem State.raiseAll_kept {ρ : State} (s : State) (n x : Nat) (w : BitVec 12) (l : List Found) (hK : Kept ρ s) :
    Kept ρ (s.raiseAll n x w l) := by
  unfold State.raiseAll
  dsimp only
  split
  · simp (maxDischargeDepth := 20) [hK]
  · exact Kept.foldl _ (fun s f h => by simp (maxDischargeDepth := 20) [h]) _ hK

theorem WordRun.perform_kept {ρ : State} (n x : Nat) (r : WordRun) {q : Slot} (hq : q.Keeps) (hK : Kept ρ r.s) :
    Kept ρ (WordRun.perform n x r q).s := by
  have k := Slot.eval_kept hq r.s x hK
  unfold WordRun.perform
  split <;> first
    | exact hK
    | (next e => rw [e] at k; exact k)

theorem WordRun.foldl_kept {ρ : State} (n x : Nat) (l : List Slot) (hl : ∀ q, q ∈ l → q.Keeps) (r : WordRun) (hK : Kept ρ r.s) :
    Kept ρ (l.foldl (WordRun.perform n x) r).s := by
  induction l generalizing r with
  | nil => exact hK
  | cons q t ih =>
    exact ih (fun p hp => hl p (List.mem_cons_of_mem _ hp)) _ (WordRun.perform_kept n x r (hl q (List.mem_cons_self ..)) hK)

@[simp] theorem State.woken_kept {ρ : State} (s : State) (n : Nat) (hK : Kept ρ s) : Kept ρ (State.woken s n) := by
  unfold State.woken
  simp (maxDischargeDepth := 20) +contextual [hK, hK.mem, hK.host, Kept.foldl]

@[simp] theorem State.endProgram_kept {ρ : State} (s : State) (x : Nat) (hK : Kept ρ s) : Kept ρ (State.endProgram s x) := by
  unfold State.endProgram
  dsimp only
  (repeat' split) <;> simp (maxDischargeDepth := 20) +contextual [hK, hK.mem, hK.host, Kept.foldl]

theorem WordRun.finish_kept {ρ : State} (n x : Nat) (w : BitVec 12) (r : WordRun) (hK : Kept ρ r.s) : Kept ρ (r.finish n x w) := by
  unfold WordRun.finish
  dsimp only
  (repeat' split) <;> simp (maxDischargeDepth := 20) [hK]

theorem noteRefused_kept {ρ : State} (x : Nat) (s : State) {q : Slot} (hq : q.Keeps) (hK : Kept ρ s) : Kept ρ (noteRefused x s q) := by
  have k := Slot.eval_kept hq s x hK
  unfold noteRefused
  split
  · next e => rw [e] at k; exact k
  · exact hK

theorem noteRefused_foldl_kept {ρ : State} (x : Nat) (l : List Slot) (hl : ∀ q, q ∈ l → q.Keeps) (s : State) (hK : Kept ρ s) :
    Kept ρ (l.foldl (noteRefused x) s) := by
  induction l generalizing s with
  | nil => exact hK
  | cons q t ih =>
    exact ih (fun p hp => hl p (List.mem_cons_of_mem _ hp)) _ (noteRefused_kept x s (hl q (List.mem_cons_self ..)) hK)

theorem mem_putSlot {p q : Slot} {l : List Slot} (h : p ∈ putSlot q l) : p = q ∨ p ∈ l := by
  induction l with
  | nil => simpa [putSlot] using h
  | cons r t ih =>
    unfold putSlot at h
    split at h
    · simpa using h
    · rcases List.mem_cons.mp h with h | h
      · exact .inr (h ▸ List.mem_cons_self ..)
      · rcases ih h with h | h
        · exact .inl h
        · exact .inr (List.mem_cons_of_mem _ h)

/-- The slots in the order of their effects are slots of the wide instruction. -/
theorem mem_slotOrder {p : Slot} {l : List Slot} (h : p ∈ slotOrder l) : p ∈ l := by
  have f : ∀ (l acc : List Slot), p ∈ l.foldl (fun l q => putSlot q l) acc → p ∈ l ∨ p ∈ acc := by
    intro l
    induction l with
    | nil => exact fun acc h => .inr h
    | cons q t ih =>
      intro acc h
      rcases ih _ h with h | h
      · exact .inl (List.mem_cons_of_mem _ h)
      · rcases mem_putSlot h with h | h
        · exact .inl (h ▸ List.mem_cons_self ..)
        · exact .inr h
  rcases f l [] h with h | h
  · exact h
  · cases h

theorem runWord_kept {ρ : State} (n x : Nat) (l : List Slot) (hl : ∀ q, q ∈ l → q.Keeps) (s : State) (hK : Kept ρ s) :
    Kept ρ (runWord n x l s) := by
  unfold runWord
  extract_lets w s0 o pre clear c0 hold r
  have h0 : Kept ρ s0 := by simp (maxDischargeDepth := 20) [s0, hK]
  have ho : ∀ q, q ∈ o → q.Keeps := fun q hq => hl q (mem_slotOrder hq)
  have hc : ∀ t, Kept ρ t → Kept ρ (clear t) := fun t h => by simp (maxDischargeDepth := 20) [clear, h]
  have hh : ∀ v, Kept ρ (hold v) := fun v => by simp (maxDischargeDepth := 20) [hold, hK]
  split
  · exact State.raiseAll_kept _ _ _ _ _ (hc _ h0)
  · split
    · exact State.raiseAll_kept _ _ _ _ _ (hc _ (noteRefused_foldl_kept x o ho s0 h0))
    · split
      · exact State.raiseAll_kept _ _ _ _ _ (hc _ h0)
      · split
        · exact hh _
        · have hr : Kept ρ r.s := WordRun.foldl_kept n x o ho { s := s0 } h0
          split
          · exact hh _
          · exact WordRun.finish_kept _ _ _ _ hr

theorem wideCmd_kept {ρ : State} (slotOf : Instr → Option Slot) (hs : ∀ c q, slotOf c = some q → q.Keeps) (c : Instr) {q : Slot}
    (hq : q.Keeps) (s : State) (hK : Kept ρ s) : KeptOut ρ (wideCmd slotOf c q s) := by
  unfold wideCmd
  dsimp only
  split
  · trivial
  · split
    · exact hK
    · split
      · simp (maxDischargeDepth := 20) [hK]
      · refine runWord_kept _ _ _ (fun r hr => ?_) s hK
        rcases List.mem_append.mp hr with h | h
        · obtain ⟨p, _, hp⟩ := List.mem_filterMap.mp h
          exact hs p r hp
        · rw [List.mem_singleton.mp h]
          exact hq

@[simp] theorem State.demand_kept {ρ : State} (s : State) (n u : Nat) (hK : Kept ρ s) : Kept ρ (State.demand s n u) := by
  unfold State.demand
  simp (maxDischargeDepth := 20) +contextual [hK, hK.mem, hK.host, Kept.foldl]

end Sys2Proof.Machine
end

