-- ==== Sys2Proof/Laws/Kept/Promise.lean ====
section
/-! SUPPORT. What the operations of Machine/Promise.lean keep (`Kept`). -/

namespace Sys2Proof.Machine

set_option linter.unusedSimpArgs false

@[simp] theorem State.moveP_kept {ρ : State} (s : State) (x cause detail : Nat) (running : Bool) (p : Nat) (thr : Option (Nat × Nat × Nat)) (hK : Kept ρ s) : Kept ρ (State.moveP s x cause detail running p thr) := by
  unfold State.moveP
  dsimp only
  (repeat' split) <;> simp (maxDischargeDepth := 20) +contextual [hK, hK.mem, hK.host, Kept.foldl]

@[simp] theorem State.extend_kept {ρ : State} (s : State) (x cause detail add : Nat) (hK : Kept ρ s) : Kept ρ (State.extend s x cause detail add) := by
  unfold State.extend
  (repeat' split) <;> simp (maxDischargeDepth := 20) [hK, hK.mem, hK.host]

@[simp] theorem State.fallback_kept {ρ : State} (s : State) (x : Nat) (run : Run) (l : Nat) (hK : Kept ρ s) : Kept ρ (State.fallback s x run l) := by
  unfold State.fallback
  dsimp only
  (repeat' split) <;> simp (maxDischargeDepth := 20) +contextual [hK, hK.mem, hK.host, Kept.foldl]

@[simp] theorem State.fallbackRedye_kept {ρ : State} (s : State) (x layer l : Nat) (hK : Kept ρ s) : Kept ρ (State.fallbackRedye s x layer l) := by
  unfold State.fallbackRedye
  dsimp only
  (repeat' split) <;> simp (maxDischargeDepth := 20) +contextual [hK, hK.mem, hK.host, Kept.foldl]

@[simp] theorem State.late_kept {ρ : State} (s : State) (x lateness : Nat) (hK : Kept ρ s) : Kept ρ (State.late s x lateness) := by
  unfold State.late
  simp (maxDischargeDepth := 20) +contextual [hK, hK.mem, hK.host, Kept.foldl]

@[simp] theorem State.throttle_kept {ρ : State} (s : State) (x k : Nat) (running : Bool) (hK : Kept ρ s) : Kept ρ (State.throttle s x k running) := by
  unfold State.throttle
  dsimp only
  (repeat' split) <;> simp (maxDischargeDepth := 20) +contextual [hK, hK.mem, hK.host, Kept.foldl]

@[simp] theorem State.showClk_kept {ρ : State} (s : State) (hK : Kept ρ s) : Kept ρ (State.showClk s) := by
  unfold State.showClk
  simp (maxDischargeDepth := 20) +contextual [hK, hK.mem, hK.host, Kept.foldl]

@[simp] theorem State.derated_kept {ρ : State} (s : State) (old : Nat → Nat) (hK : Kept ρ s) : Kept ρ (State.derated s old) := by
  unfold State.derated
  simp (maxDischargeDepth := 20) +contextual [hK, hK.mem, hK.host, Kept.foldl]

end Sys2Proof.Machine
end

