-- ==== Sys2Proof/Laws/Kept/Admission.lean ====
section
/-! SUPPORT. What the operations of Machine/Admission.lean keep (`Kept`). -/

namespace Sys2Proof.Machine

set_option linter.unusedSimpArgs false

@[simp] theorem State.recheckOne_kept {ρ : State} (s : State) (x : Nat) (hK : Kept ρ s) : Kept ρ (State.recheckOne s x) := by
  unfold State.recheckOne
  (repeat' split) <;> simp (maxDischargeDepth := 20) [hK, hK.mem, hK.host]

@[simp] theorem State.recheck_kept {ρ : State} (s : State) (hK : Kept ρ s) : Kept ρ (State.recheck s) := by
  unfold State.recheck
  simp (maxDischargeDepth := 20) +contextual [hK, hK.mem, hK.host, Kept.foldl]

end Sys2Proof.Machine
end

