-- ==== Sys2Proof/Laws/Kept/BaseDie.lean ====
section
/-! SUPPORT. What the operations of Machine/BaseDie.lean keep (`Kept`). -/

namespace Sys2Proof.Machine

set_option linter.unusedSimpArgs false

@[simp] theorem State.replaceCause_kept {ρ : State} (s : State) (b : Nat) (parts : Nat) (hK : Kept ρ s) : Kept ρ (State.replaceCause s b parts) := by
  unfold State.replaceCause
  simp (maxDischargeDepth := 20) +contextual [hK, hK.mem, hK.host, Kept.foldl]

@[simp] theorem State.noteUe_kept {ρ : State} (s : State) (st a kind symbols : Nat) (hK : Kept ρ s) : Kept ρ (State.noteUe s st a kind symbols) := by
  unfold State.noteUe
  simp (maxDischargeDepth := 20) +contextual [hK, hK.mem, hK.host, Kept.foldl]

@[simp] theorem State.reIlv_kept {ρ : State} (s : State) (old : State) (hK : Kept ρ s) (hK1 : Kept ρ old) : Kept ρ (State.reIlv s old) := by
  unfold State.reIlv
  simp (maxDischargeDepth := 20) +contextual [hK, hK.mem, hK.host, Kept.foldl]

@[simp] theorem State.repairRow_kept {ρ : State} (s : State) (st row : Nat) (hK : Kept ρ s) : Kept ρ (State.repairRow s st row) := by
  unfold State.repairRow
  simp (maxDischargeDepth := 20) +contextual [hK, hK.mem, hK.host, Kept.foldl]

@[simp] theorem State.corrected_kept {ρ : State} (s : State) (st row : Nat) (hK : Kept ρ s) : Kept ρ (State.corrected s st row) := by
  unfold State.corrected
  simp (maxDischargeDepth := 20) +contextual [hK, hK.mem, hK.host, Kept.foldl]

@[simp] theorem State.uncorrectable_kept {ρ : State} (s : State) (st o kind : Nat) (hK : Kept ρ s) : Kept ρ (State.uncorrectable s st o kind) := by
  unfold State.uncorrectable
  simp (maxDischargeDepth := 20) +contextual [hK, hK.mem, hK.host, Kept.foldl]

@[simp] theorem State.readUnit_kept {ρ : State} (s : State) (kind a : Nat) (hK : Kept ρ s) : Kept ρ (State.readUnit s kind a) := by
  unfold State.readUnit
  dsimp only
  (repeat' split) <;> simp (maxDischargeDepth := 20) +contextual [hK, hK.mem, hK.host, Kept.foldl]

@[simp] theorem State.demandReads_kept {ρ : State} (s : State) (l : List (Nat × Nat)) (hK : Kept ρ s) : Kept ρ (State.demandReads s l) := by
  unfold State.demandReads
  simp (maxDischargeDepth := 20) +contextual [hK, hK.mem, hK.host, Kept.foldl]

end Sys2Proof.Machine
end

