-- ==== Sys2Proof/Laws/Kept/Frames.lean ====
section
/-! SUPPORT. What the operations of Machine/Frames.lean keep (`Kept`). -/

namespace Sys2Proof.Machine

set_option linter.unusedSimpArgs false

@[simp] theorem State.charge_kept {ρ : State} (s : State) (q : Requester) (vat : Bool) (a : Nat) (hK : Kept ρ s) : Kept ρ (State.charge s q vat a) := by
  unfold State.charge
  dsimp only
  (repeat' split) <;> simp (maxDischargeDepth := 20) +contextual [hK, hK.mem, hK.host, Kept.foldl]

@[simp] theorem State.chargeRuns_kept {ρ : State} (s : State) (q : Requester) (l : List (Nat × Nat)) (hK : Kept ρ s) : Kept ρ (State.chargeRuns s q l) := by
  unfold State.chargeRuns
  simp (maxDischargeDepth := 20) +contextual [hK, hK.mem, hK.host, Kept.foldl]

end Sys2Proof.Machine
end

