-- ==== Sys2Proof/Laws/Kept/Operands.lean ====
section
/-! SUPPORT. What the operations of Machine/Operands.lean keep (`Kept`). -/

namespace Sys2Proof.Machine

set_option linter.unusedSimpArgs false

@[simp] theorem State.evalsUp_kept {ρ : State} (s : State) (cls k : Nat) (hK : Kept ρ s) : Kept ρ (s.evalsUp cls k) :=
  ⟨hK.pending, hK.variant, hK.serial, hK.mem, hK.host⟩

end Sys2Proof.Machine
end

