-- ==== Sys2Proof/Laws/Kept/Store.lean ====
section
/-! SUPPORT. What the operations of Machine/Store.lean keep (`Kept`). -/

namespace Sys2Proof.Machine

set_option linter.unusedSimpArgs false

/-- The same of what a write of a slot does. -/
def KeptStore (ρ : State) : StoreRes → Prop
  | .done s => Kept ρ s
  | .refused s => Kept ρ s
  | .wait _ => True

@[simp] theorem keptStore_done {ρ s : State} : KeptStore ρ (.done s) ↔ Kept ρ s := Iff.rfl
@[simp] theorem keptStore_refused {ρ s : State} : KeptStore ρ (.refused s) ↔ Kept ρ s := Iff.rfl
@[simp] theorem keptStore_wait {ρ : State} (w : Wait) : KeptStore ρ (.wait w) := trivial
@[simp] theorem keptStore_ite {ρ : State} (c : Prop) [Decidable c] (a b : StoreRes) :
    KeptStore ρ (if c then a else b) ↔ if c then KeptStore ρ a else KeptStore ρ b := by
  split <;> rfl

theorem KeptStore.done {ρ : State} {r : StoreRes} (h : KeptStore ρ r) {s : State} (e : r = .done s) : Kept ρ s := by
  rw [e] at h
  exact h

theorem KeptStore.refused {ρ : State} {r : StoreRes} (h : KeptStore ρ r) {s : State} (e : r = .refused s) : Kept ρ s := by
  rw [e] at h
  exact h

@[simp] theorem State.foldUnit_kept {ρ : State} (s : State) (a : Nat) (data : List Byte) (hK : Kept ρ s) : Kept ρ (s.foldUnit a data) := by
  unfold State.foldUnit
  refine Kept.foldl _ (fun s x hK => ?_) _ hK
  dsimp only
  split <;> simp (maxDischargeDepth := 20) [hK]

@[simp] theorem State.await_kept {ρ : State} (s : State) (l : List Nat) (hK : Kept ρ s) : Kept ρ (State.await s l) := by
  unfold State.await
  dsimp only
  (repeat' split) <;> simp (maxDischargeDepth := 20) +contextual [hK, hK.mem, hK.host, Kept.foldl]

@[simp] theorem State.noteRefused_kept {ρ : State} (s : State) (a : Nat) (hK : Kept ρ s) : Kept ρ (State.noteRefused s a) := by
  unfold State.noteRefused
  (repeat' split) <;> simp (maxDischargeDepth := 20) [hK, hK.mem, hK.host]

@[simp] theorem State.tallyUp_kept {ρ : State} (s : State) (x k : Nat) (hK : Kept ρ s) : Kept ρ (State.tallyUp s x k) := by
  unfold State.tallyUp
  simp (maxDischargeDepth := 20) +contextual [hK, hK.mem, hK.host, Kept.foldl]

@[simp] theorem State.touchStack_kept {ρ : State} (s : State) (a : Nat) (hK : Kept ρ s) : Kept ρ (State.touchStack s a) := by
  unfold State.touchStack
  dsimp only
  (repeat' split) <;> simp (maxDischargeDepth := 20) +contextual [hK, hK.mem, hK.host, Kept.foldl]

@[simp] theorem State.putUnit_kept {ρ : State} (s : State) (ps : List Piece) (u : Nat) (po : Bool) (n : Nat) (hK : Kept ρ s) : Kept ρ (State.putUnit s ps u po n) := by
  unfold State.putUnit
  dsimp only
  (repeat' split) <;> simp (maxDischargeDepth := 20) +contextual [hK, hK.mem, hK.host, Kept.foldl]

@[simp] theorem State.putHost_kept {ρ : State} (s : State) (ps : List Piece) (hK : Kept ρ s) : Kept ρ (State.putHost s ps) := by
  unfold State.putHost
  simp (maxDischargeDepth := 20) +contextual [hK, hK.mem, hK.host, Kept.foldl]

@[simp] theorem State.performWrite_kept {ρ : State} (s : State) (x : Nat) (ps0 : List Piece) (hK : Kept ρ s) : Kept ρ (State.performWrite s x ps0).1 := by
  unfold State.performWrite
  simp (maxDischargeDepth := 20) +contextual [hK, hK.mem, hK.host, Kept.foldl]

@[simp] theorem State.localWrite_kept {ρ : State} (s : State) (n : Nat) (ps : List Piece) (hK : Kept ρ s) : Kept ρ (State.localWrite s n ps) := by
  unfold State.localWrite
  simp (maxDischargeDepth := 20) +contextual [hK, hK.mem, hK.host, Kept.foldl]

@[simp] theorem State.storeNow_kept {ρ : State} (s : State) (n x : Nat) (dev : Bool) (ps : List Piece) (hK : Kept ρ s) : KeptStore ρ (State.storeNow s n x dev ps) := by
  unfold State.storeNow
  simp (maxDischargeDepth := 20) +contextual [hK, hK.mem, hK.host, Kept.foldl]

@[simp] theorem State.store_kept {ρ : State} (s : State) (n x slot op : Nat) (dev : Bool) (ps : List Piece) (hK : Kept ρ s) : KeptStore ρ (State.store s n x slot op dev ps) := by
  unfold State.store
  simp (maxDischargeDepth := 20) +contextual [hK, hK.mem, hK.host, Kept.foldl]

end Sys2Proof.Machine
end

