-- ==== Sys2Proof/Laws/Kept/Accum.lean ====
section
/-! SUPPORT. What the operations of Machine/Accum.lean keep (`Kept`). -/

namespace Sys2Proof.Machine

set_option linter.unusedSimpArgs false

@[simp] theorem KeptRes.storeDone {ρ : State} {r : StoreRes} (h : KeptStore ρ r) (ws : List RegW) : KeptRes ρ (storeDone r ws) := by
  cases r <;> first | exact h | trivial

@[simp] theorem State.fly_kept {ρ : State} (s : State) (n key : Nat) (hK : Kept ρ s) : Kept ρ (State.fly s n key) := by
  unfold State.fly
  simp (maxDischargeDepth := 20) +contextual [hK, hK.mem, hK.host, Kept.foldl]

@[simp] theorem State.countFor_kept {ρ : State} (s : State) (n : Nat) (t : TD) (claim : Bool) (d : Delta) (hK : Kept ρ s) :
    KeptOpt ρ (s.countFor n t claim d) := by
  unfold State.countFor
  dsimp only
  split
  · simp (maxDischargeDepth := 20) [hK]
  · cases Core.count _ _ _ <;> simp (maxDischargeDepth := 20) [hK]

@[simp] theorem State.countAll_kept {ρ : State} (s : State) (n : Nat) (l : List (TD × Delta)) (hK : Kept ρ s) : KeptOpt ρ (s.countAll n l) := by
  induction l generalizing s with
  | nil => exact hK
  | cons e t ih =>
    unfold State.countAll
    split
    · exact True.intro
    · next e => exact ih _ (KeptOpt.get (State.countFor_kept _ _ _ _ _ hK) e)

@[simp] theorem cfFull_kept {ρ : State} (s : State) (n : Nat) (hK : Kept ρ s) : KeptRes ρ (cfFull s n) := by
  unfold cfFull
  simp (maxDischargeDepth := 20) +contextual [hK, hK.mem, hK.host, Kept.foldl]

@[simp] theorem State.putTile_kept {ρ : State} (s : State) (n x slot op : Nat) (t : TD) (rows : List (List (Nat × Bool))) (hK : Kept ρ s) : KeptStore ρ (State.putTile s n x slot op t rows) := by
  unfold State.putTile
  simp (maxDischargeDepth := 20) +contextual [hK, hK.mem, hK.host, Kept.foldl]

end Sys2Proof.Machine
end

