-- ==== Sys2Proof/Laws/Kept/Regulator.lean ====
section
/-! SUPPORT. What the operations of Machine/Regulator.lean keep (`Kept`). -/

namespace Sys2Proof.Machine

set_option linter.unusedSimpArgs false

@[simp] theorem State.pmbus_kept {ρ : State} (s : State) (p : Nat) (op : PmOp) (hK : Kept ρ s) : Kept ρ (State.pmbus s p op) := by
  unfold State.pmbus
  simp (maxDischargeDepth := 20) +contextual [hK, hK.mem, hK.host, Kept.foldl]

@[simp] theorem State.setVcore_kept {ρ : State} (s : State) (p mv : Nat) (hK : Kept ρ s) : Kept ρ (State.setVcore s p mv) := by
  unfold State.setVcore
  simp (maxDischargeDepth := 20) +contextual [hK, hK.mem, hK.host, Kept.foldl]

@[simp] theorem State.clearStore_kept {ρ : State} (s : State) (p : Nat) (hK : Kept ρ s) : Kept ρ (State.clearStore s p) := by
  unfold State.clearStore
  simp (maxDischargeDepth := 20) +contextual [hK, hK.mem, hK.host, Kept.foldl]

@[simp] theorem State.refresh_kept {ρ : State} (s : State) (p : Nat) (on : Bool) (hK : Kept ρ s) : Kept ρ (State.refresh s p on) := by
  unfold State.refresh
  simp (maxDischargeDepth := 20) +contextual [hK, hK.mem, hK.host, Kept.foldl]

@[simp] theorem State.enterOff_kept {ρ : State} (s : State) (p : Nat) (hK : Kept ρ s) : Kept ρ (State.enterOff s p) := by
  unfold State.enterOff
  simp (maxDischargeDepth := 20) +contextual [hK, hK.mem, hK.host, Kept.foldl]

@[simp] theorem State.vcoreFails_kept {ρ : State} (s : State) (p : Nat) (hK : Kept ρ s) : Kept ρ (State.vcoreFails s p) := by
  unfold State.vcoreFails
  simp (maxDischargeDepth := 20) +contextual [hK, hK.mem, hK.host, Kept.foldl]

@[simp] theorem State.enterLow_kept {ρ : State} (s : State) (p : Nat) (off : Bool) (hK : Kept ρ s) : Kept ρ (State.enterLow s p off) := by
  unfold State.enterLow
  simp (maxDischargeDepth := 20) +contextual [hK, hK.mem, hK.host, Kept.foldl]

@[simp] theorem State.vcoreUp_kept {ρ : State} (s : State) (p : Nat) (hK : Kept ρ s) : Kept ρ (State.vcoreUp s p) := by
  unfold State.vcoreUp
  simp (maxDischargeDepth := 20) +contextual [hK, hK.mem, hK.host, Kept.foldl]

@[simp] theorem State.wakePart_kept {ρ : State} (s : State) (p : Nat) (hK : Kept ρ s) : Kept ρ (State.wakePart s p) := by
  unfold State.wakePart
  simp (maxDischargeDepth := 20) +contextual [hK, hK.mem, hK.host, Kept.foldl]

@[simp] theorem State.bringUpVcore_kept {ρ : State} (s : State) (hK : Kept ρ s) : Kept ρ (State.bringUpVcore s) := by
  unfold State.bringUpVcore
  simp (maxDischargeDepth := 20) +contextual [hK, hK.mem, hK.host, Kept.foldl]

end Sys2Proof.Machine
end

