-- ==== Sys2Proof/Laws/Kept/Woad.lean ====
section
/-! SUPPORT. What the operations of Machine/Woad.lean keep (`Kept`). -/

namespace Sys2Proof.Machine

set_option linter.unusedSimpArgs false

theorem wCmd_keeps (w : WSlot) (op : Nat) (k : Cls) (legal : Bool) (body : State → Nat → Nat → SlotRes)
    (hb : ∀ (ρ s : State) (n x : Nat), Kept ρ s → KeptRes ρ (body s n x)) : (wCmd w op k legal body).Keeps := by
  unfold wCmd
  refine slotCmd_keeps _ _ _ _ _ _ _ (fun ρ s n x h => ?_)
  split
  · trivial
  · exact hb _ _ _ _ (by simp (maxDischargeDepth := 20) [h])

@[simp] theorem slotWld_keeps (w : WSlot) : (slotWld w).Keeps := by
  unfold slotWld
  try dsimp only
  apply wCmd_keeps
  intro ρ s n x hK
  extract_lets
  (repeat' first | split | extract_lets) <;> first
    | (simp only [keptRes_status, keptRes_wait, keptOut_fault, keptOpt_none]; done)
    | (simp +zetaDelta (maxDischargeDepth := 20) [hK, hK.mem, hK.host]; done)
    | (next e =>
        have k := KeptOpt.get (r := ρ) (by simp +zetaDelta (maxDischargeDepth := 20) [hK]) e
        simp +zetaDelta (maxDischargeDepth := 20) [k]
        done)
    | (next e1 e2 =>
        have k1 := KeptOpt.get (r := ρ) (by simp +zetaDelta (maxDischargeDepth := 20) [hK]) e1
        have k2 := KeptOpt.get (r := ρ) (by simp +zetaDelta (maxDischargeDepth := 20) [k1]) e2
        simp +zetaDelta (maxDischargeDepth := 20) [k2]
        done)
    | (next e =>
        have k := KeptStore.done (ρ := ρ) (by simp +zetaDelta (maxDischargeDepth := 20) [hK]) e
        simp +zetaDelta (maxDischargeDepth := 20) [k]
        done)
    | (next e =>
        have k := KeptStore.refused (ρ := ρ) (by simp +zetaDelta (maxDischargeDepth := 20) [hK]) e
        simp +zetaDelta (maxDischargeDepth := 20) [k]
        done)
    | (next e =>
        have k := KeptChk.get (ρ := ρ) (by simp +zetaDelta (maxDischargeDepth := 20) [hK]) e
        simp +zetaDelta (maxDischargeDepth := 20) [k]
        done)

@[simp] theorem slotWmm_keeps (w : WSlot) : (slotWmm w).Keeps := by
  unfold slotWmm
  refine wCmd_keeps _ _ _ _ _ (fun ρ s n x h => ?_)
  extract_lets c d b ta tw R C rowsA rowsW la lw base ea old cell bad po cells acc early lanes sets s1 s2 s3 na nw
  have h3 : Kept ρ s3 := by simp (maxDischargeDepth := 20) [s3, s2, s1, h]
  split
  · trivial
  · split
    · trivial
    · split
      · trivial
      · split
        · trivial
        · split
          · simp (maxDischargeDepth := 20) [cfFull, h]
          · next e4 =>
            have h4 := KeptOpt.get (State.countFor_kept _ _ _ _ _ h3) e4
            split
            · simp (maxDischargeDepth := 20) [cfFull, h]
            · next e5 =>
              show Kept ρ _
              exact KeptOpt.get (State.countFor_kept _ _ _ _ _ h4) e5

@[simp] theorem slotWck_keeps (w : WSlot) : (slotWck w).Keeps := by
  unfold slotWck
  try dsimp only
  apply wCmd_keeps
  intro ρ s n x hK
  extract_lets
  (repeat' first | split | extract_lets) <;> first
    | (simp only [keptRes_status, keptRes_wait, keptOut_fault, keptOpt_none]; done)
    | (simp +zetaDelta (maxDischargeDepth := 20) [hK, hK.mem, hK.host]; done)
    | (next e =>
        have k := KeptOpt.get (r := ρ) (by simp +zetaDelta (maxDischargeDepth := 20) [hK]) e
        simp +zetaDelta (maxDischargeDepth := 20) [k]
        done)
    | (next e1 e2 =>
        have k1 := KeptOpt.get (r := ρ) (by simp +zetaDelta (maxDischargeDepth := 20) [hK]) e1
        have k2 := KeptOpt.get (r := ρ) (by simp +zetaDelta (maxDischargeDepth := 20) [k1]) e2
        simp +zetaDelta (maxDischargeDepth := 20) [k2]
        done)
    | (next e =>
        have k := KeptStore.done (ρ := ρ) (by simp +zetaDelta (maxDischargeDepth := 20) [hK]) e
        simp +zetaDelta (maxDischargeDepth := 20) [k]
        done)
    | (next e =>
        have k := KeptStore.refused (ρ := ρ) (by simp +zetaDelta (maxDischargeDepth := 20) [hK]) e
        simp +zetaDelta (maxDischargeDepth := 20) [k]
        done)
    | (next e =>
        have k := KeptChk.get (ρ := ρ) (by simp +zetaDelta (maxDischargeDepth := 20) [hK]) e
        simp +zetaDelta (maxDischargeDepth := 20) [k]
        done)

@[simp] theorem slotWfl_keeps (w : WSlot) : (slotWfl w).Keeps := by
  unfold slotWfl
  try dsimp only
  apply wCmd_keeps
  intro ρ s n x hK
  extract_lets
  (repeat' first | split | extract_lets) <;> first
    | (simp only [keptRes_status, keptRes_wait, keptOut_fault, keptOpt_none]; done)
    | (simp +zetaDelta (maxDischargeDepth := 20) [hK, hK.mem, hK.host]; done)
    | (next e =>
        have k := KeptOpt.get (r := ρ) (by simp +zetaDelta (maxDischargeDepth := 20) [hK]) e
        simp +zetaDelta (maxDischargeDepth := 20) [k]
        done)
    | (next e1 e2 =>
        have k1 := KeptOpt.get (r := ρ) (by simp +zetaDelta (maxDischargeDepth := 20) [hK]) e1
        have k2 := KeptOpt.get (r := ρ) (by simp +zetaDelta (maxDischargeDepth := 20) [k1]) e2
        simp +zetaDelta (maxDischargeDepth := 20) [k2]
        done)
    | (next e =>
        have k := KeptStore.done (ρ := ρ) (by simp +zetaDelta (maxDischargeDepth := 20) [hK]) e
        simp +zetaDelta (maxDischargeDepth := 20) [k]
        done)
    | (next e =>
        have k := KeptStore.refused (ρ := ρ) (by simp +zetaDelta (maxDischargeDepth := 20) [hK]) e
        simp +zetaDelta (maxDischargeDepth := 20) [k]
        done)
    | (next e =>
        have k := KeptChk.get (ρ := ρ) (by simp +zetaDelta (maxDischargeDepth := 20) [hK]) e
        simp +zetaDelta (maxDischargeDepth := 20) [k]
        done)

end Sys2Proof.Machine
end

