-- ==== Sys2Proof/Laws/Kept/Madder.lean ====
section
/-! SUPPORT. What the operations of Machine/Madder.lean keep (`Kept`). -/

namespace Sys2Proof.Machine

set_option linter.unusedSimpArgs false

theorem mCmd_keeps (m : MSlot) (op : Nat) (k : Cls) (legal : Bool) (body : State → Nat → Nat → SlotRes)
    (hb : ∀ (ρ s : State) (n x : Nat), Kept ρ s → KeptRes ρ (body s n x)) : (mCmd m op k legal body).Keeps :=
  fun ρ s n x h => hb ρ _ n x (by simp (maxDischargeDepth := 20) [h])

@[simp] theorem State.sendVat_kept {ρ : State} (s : State) (n slot op : Nat) (ws : List VatW) (hK : Kept ρ s) : Kept ρ (State.sendVat s n slot op ws) := by
  unfold State.sendVat
  simp (maxDischargeDepth := 20) +contextual [hK, hK.mem, hK.host, Kept.foldl]

@[simp] theorem vatSegment_kept {ρ : State} (x n : Nat) (d : TD) (j : MadJob) (lo len : Nat) (s : State) (sub : Nat × Nat × Nat) (hK : Kept ρ s) :
    Kept ρ (vatSegment x n d j lo len s sub) := by
  obtain ⟨v, r, q⟩ := sub
  simp (maxDischargeDepth := 20) [vatSegment, hK]

@[simp] theorem madSegments_kept {ρ : State} (s : State) (n : Nat) (m : MSlot) (tc : TD) (j : MadJob) (K : Nat) (hK : Kept ρ s) :
    KeptRes ρ (madSegments s n m tc j K) := by
  unfold madSegments
  extract_lets c L J b parts fl wide at_ ps nR nC get total s1 s2 c3 s3 s4
  split
  · trivial
  · have h1 : Kept ρ s1 := Kept.foldl _ (fun s p h => by simp (maxDischargeDepth := 20) [h]) _ hK
    have h4 : Kept ρ s4 := by simp (maxDischargeDepth := 20) [s4, s3, s2, h1]
    split
    · simp (maxDischargeDepth := 20) [cfFull, hK]
    · next e =>
      show Kept ρ _
      exact KeptOpt.get (State.countFor_kept _ _ _ _ _ h4) e

@[simp] theorem madProduct_kept {ρ : State} (o : Orient) (m : MSlot) (s : State) (n x : Nat) (hK : Kept ρ s) :
    KeptRes ρ (madProduct o m s n x) := by
  unfold madProduct
  extract_lets c da db dc k0 kl sx useC ta tb tc K ref R C ext tiles evict fp16_ sr conv og tensor seed step j s00 s0 s1 segs s2 k c2 tile s3 wide base al old res b sets c1
  have h00 : Kept ρ s00 := by simp (maxDischargeDepth := 20) [s00, hK]
  have h0 : Kept ρ s0 := by
    simp only [s0]
    split
    · exact State.evalsUp_kept _ _ _ h00
    · exact h00
  have h1 : Kept ρ s1 := Kept.foldl _ (fun s e h => by simp (maxDischargeDepth := 20) [h]) _ h0
  have h2 : Kept ρ s2 := Kept.foldl _ (fun s g h => Kept.foldl _ (fun s e h => vatSegment_kept _ _ _ _ _ _ _ _ h) _ h) _ h1
  have h3 : Kept ρ s3 := by simp (maxDischargeDepth := 20) [s3, h2]
  clear_value s0 s3 c1
  split
  · trivial
  · split
    · trivial
    · split
      · trivial
      · split
        · trivial
        · split
          · trivial
          · split
            · split
              · simp (maxDischargeDepth := 20) [cfFull, hK]
              · next e =>
                show Kept ρ _
                exact KeptOpt.get (State.countFor_kept _ _ _ _ _ h3) e
            · split
              · exact madSegments_kept _ _ _ _ _ _ h0
              · simp (maxDischargeDepth := 20) [h0]

@[simp] theorem slotMmm_keeps (m : MSlot) : (slotMmm m).Keeps := by
  unfold slotMmm
  try dsimp only
  apply mCmd_keeps
  intro ρ s n x hK
  simp (maxDischargeDepth := 20) +contextual [hK, hK.mem, hK.host, Kept.foldl]

@[simp] theorem slotMdx_keeps (m : MSlot) : (slotMdx m).Keeps := by
  unfold slotMdx
  try dsimp only
  apply mCmd_keeps
  intro ρ s n x hK
  simp (maxDischargeDepth := 20) +contextual [hK, hK.mem, hK.host, Kept.foldl]

@[simp] theorem slotMdw_keeps (m : MSlot) : (slotMdw m).Keeps := by
  unfold slotMdw
  try dsimp only
  apply mCmd_keeps
  intro ρ s n x hK
  simp (maxDischargeDepth := 20) +contextual [hK, hK.mem, hK.host, Kept.foldl]

@[simp] theorem slotMfl_keeps (m : MSlot) : (slotMfl m).Keeps := by
  unfold slotMfl
  try dsimp only
  apply mCmd_keeps
  intro ρ s n x hK
  extract_lets
  (repeat' first | split | extract_lets) <;> first
    | (simp only [keptRes_status, keptRes_wait, keptOut_fault, keptOpt_none]; done)
    | (simp +zetaDelta (maxDischargeDepth := 20) [hK, hK.mem, hK.host]; done)
    | (next e =>
        have k := KeptOpt.get (r := ρ) (by simp +zetaDelta (maxDischargeDepth := 20) [hK]) e
        simp +zetaDelta (maxDischargeDepth := 20) [k]
        done)
    | (next e1 e2 =>
        have k1 := KeptOpt.get (r := ρ) (by simp +zetaDelta (maxDischargeDepth := 20) [hK]) e1
        have k2 := KeptOpt.get (r := ρ) (by simp +zetaDelta (maxDischargeDepth := 20) [k1]) e2
        simp +zetaDelta (maxDischargeDepth := 20) [k2]
        done)
    | (next e =>
        have k := KeptStore.done (ρ := ρ) (by simp +zetaDelta (maxDischargeDepth := 20) [hK]) e
        simp +zetaDelta (maxDischargeDepth := 20) [k]
        done)
    | (next e =>
        have k := KeptStore.refused (ρ := ρ) (by simp +zetaDelta (maxDischargeDepth := 20) [hK]) e
        simp +zetaDelta (maxDischargeDepth := 20) [k]
        done)
    | (next e =>
        have k := KeptChk.get (ρ := ρ) (by simp +zetaDelta (maxDischargeDepth := 20) [hK]) e
        simp +zetaDelta (maxDischargeDepth := 20) [k]
        done)

@[simp] theorem State.sendTile_kept {ρ : State} (s : State) (n x v : Nat) (hK : Kept ρ s) : Kept ρ (State.sendTile s n x v) := by
  unfold State.sendTile
  simp (maxDischargeDepth := 20) +contextual [hK, hK.mem, hK.host, Kept.foldl]

@[simp] theorem slotMvw_keeps (m : MSlot) : (slotMvw m).Keeps := by
  unfold slotMvw
  try dsimp only
  apply mCmd_keeps
  intro ρ s n x hK
  simp (maxDischargeDepth := 20) +contextual [hK, hK.mem, hK.host, Kept.foldl]

end Sys2Proof.Machine
end

