-- ==== Sys2Proof/Laws/Kept/DataMove.lean ====
section
/-! SUPPORT. What the operations of Machine/DataMove.lean keep (`Kept`). -/

namespace Sys2Proof.Machine

set_option linter.unusedSimpArgs false

theorem dCmd_keeps (d : DSlot) (op : Nat) (k : Cls) (legal : Bool) (body : State → Nat → Nat → SlotRes)
    (hb : ∀ (ρ s : State) (n x : Nat), Kept ρ s → KeptRes ρ (body s n x)) : (dCmd d op k legal body).Keeps := hb

@[simp] theorem State.t3Reads_kept {ρ : State} (l : List (Nat × Nat × Nat)) (s : State) (n : Nat) (dev : Bool) (hK : Kept ρ s) :
    Kept ρ (s.t3Reads n dev l).1 := by
  induction l generalizing s with
  | nil => exact hK
  | cons r t ih =>
    unfold State.t3Reads
    split
    · split
      · exact ih _ (by simp (maxDischargeDepth := 20) [hK])
      · exact ih _ hK
    · exact ih _ hK

@[simp] theorem State.addXfer_kept {ρ : State} (s : State) (n : Nat) (t : Xfer) (hK : Kept ρ s) : Kept ρ (State.addXfer s n t) := by
  unfold State.addXfer
  simp (maxDischargeDepth := 20) +contextual [hK, hK.mem, hK.host, Kept.foldl]

@[simp] theorem slotDld_keeps (d : DSlot) : (slotDld d).Keeps := by
  unfold slotDld
  try dsimp only
  apply dCmd_keeps
  intro ρ s n x hK
  extract_lets
  (repeat' first | split | extract_lets) <;> first
    | (simp only [keptRes_status, keptRes_wait, keptOut_fault, keptOpt_none]; done)
    | (simp +zetaDelta (maxDischargeDepth := 20) [hK, hK.mem, hK.host]; done)
    | (next e =>
        have k := KeptOpt.get (r := ρ) (by simp +zetaDelta (maxDischargeDepth := 20) [hK]) e
        simp +zetaDelta (maxDischargeDepth := 20) [k]
        done)
    | (next e1 e2 =>
        have k1 := KeptOpt.get (r := ρ) (by simp +zetaDelta (maxDischargeDepth := 20) [hK]) e1
        have k2 := KeptOpt.get (r := ρ) (by simp +zetaDelta (maxDischargeDepth := 20) [k1]) e2
        simp +zetaDelta (maxDischargeDepth := 20) [k2]
        done)
    | (next e =>
        have k := KeptStore.done (ρ := ρ) (by simp +zetaDelta (maxDischargeDepth := 20) [hK]) e
        simp +zetaDelta (maxDischargeDepth := 20) [k]
        done)
    | (next e =>
        have k := KeptStore.refused (ρ := ρ) (by simp +zetaDelta (maxDischargeDepth := 20) [hK]) e
        simp +zetaDelta (maxDischargeDepth := 20) [k]
        done)
    | (next e =>
        have k := KeptChk.get (ρ := ρ) (by simp +zetaDelta (maxDischargeDepth := 20) [hK]) e
        simp +zetaDelta (maxDischargeDepth := 20) [k]
        done)

@[simp] theorem slotDpf_keeps (d : DSlot) : (slotDpf d).Keeps := by
  unfold slotDpf
  try dsimp only
  apply dCmd_keeps
  intro ρ s n x hK
  extract_lets
  (repeat' first | split | extract_lets) <;> first
    | (simp only [keptRes_status, keptRes_wait, keptOut_fault, keptOpt_none]; done)
    | (simp +zetaDelta (maxDischargeDepth := 20) [hK, hK.mem, hK.host]; done)
    | (next e =>
        have k := KeptOpt.get (r := ρ) (by simp +zetaDelta (maxDischargeDepth := 20) [hK]) e
        simp +zetaDelta (maxDischargeDepth := 20) [k]
        done)
    | (next e1 e2 =>
        have k1 := KeptOpt.get (r := ρ) (by simp +zetaDelta (maxDischargeDepth := 20) [hK]) e1
        have k2 := KeptOpt.get (r := ρ) (by simp +zetaDelta (maxDischargeDepth := 20) [k1]) e2
        simp +zetaDelta (maxDischargeDepth := 20) [k2]
        done)
    | (next e =>
        have k := KeptStore.done (ρ := ρ) (by simp +zetaDelta (maxDischargeDepth := 20) [hK]) e
        simp +zetaDelta (maxDischargeDepth := 20) [k]
        done)
    | (next e =>
        have k := KeptStore.refused (ρ := ρ) (by simp +zetaDelta (maxDischargeDepth := 20) [hK]) e
        simp +zetaDelta (maxDischargeDepth := 20) [k]
        done)
    | (next e =>
        have k := KeptChk.get (ρ := ρ) (by simp +zetaDelta (maxDischargeDepth := 20) [hK]) e
        simp +zetaDelta (maxDischargeDepth := 20) [k]
        done)

@[simp] theorem slotDldWait_keeps (d : DSlot) : (slotDldWait d).Keeps := by
  unfold slotDldWait
  try dsimp only
  apply dCmd_keeps
  intro ρ s n x hK
  extract_lets
  (repeat' first | split | extract_lets) <;> first
    | (simp only [keptRes_status, keptRes_wait, keptOut_fault, keptOpt_none]; done)
    | (simp +zetaDelta (maxDischargeDepth := 20) [hK, hK.mem, hK.host]; done)
    | (next e =>
        have k := KeptOpt.get (r := ρ) (by simp +zetaDelta (maxDischargeDepth := 20) [hK]) e
        simp +zetaDelta (maxDischargeDepth := 20) [k]
        done)
    | (next e1 e2 =>
        have k1 := KeptOpt.get (r := ρ) (by simp +zetaDelta (maxDischargeDepth := 20) [hK]) e1
        have k2 := KeptOpt.get (r := ρ) (by simp +zetaDelta (maxDischargeDepth := 20) [k1]) e2
        simp +zetaDelta (maxDischargeDepth := 20) [k2]
        done)
    | (next e =>
        have k := KeptStore.done (ρ := ρ) (by simp +zetaDelta (maxDischargeDepth := 20) [hK]) e
        simp +zetaDelta (maxDischargeDepth := 20) [k]
        done)
    | (next e =>
        have k := KeptStore.refused (ρ := ρ) (by simp +zetaDelta (maxDischargeDepth := 20) [hK]) e
        simp +zetaDelta (maxDischargeDepth := 20) [k]
        done)
    | (next e =>
        have k := KeptChk.get (ρ := ρ) (by simp +zetaDelta (maxDischargeDepth := 20) [hK]) e
        simp +zetaDelta (maxDischargeDepth := 20) [k]
        done)

@[simp] theorem KeptRes.movedDone {ρ : State} {r : StoreRes} (h : KeptStore ρ r) (n kind : Nat) (b : Bool) :
    KeptRes ρ (movedDone n kind b r) := by
  cases r with
  | done s =>
    unfold Machine.movedDone
    rw [keptRes_done]
    split
    · exact h
    · exact State.addXfer_kept _ _ _ h
  | refused s => exact h
  | wait => exact True.intro

@[simp] theorem slotDst_keeps (d : DSlot) : (slotDst d).Keeps := by
  unfold slotDst
  try dsimp only
  apply dCmd_keeps
  intro ρ s n x hK
  extract_lets
  (repeat' first | split | extract_lets) <;> first
    | (simp only [keptRes_status, keptRes_wait, keptOut_fault, keptOpt_none]; done)
    | (simp +zetaDelta (maxDischargeDepth := 20) [hK, hK.mem, hK.host]; done)
    | (next e =>
        have k := KeptOpt.get (r := ρ) (by simp +zetaDelta (maxDischargeDepth := 20) [hK]) e
        simp +zetaDelta (maxDischargeDepth := 20) [k]
        done)
    | (next e1 e2 =>
        have k1 := KeptOpt.get (r := ρ) (by simp +zetaDelta (maxDischargeDepth := 20) [hK]) e1
        have k2 := KeptOpt.get (r := ρ) (by simp +zetaDelta (maxDischargeDepth := 20) [k1]) e2
        simp +zetaDelta (maxDischargeDepth := 20) [k2]
        done)
    | (next e =>
        have k := KeptStore.done (ρ := ρ) (by simp +zetaDelta (maxDischargeDepth := 20) [hK]) e
        simp +zetaDelta (maxDischargeDepth := 20) [k]
        done)
    | (next e =>
        have k := KeptStore.refused (ρ := ρ) (by simp +zetaDelta (maxDischargeDepth := 20) [hK]) e
        simp +zetaDelta (maxDischargeDepth := 20) [k]
        done)
    | (next e =>
        have k := KeptChk.get (ρ := ρ) (by simp +zetaDelta (maxDischargeDepth := 20) [hK]) e
        simp +zetaDelta (maxDischargeDepth := 20) [k]
        done)

@[simp] theorem slotDcp_keeps (d : DSlot) : (slotDcp d).Keeps := by
  unfold slotDcp
  try dsimp only
  apply dCmd_keeps
  intro ρ s n x hK
  extract_lets
  (repeat' first | split | extract_lets) <;> first
    | (simp only [keptRes_status, keptRes_wait, keptOut_fault, keptOpt_none]; done)
    | (simp +zetaDelta (maxDischargeDepth := 20) [hK, hK.mem, hK.host]; done)
    | (next e =>
        have k := KeptOpt.get (r := ρ) (by simp +zetaDelta (maxDischargeDepth := 20) [hK]) e
        simp +zetaDelta (maxDischargeDepth := 20) [k]
        done)
    | (next e1 e2 =>
        have k1 := KeptOpt.get (r := ρ) (by simp +zetaDelta (maxDischargeDepth := 20) [hK]) e1
        have k2 := KeptOpt.get (r := ρ) (by simp +zetaDelta (maxDischargeDepth := 20) [k1]) e2
        simp +zetaDelta (maxDischargeDepth := 20) [k2]
        done)
    | (next e =>
        have k := KeptStore.done (ρ := ρ) (by simp +zetaDelta (maxDischargeDepth := 20) [hK]) e
        simp +zetaDelta (maxDischargeDepth := 20) [k]
        done)
    | (next e =>
        have k := KeptStore.refused (ρ := ρ) (by simp +zetaDelta (maxDischargeDepth := 20) [hK]) e
        simp +zetaDelta (maxDischargeDepth := 20) [k]
        done)
    | (next e =>
        have k := KeptChk.get (ρ := ρ) (by simp +zetaDelta (maxDischargeDepth := 20) [hK]) e
        simp +zetaDelta (maxDischargeDepth := 20) [k]
        done)

@[simp] theorem State.sendPartial_kept {ρ : State} (s : State) (n : Nat) (p : Partial) (hK : Kept ρ s) : KeptOpt ρ (s.sendPartial n p) := by
  unfold State.sendPartial
  split
  · split
    · simp (maxDischargeDepth := 20) [hK]
    · exact keptOpt_none
  · exact keptOpt_none

@[simp] theorem slotDstCollector_keeps (d : DSlot) : (slotDstCollector d).Keeps := by
  unfold slotDstCollector
  try dsimp only
  apply dCmd_keeps
  intro ρ s n x hK
  extract_lets
  (repeat' first | split | extract_lets) <;> first
    | (simp only [keptRes_status, keptRes_wait, keptOut_fault, keptOpt_none]; done)
    | (simp +zetaDelta (maxDischargeDepth := 20) [hK, hK.mem, hK.host]; done)
    | (next e =>
        have k := KeptOpt.get (r := ρ) (by simp +zetaDelta (maxDischargeDepth := 20) [hK]) e
        simp +zetaDelta (maxDischargeDepth := 20) [k]
        done)
    | (next e1 e2 =>
        have k1 := KeptOpt.get (r := ρ) (by simp +zetaDelta (maxDischargeDepth := 20) [hK]) e1
        have k2 := KeptOpt.get (r := ρ) (by simp +zetaDelta (maxDischargeDepth := 20) [k1]) e2
        simp +zetaDelta (maxDischargeDepth := 20) [k2]
        done)
    | (next e =>
        have k := KeptStore.done (ρ := ρ) (by simp +zetaDelta (maxDischargeDepth := 20) [hK]) e
        simp +zetaDelta (maxDischargeDepth := 20) [k]
        done)
    | (next e =>
        have k := KeptStore.refused (ρ := ρ) (by simp +zetaDelta (maxDischargeDepth := 20) [hK]) e
        simp +zetaDelta (maxDischargeDepth := 20) [k]
        done)
    | (next e =>
        have k := KeptChk.get (ρ := ρ) (by simp +zetaDelta (maxDischargeDepth := 20) [hK]) e
        simp +zetaDelta (maxDischargeDepth := 20) [k]
        done)

@[simp] theorem slotDstWalkRequest_keeps (d : DSlot) : (slotDstWalkRequest d).Keeps := by
  unfold slotDstWalkRequest
  try dsimp only
  apply dCmd_keeps
  intro ρ s n x hK
  extract_lets
  (repeat' first | split | extract_lets) <;> first
    | (simp only [keptRes_status, keptRes_wait, keptOut_fault, keptOpt_none]; done)
    | (simp +zetaDelta (maxDischargeDepth := 20) [hK, hK.mem, hK.host]; done)
    | (next e =>
        have k := KeptOpt.get (r := ρ) (by simp +zetaDelta (maxDischargeDepth := 20) [hK]) e
        simp +zetaDelta (maxDischargeDepth := 20) [k]
        done)
    | (next e1 e2 =>
        have k1 := KeptOpt.get (r := ρ) (by simp +zetaDelta (maxDischargeDepth := 20) [hK]) e1
        have k2 := KeptOpt.get (r := ρ) (by simp +zetaDelta (maxDischargeDepth := 20) [k1]) e2
        simp +zetaDelta (maxDischargeDepth := 20) [k2]
        done)
    | (next e =>
        have k := KeptStore.done (ρ := ρ) (by simp +zetaDelta (maxDischargeDepth := 20) [hK]) e
        simp +zetaDelta (maxDischargeDepth := 20) [k]
        done)
    | (next e =>
        have k := KeptStore.refused (ρ := ρ) (by simp +zetaDelta (maxDischargeDepth := 20) [hK]) e
        simp +zetaDelta (maxDischargeDepth := 20) [k]
        done)
    | (next e =>
        have k := KeptChk.get (ρ := ρ) (by simp +zetaDelta (maxDischargeDepth := 20) [hK]) e
        simp +zetaDelta (maxDischargeDepth := 20) [k]
        done)

@[simp] theorem slotDstRelease_keeps (d : DSlot) : (slotDstRelease d).Keeps := by
  unfold slotDstRelease
  try dsimp only
  apply dCmd_keeps
  intro ρ s n x hK
  extract_lets
  (repeat' first | split | extract_lets) <;> first
    | (simp only [keptRes_status, keptRes_wait, keptOut_fault, keptOpt_none]; done)
    | (simp +zetaDelta (maxDischargeDepth := 20) [hK, hK.mem, hK.host]; done)
    | (next e =>
        have k := KeptOpt.get (r := ρ) (by simp +zetaDelta (maxDischargeDepth := 20) [hK]) e
        simp +zetaDelta (maxDischargeDepth := 20) [k]
        done)
    | (next e1 e2 =>
        have k1 := KeptOpt.get (r := ρ) (by simp +zetaDelta (maxDischargeDepth := 20) [hK]) e1
        have k2 := KeptOpt.get (r := ρ) (by simp +zetaDelta (maxDischargeDepth := 20) [k1]) e2
        simp +zetaDelta (maxDischargeDepth := 20) [k2]
        done)
    | (next e =>
        have k := KeptStore.done (ρ := ρ) (by simp +zetaDelta (maxDischargeDepth := 20) [hK]) e
        simp +zetaDelta (maxDischargeDepth := 20) [k]
        done)
    | (next e =>
        have k := KeptStore.refused (ρ := ρ) (by simp +zetaDelta (maxDischargeDepth := 20) [hK]) e
        simp +zetaDelta (maxDischargeDepth := 20) [k]
        done)
    | (next e =>
        have k := KeptChk.get (ρ := ρ) (by simp +zetaDelta (maxDischargeDepth := 20) [hK]) e
        simp +zetaDelta (maxDischargeDepth := 20) [k]
        done)

@[simp] theorem State.sendEdit_kept {ρ : State} (s : State) (n x eng addr : Nat) (word : BitVec 12) (hK : Kept ρ s) : Kept ρ (State.sendEdit s n x eng addr word) := by
  unfold State.sendEdit
  simp (maxDischargeDepth := 20) +contextual [hK, hK.mem, hK.host, Kept.foldl]

@[simp] theorem slotDstEdit_keeps (d : DSlot) : (slotDstEdit d).Keeps := by
  unfold slotDstEdit
  try dsimp only
  apply dCmd_keeps
  intro ρ s n x hK
  simp (maxDischargeDepth := 20) +contextual [hK, hK.mem, hK.host, Kept.foldl]

@[simp] theorem execDataMovementComplete_kept {ρ : State} (k : CoreId) (i : Nat) (s : State) (hK : Kept ρ s) : KeptOut ρ (execDataMovementComplete k i s) := by
  unfold execDataMovementComplete
  dsimp only
  (repeat' split) <;> simp (maxDischargeDepth := 20) +contextual [hK, hK.mem, hK.host, Kept.foldl]

end Sys2Proof.Machine
end

