-- ==== Sys2Proof/Laws/Kept/Links.lean ====
section
/-! SUPPORT. What the operations of Machine/Links.lean keep (`Kept`). -/

namespace Sys2Proof.Machine

set_option linter.unusedSimpArgs false

@[simp] theorem State.countFlits_kept {ρ : State} (s : State) (n which k : Nat) (hK : Kept ρ s) : Kept ρ (State.countFlits s n which k) := by
  unfold State.countFlits
  simp (maxDischargeDepth := 20) +contextual [hK, hK.mem, hK.host, Kept.foldl]

@[simp] theorem State.lnkErr_kept {ρ : State} (s : State) (n b : Nat) (hK : Kept ρ s) : Kept ρ (State.lnkErr s n b) := by
  unfold State.lnkErr
  simp (maxDischargeDepth := 20) +contextual [hK, hK.mem, hK.host, Kept.foldl]

@[simp] theorem State.sendSeq_kept {ρ : State} (s : State) (n : Nat) (f : Flit) (hK : Kept ρ s) : Kept ρ (State.sendSeq s n f) := by
  unfold State.sendSeq
  simp (maxDischargeDepth := 20) +contextual [hK, hK.mem, hK.host, Kept.foldl]

@[simp] theorem State.chargeSlot_kept {ρ : State} (s : State) (n : Nat) (m : OutMsg) (hK : Kept ρ s) : Kept ρ (State.chargeSlot s n m) := by
  unfold State.chargeSlot
  simp (maxDischargeDepth := 20) +contextual [hK, hK.mem, hK.host, Kept.foldl]

@[simp] theorem State.pump_kept {ρ : State} (f : Nat) (s : State) (n : Nat) (hK : Kept ρ s) : Kept ρ (State.pump f s n) := by
  induction f generalizing s with
  | zero => exact hK
  | succ f ih =>
    unfold State.pump
    split
    · exact hK
    · split
      · exact hK
      · split
        · exact ih _ (by simp (maxDischargeDepth := 20) [hK])
        · dsimp only
          split
          · exact ih _ (by simp (maxDischargeDepth := 20) [hK])
          · exact ih _ (by simp (maxDischargeDepth := 20) [hK])

@[simp] theorem State.drive_kept {ρ : State} (s : State) (n : Nat) (hK : Kept ρ s) : Kept ρ (s.drive n) :=
  State.pump_kept _ _ _ hK

@[simp] theorem State.sendOn_kept {ρ : State} (s : State) (n : Nat) (m : OutMsg) (hK : Kept ρ s) : Kept ρ (State.sendOn s n m) := by
  unfold State.sendOn
  simp (maxDischargeDepth := 20) +contextual [hK, hK.mem, hK.host, Kept.foldl]

@[simp] theorem State.sendRouted_kept {ρ : State} (s : State) (p tc : Nat) (slot : Option Nat) (rq : Requester) (h : Head) (b : List Byte) (po : List Bool) (hK : Kept ρ s) : Kept ρ (State.sendRouted s p tc slot rq h b po) := by
  unfold State.sendRouted
  simp (maxDischargeDepth := 20) +contextual [hK, hK.mem, hK.host, Kept.foldl]

@[simp] theorem State.chanHead_kept {ρ : State} (s : State) (x ch dst msg offset : Nat) (hK : Kept ρ s) :
    Kept ρ (s.chanHead x ch dst msg offset).2 := by
  unfold State.chanHead
  simp (maxDischargeDepth := 20) [hK]

@[simp] theorem State.sendPut_kept {ρ : State} (s : State) (p x ch dst msg offset : Nat) (b : List Byte) (po : List Bool) (hK : Kept ρ s) :
    Kept ρ (s.sendPut p x ch dst msg offset b po) :=
  State.sendRouted_kept _ _ _ _ _ _ _ _ (State.chanHead_kept _ _ _ _ _ _ hK)

@[simp] theorem State.retrain_kept {ρ : State} (s : State) (n : Nat) (hK : Kept ρ s) : Kept ρ (State.retrain s n) := by
  unfold State.retrain
  simp (maxDischargeDepth := 20) +contextual [hK, hK.mem, hK.host, Kept.foldl]

@[simp] theorem State.dropQueue_kept {ρ : State} (s : State) (n : Nat) (hK : Kept ρ s) : Kept ρ (State.dropQueue s n) := by
  unfold State.dropQueue
  simp (maxDischargeDepth := 20) +contextual [hK, hK.mem, hK.host, Kept.foldl]

@[simp] theorem State.linkDown_kept {ρ : State} (s : State) (n : Nat) (hK : Kept ρ s) : Kept ρ (State.linkDown s n) := by
  unfold State.linkDown
  simp (maxDischargeDepth := 20) +contextual [hK, hK.mem, hK.host, Kept.foldl]

@[simp] theorem State.forgetInput_kept {ρ : State} (s : State) (n : Nat) (hK : Kept ρ s) : Kept ρ (State.forgetInput s n) := by
  unfold State.forgetInput
  simp (maxDischargeDepth := 20) +contextual [hK, hK.mem, hK.host, Kept.foldl]

@[simp] theorem State.linkOff_kept {ρ : State} (s : State) (n : Nat) (hK : Kept ρ s) : Kept ρ (State.linkOff s n) := by
  unfold State.linkOff
  simp (maxDischargeDepth := 20) +contextual [hK, hK.mem, hK.host, Kept.foldl]

@[simp] theorem State.takeHead_kept {ρ : State} (s : State) (n : Nat) (h : FlitHead) (hK : Kept ρ s) : Kept ρ (State.takeHead s n h) := by
  unfold State.takeHead
  simp (maxDischargeDepth := 20) +contextual [hK, hK.mem, hK.host, Kept.foldl]

@[simp] theorem State.recvHead_kept {ρ : State} (s : State) (n : Nat) (h : FlitHead) (hK : Kept ρ s) : Kept ρ (State.recvHead s n h) := by
  unfold State.recvHead
  simp (maxDischargeDepth := 20) +contextual [hK, hK.mem, hK.host, Kept.foldl]

@[simp] theorem State.recvSeq_kept {ρ : State} (s : State) (n k : Nat) (hK : Kept ρ s) : Kept ρ (State.recvSeq s n k) := by
  unfold State.recvSeq
  simp (maxDischargeDepth := 20) +contextual [hK, hK.mem, hK.host, Kept.foldl]

@[simp] theorem State.recvMsg_kept {ρ : State} (s : State) (n : Nat) (h : FlitHead) (k tc : Nat) (hK : Kept ρ s) : Kept ρ (State.recvMsg s n h k tc) := by
  unfold State.recvMsg
  simp (maxDischargeDepth := 20) +contextual [hK, hK.mem, hK.host, Kept.foldl]

@[simp] theorem State.sendNak_kept {ρ : State} (s : State) (n : Nat) (hK : Kept ρ s) : Kept ρ (State.sendNak s n) := by
  unfold State.sendNak
  simp (maxDischargeDepth := 20) +contextual [hK, hK.mem, hK.host, Kept.foldl]

@[simp] theorem State.flitBad_kept {ρ : State} (s : State) (n : Nat) (hK : Kept ρ s) : Kept ρ (State.flitBad s n) := by
  unfold State.flitBad
  simp (maxDischargeDepth := 20) +contextual [hK, hK.mem, hK.host, Kept.foldl]

@[simp] theorem State.timeDrop_kept {ρ : State} (s : State) (n : Nat) (hK : Kept ρ s) : Kept ρ (State.timeDrop s n) := by
  unfold State.timeDrop
  simp (maxDischargeDepth := 20) +contextual [hK, hK.mem, hK.host, Kept.foldl]

theorem recv_kept {ρ : State} (n : Nat) (h : FlitHead) (k tc : Nat) (s : State) (body : State → State)
    (hb : ∀ s, Kept ρ s → Kept ρ (body s)) (hK : Kept ρ s) : KeptOut ρ (recv n h k tc s body) := by
  unfold recv
  rw [keptOut_next]
  split
  · exact hK
  · split
    · exact State.sendNak_kept _ _ hK
    · exact hb _ hK

@[simp] theorem State.resend_kept {ρ : State} (s : State) (n : Nat) (hK : Kept ρ s) : Kept ρ (State.resend s n) := by
  unfold State.resend
  simp (maxDischargeDepth := 20) +contextual [hK, hK.mem, hK.host, Kept.foldl]

end Sys2Proof.Machine
end

