-- ==== Sys2Proof/Laws/Kept/Coll.lean ====
section
/-! SUPPORT. What the operations of Machine/Coll.lean keep (`Kept`). -/

namespace Sys2Proof.Machine

set_option linter.unusedSimpArgs false

@[simp] theorem State.setColl_kept {ρ : State} (s : State) (x ch : Nat) (v : CollState) (hK : Kept ρ s) : Kept ρ (State.setColl s x ch v) := by
  unfold State.setColl
  simp (maxDischargeDepth := 20) +contextual [hK, hK.mem, hK.host, Kept.foldl]

@[simp] theorem State.nextInv_kept {ρ : State} (s : State) (n : Nat) (hK : Kept ρ s) : Kept ρ (State.nextInv s n) := by
  unfold State.nextInv
  dsimp only
  (repeat' split) <;> simp (maxDischargeDepth := 20) +contextual [hK, hK.mem, hK.host, Kept.foldl]

@[simp] theorem State.invoke_kept {ρ : State} (s : State) (x ch : Nat) (hK : Kept ρ s) : Kept ρ (State.invoke s x ch) := by
  unfold State.invoke
  simp (maxDischargeDepth := 20) +contextual [hK, hK.mem, hK.host, Kept.foldl]

@[simp] theorem State.engineDone_kept {ρ : State} (s : State) (x ch n : Nat) (hK : Kept ρ s) : Kept ρ (State.engineDone s x ch n) := by
  unfold State.engineDone
  simp (maxDischargeDepth := 20) +contextual [hK, hK.mem, hK.host, Kept.foldl]

@[simp] theorem State.sendTwin_kept {ρ : State} (s : State) (x ch p : Nat) (words : List W64) (hK : Kept ρ s) :
    Kept ρ (s.sendTwin x ch p words) := by
  unfold State.sendTwin
  exact Kept.foldl _ (fun s c h => State.sendRouted_kept _ _ _ _ _ _ _ _ (State.chanHead_kept _ _ _ _ _ _ h)) _ hK

@[simp] theorem State.runColl_kept {ρ : State} (s : State) (x ch : Nat) (hK : Kept ρ s) : Kept ρ (State.runColl s x ch) := by
  unfold State.runColl
  simp (maxDischargeDepth := 20) +contextual [hK, hK.mem, hK.host, Kept.foldl]

@[simp] theorem State.lcoll_kept {ρ : State} (s : State) (n x ch ev tag addr elems : Nat) (hK : Kept ρ s) : KeptOpt ρ (s.lcoll n x ch ev tag addr elems) := by
  unfold State.lcoll
  extract_lets old v s1
  split
  · exact keptOpt_none
  · rw [keptOpt_some]
    split <;> simp (maxDischargeDepth := 20) [s1, hK]

@[simp] theorem State.openGate_kept {ρ : State} (s : State) (x : Nat) (hK : Kept ρ s) : Kept ρ (State.openGate s x) := by
  unfold State.openGate
  simp (maxDischargeDepth := 20) +contextual [hK, hK.mem, hK.host, Kept.foldl]

@[simp] theorem State.dropInv_kept {ρ : State} (s : State) (n : Nat) (hK : Kept ρ s) : Kept ρ (State.dropInv s n) := by
  unfold State.dropInv
  simp (maxDischargeDepth := 20) +contextual [hK, hK.mem, hK.host, Kept.foldl]

@[simp] theorem State.collFails_kept {ρ : State} (s : State) (n : Nat) (hK : Kept ρ s) : Kept ρ (State.collFails s n) := by
  unfold State.collFails
  split <;> simp (maxDischargeDepth := 20) [hK, hK.mem, hK.host]

@[simp] theorem State.collEnds_kept {ρ : State} (s : State) (n : Nat) (hK : Kept ρ s) : Kept ρ (State.collEnds s n) := by
  unfold State.collEnds
  split <;> simp (maxDischargeDepth := 20) [hK, hK.mem, hK.host]

@[simp] theorem State.sendChunk_kept {ρ : State} (s : State) (n x ch tag stage lo : Nat) (vals : List Nat) (hK : Kept ρ s) :
    Kept ρ (s.sendChunk n x ch tag stage lo vals) := by
  unfold State.sendChunk
  refine Kept.foldl _ (fun s p h => ?_) _ hK
  have hc := State.chanHead_kept s x ch (s.fld .lnkStatus n 0 19 8) 4 (lo + 2048 * p.2) h
  dsimp only
  split <;> simp (maxDischargeDepth := 20) [hc]

@[simp] theorem stage_kept {ρ : State} (n op : Nat) (s : State) (hK : Kept ρ s) : Kept ρ (stage n op s) := by
  unfold stage
  split
  · exact hK
  · split
    · exact hK
    · extract_lets x v g r next prev ends poisoned len readsLocal loc lsrc
      split
      · exact hK
      · have hE : ∀ t, Kept ρ t → Kept ρ (ends t) := fun t h => by simp (maxDischargeDepth := 20) [ends, h]
        have hP : Kept ρ poisoned := by simp (maxDischargeDepth := 20) [poisoned, hK]
        split
        · exact hE _ hK
        · split
          · exact hP
          · split
            · exact hE _ (by simp (maxDischargeDepth := 20) [hK])
            · split
              · exact hK
              · extract_lets got flits s1 sums out s2 w
                split
                · exact hP
                · have h1 : Kept ρ s1 := by simp (maxDischargeDepth := 20) [s1, hK]
                  have h2 : Kept ρ s2 := by
                    simp only [s2]
                    split
                    · exact State.evalsUp_kept _ _ _ h1
                    · exact h1
                  have hw : Kept ρ w.1 := by
                    simp only [w]
                    split
                    · exact State.performWrite_kept _ _ _ h2
                    · exact h2
                  split
                  · simp (maxDischargeDepth := 20) [hw]
                  · refine hE _ ?_
                    split
                    · exact hw
                    · simp (maxDischargeDepth := 20) [hw]

@[simp] theorem execStageSend_kept {ρ : State} (link : Fin 48) (s : State) (hK : Kept ρ s) : KeptOut ρ (execStageSend link s) := by
  unfold execStageSend
  simp (maxDischargeDepth := 20) +contextual [hK, hK.mem, hK.host, Kept.foldl]

@[simp] theorem execStageAddSend_kept {ρ : State} (link : Fin 48) (s : State) (hK : Kept ρ s) : KeptOut ρ (execStageAddSend link s) := by
  unfold execStageAddSend
  simp (maxDischargeDepth := 20) +contextual [hK, hK.mem, hK.host, Kept.foldl]

@[simp] theorem execStageAddWrite_kept {ρ : State} (link : Fin 48) (s : State) (hK : Kept ρ s) : KeptOut ρ (execStageAddWrite link s) := by
  unfold execStageAddWrite
  simp (maxDischargeDepth := 20) +contextual [hK, hK.mem, hK.host, Kept.foldl]

@[simp] theorem execStageCopySend_kept {ρ : State} (link : Fin 48) (s : State) (hK : Kept ρ s) : KeptOut ρ (execStageCopySend link s) := by
  unfold execStageCopySend
  simp (maxDischargeDepth := 20) +contextual [hK, hK.mem, hK.host, Kept.foldl]

@[simp] theorem execStageCopy_kept {ρ : State} (link : Fin 48) (s : State) (hK : Kept ρ s) : KeptOut ρ (execStageCopy link s) := by
  unfold execStageCopy
  simp (maxDischargeDepth := 20) +contextual [hK, hK.mem, hK.host, Kept.foldl]

@[simp] theorem execStageWait_kept {ρ : State} (link : Fin 48) (s : State) (hK : Kept ρ s) : KeptOut ρ (execStageWait link s) := by
  unfold execStageWait
  simp (maxDischargeDepth := 20) +contextual [hK, hK.mem, hK.host, Kept.foldl]

@[simp] theorem execCollChunkReceive_kept {ρ : State} (link : Fin 48) (h : FlitHead) (g : CollMsg) (s : State) (hK : Kept ρ s) : KeptOut ρ (execCollChunkReceive link h g s) := by
  unfold execCollChunkReceive
  try dsimp only
  apply recv_kept
  · intro s hK
    simp (maxDischargeDepth := 20) +contextual [hK, hK.mem, hK.host, Kept.foldl]
  · exact hK

@[simp] theorem State.writeLists_kept {ρ : State} (s : State) (x : Nat) (a b : List W64) (hK : Kept ρ s) : Kept ρ (State.writeLists s x a b) := by
  unfold State.writeLists
  simp (maxDischargeDepth := 20) +contextual [hK, hK.mem, hK.host, Kept.foldl]

@[simp] theorem execTwinDigestReceive_kept {ρ : State} (slot : Fin 4) (ch : Fin 16) (digests : List W64) (s : State) (hK : Kept ρ s) : KeptOut ρ (execTwinDigestReceive slot ch digests s) := by
  unfold execTwinDigestReceive
  dsimp only
  (repeat' split) <;> simp (maxDischargeDepth := 20) +contextual [hK, hK.mem, hK.host, Kept.foldl]

@[simp] theorem execRefereeCompare_kept {ρ : State} (slot : Fin 4) (s : State) (hK : Kept ρ s) : KeptOut ρ (execRefereeCompare slot s) := by
  unfold execRefereeCompare
  dsimp only
  (repeat' split) <;> simp (maxDischargeDepth := 20) +contextual [hK, hK.mem, hK.host, Kept.foldl]

end Sys2Proof.Machine
end

