-- ==== Sys2Proof/Laws/Kept/Release.lean ====
section
/-! SUPPORT. What the operations of Machine/Release.lean keep (`Kept`). -/

namespace Sys2Proof.Machine

set_option linter.unusedSimpArgs false

/-- The same of a held instruction performed. -/
def KeptRel (ρ : State) : RelRes → Prop
  | .done s => Kept ρ s
  | .fail s _ => Kept ρ s
  | .wait => True

@[simp] theorem keptRel_done {ρ s : State} : KeptRel ρ (.done s) ↔ Kept ρ s := Iff.rfl
@[simp] theorem keptRel_fail {ρ s : State} (c : Nat) : KeptRel ρ (.fail s c) ↔ Kept ρ s := Iff.rfl
@[simp] theorem keptRel_wait {ρ : State} : KeptRel ρ .wait := True.intro

@[simp] theorem State.setChan_kept {ρ : State} (s : State) (x ch : Nat) (v : Chan) (hK : Kept ρ s) : Kept ρ (State.setChan s x ch v) := by
  unfold State.setChan
  simp (maxDischargeDepth := 20) +contextual [hK, hK.mem, hK.host, Kept.foldl]

@[simp] theorem State.lsend_kept {ρ : State} (s : State) (n x ch dst : Nat) (data : List Byte) (po : List Bool) (hK : Kept ρ s) : Kept ρ (State.lsend s n x ch dst data po) := by
  unfold State.lsend
  simp (maxDischargeDepth := 20) +contextual [hK, hK.mem, hK.host, Kept.foldl]

@[simp] theorem State.answerPut_kept {ρ : State} (s : State) (x ch src len : Nat) (hK : Kept ρ s) : Kept ρ (State.answerPut s x ch src len) := by
  unfold State.answerPut
  simp (maxDischargeDepth := 20) +contextual [hK, hK.mem, hK.host, Kept.foldl]

@[simp] theorem State.lrecv_kept {ρ : State} (s : State) (n x ch src : Nat) (dev : Bool) (runs : List (Nat × Nat)) (hK : Kept ρ s) :
    KeptOpt ρ (s.lrecv n x ch src dev runs) := by
  unfold State.lrecv
  dsimp only
  split
  · exact keptOpt_none
  · split <;> simp (maxDischargeDepth := 20) [hK]

theorem State.performHeld_kept {ρ : State} (s : State) (n x : Nat) (word : BitVec 12) (h : Held) (hK : Kept ρ s) :
    KeptRel ρ (s.performHeld n x word h) := by
  unfold State.performHeld
  dsimp only
  (repeat' split) <;> first
    | (simp (maxDischargeDepth := 20) [hK]; done)
    | (next e => exact KeptOpt.get (State.sendPartial_kept _ _ _ hK) e)
    | (next e => exact KeptOpt.get (State.lrecv_kept _ _ _ _ _ _ _ hK) e)
    | (next e => exact KeptOpt.get (State.lcoll_kept _ _ _ _ _ _ _ _ hK) e)

@[simp] theorem State.flushRel_kept {ρ : State} (f : Nat) (s : State) (n x : Nat) (hK : Kept ρ s) : Kept ρ (State.flushRel f s n x) := by
  induction f generalizing s with
  | zero => exact hK
  | succ f ih =>
    unfold State.flushRel
    split
    · exact hK
    · next i t _ =>
      have k := State.performHeld_kept s n x i.word i.h hK
      split
      · simp (maxDischargeDepth := 20) [hK]
      · next e =>
        rw [e, keptRel_fail] at k
        simp (maxDischargeDepth := 20) [k]
      · next e =>
        rw [e, keptRel_done] at k
        exact ih _ (by simp (maxDischargeDepth := 20) [k])

@[simp] theorem State.release_kept {ρ : State} (s : State) (n : Nat) (hK : Kept ρ s) : Kept ρ (s.release n) := by
  unfold State.release
  split
  · exact hK
  · exact State.flushRel_kept _ _ _ _ hK

@[simp] theorem State.releaseAll_kept {ρ : State} (s : State) (x : Nat) (hK : Kept ρ s) : Kept ρ (State.releaseAll s x) := by
  unfold State.releaseAll
  simp (maxDischargeDepth := 20) +contextual [hK, hK.mem, hK.host, Kept.foldl]

end Sys2Proof.Machine
end

