-- ==== Sys2Proof/Laws/Kept/Collector.lean ====
section
/-! SUPPORT. What the operations of Machine/Collector.lean keep (`Kept`). -/

namespace Sys2Proof.Machine

set_option linter.unusedSimpArgs false

@[simp] theorem State.vwTake_kept {ρ : State} (s : State) (n : Nat) (col : Bool) (w : VatW) (hK : Kept ρ s) : Kept ρ (State.vwTake s n col w) := by
  unfold State.vwTake
  simp (maxDischargeDepth := 20) +contextual [hK, hK.mem, hK.host, Kept.foldl]

@[simp] theorem State.vwApply_kept {ρ : State} (s : State) (n : Nat) (col : Bool) (w : VatW) (p i st : Nat) (hK : Kept ρ s) : Kept ρ (State.vwApply s n col w p i st) := by
  unfold State.vwApply
  simp (maxDischargeDepth := 20) +contextual [hK, hK.mem, hK.host, Kept.foldl]

@[simp] theorem State.vwReject_kept {ρ : State} (s : State) (n : Nat) (col : Bool) (w : VatW) (bit_ : Option Nat) (hK : Kept ρ s) : Kept ρ (State.vwReject s n col w bit_) := by
  unfold State.vwReject
  dsimp only
  (repeat' split) <;> simp (maxDischargeDepth := 20) +contextual [hK, hK.mem, hK.host, Kept.foldl]

@[simp] theorem execVatWrite_kept {ρ : State} (k : CoreId) (i : Nat) (s : State) (hK : Kept ρ s) : KeptOut ρ (execVatWrite k i s) := by
  unfold execVatWrite
  dsimp only
  (repeat' split) <;> simp (maxDischargeDepth := 20) +contextual [hK, hK.mem, hK.host, Kept.foldl]

@[simp] theorem execVatWriteAck_kept {ρ : State} (k : CoreId) (s : State) (hK : Kept ρ s) : KeptOut ρ (execVatWriteAck k s) := by
  unfold execVatWriteAck
  simp (maxDischargeDepth := 20) +contextual [hK, hK.mem, hK.host, Kept.foldl]

@[simp] theorem State.putJob_kept {ρ : State} (s : State) (p : Nat) (j : Job) (hK : Kept ρ s) : Kept ρ (State.putJob s p j) := by
  unfold State.putJob
  simp (maxDischargeDepth := 20) +contextual [hK, hK.mem, hK.host, Kept.foldl]

@[simp] theorem State.jobWrite_kept {ρ : State} (s : State) (p : Nat) (j : Job) (u : Nat) (hK : Kept ρ s) : Kept ρ (State.jobWrite s p j u) := by
  unfold State.jobWrite
  simp (maxDischargeDepth := 20) +contextual [hK, hK.mem, hK.host, Kept.foldl]

@[simp] theorem State.jobAccept_kept {ρ : State} (s : State) (n p x : Nat) (j : Job) (m : Partial) (hK : Kept ρ s) : Kept ρ (State.jobAccept s n p x j m) := by
  unfold State.jobAccept
  simp (maxDischargeDepth := 20) +contextual [hK, hK.mem, hK.host, Kept.foldl]

@[simp] theorem execCollectorPartial_kept {ρ : State} (k : CoreId) (i : Nat) (s : State) (hK : Kept ρ s) : KeptOut ρ (execCollectorPartial k i s) := by
  unfold execCollectorPartial
  dsimp only
  (repeat' split) <;> simp (maxDischargeDepth := 20) +contextual [hK, hK.mem, hK.host, Kept.foldl]

end Sys2Proof.Machine
end

