-- ==== Sys2Proof/Laws/Kept/Scalar.lean ====
section
/-! SUPPORT. What the operations of Machine/Scalar.lean keep (`Kept`). -/

namespace Sys2Proof.Machine

set_option linter.unusedSimpArgs false

theorem cCmd_keeps (c : CSlot) (op : Nat) (k : Cls) (legal : Bool) (body : State → Nat → Nat → SlotRes)
    (hb : ∀ (ρ s : State) (n x : Nat), Kept ρ s → KeptRes ρ (body s n x)) : (cCmd c op k legal body).Keeps := hb

@[simp] theorem cBin_keeps (c : CSlot) (op : Nat) (f : W64 → W64 → W64) : (cBin c op f).Keeps := by
  unfold cBin
  try dsimp only
  apply cCmd_keeps
  intro ρ s n x hK
  simp (maxDischargeDepth := 20) +contextual [hK, hK.mem, hK.host, Kept.foldl]

@[simp] theorem cImm_keeps (c : CSlot) (op : Nat) (f : W64 → W64 → W64) : (cImm c op f).Keeps := by
  unfold cImm
  try dsimp only
  apply cCmd_keeps
  intro ρ s n x hK
  simp (maxDischargeDepth := 20) +contextual [hK, hK.mem, hK.host, Kept.foldl]

@[simp] theorem cCmp_keeps (c : CSlot) (op : Nat) (f : W64 → W64 → Bool) : (cCmp c op f).Keeps := by
  unfold cCmp
  try dsimp only
  apply cCmd_keeps
  intro ρ s n x hK
  simp (maxDischargeDepth := 20) +contextual [hK, hK.mem, hK.host, Kept.foldl]

@[simp] theorem cCmpi_keeps (c : CSlot) (op : Nat) (f : W64 → W64 → Bool) : (cCmpi c op f).Keeps := by
  unfold cCmpi
  try dsimp only
  apply cCmd_keeps
  intro ρ s n x hK
  simp (maxDischargeDepth := 20) +contextual [hK, hK.mem, hK.host, Kept.foldl]

@[simp] theorem cPred_keeps (c : CSlot) (op : Nat) (f : W64 → W64 → W64) : (cPred c op f).Keeps := by
  unfold cPred
  try dsimp only
  apply cCmd_keeps
  intro ρ s n x hK
  simp (maxDischargeDepth := 20) +contextual [hK, hK.mem, hK.host, Kept.foldl]

@[simp] theorem slotAdd_keeps (c : CSlot) : (slotAdd c).Keeps := by
  unfold slotAdd
  simp

@[simp] theorem slotSub_keeps (c : CSlot) : (slotSub c).Keeps := by
  unfold slotSub
  simp

@[simp] theorem slotAnd_keeps (c : CSlot) : (slotAnd c).Keeps := by
  unfold slotAnd
  simp

@[simp] theorem slotOr_keeps (c : CSlot) : (slotOr c).Keeps := by
  unfold slotOr
  simp

@[simp] theorem slotXor_keeps (c : CSlot) : (slotXor c).Keeps := by
  unfold slotXor
  simp

@[simp] theorem slotShl_keeps (c : CSlot) : (slotShl c).Keeps := by
  unfold slotShl
  simp

@[simp] theorem slotShr_keeps (c : CSlot) : (slotShr c).Keeps := by
  unfold slotShr
  simp

@[simp] theorem slotSar_keeps (c : CSlot) : (slotSar c).Keeps := by
  unfold slotSar
  simp

@[simp] theorem slotMul_keeps (c : CSlot) : (slotMul c).Keeps := by
  unfold slotMul
  simp

@[simp] theorem slotMulhu_keeps (c : CSlot) : (slotMulhu c).Keeps := by
  unfold slotMulhu
  simp

@[simp] theorem slotMin_keeps (c : CSlot) : (slotMin c).Keeps := by
  unfold slotMin
  simp

@[simp] theorem slotMax_keeps (c : CSlot) : (slotMax c).Keeps := by
  unfold slotMax
  simp

@[simp] theorem slotAddi_keeps (c : CSlot) : (slotAddi c).Keeps := by
  unfold slotAddi
  simp

@[simp] theorem slotAndi_keeps (c : CSlot) : (slotAndi c).Keeps := by
  unfold slotAndi
  simp

@[simp] theorem slotOri_keeps (c : CSlot) : (slotOri c).Keeps := by
  unfold slotOri
  simp

@[simp] theorem slotXori_keeps (c : CSlot) : (slotXori c).Keeps := by
  unfold slotXori
  simp

@[simp] theorem slotShli_keeps (c : CSlot) : (slotShli c).Keeps := by
  unfold slotShli
  simp

@[simp] theorem slotShri_keeps (c : CSlot) : (slotShri c).Keeps := by
  unfold slotShri
  simp

@[simp] theorem slotMovi_keeps (c : CSlot) : (slotMovi c).Keeps := by
  unfold slotMovi
  try dsimp only
  apply cCmd_keeps
  intro ρ s n x hK
  simp (maxDischargeDepth := 20) +contextual [hK, hK.mem, hK.host, Kept.foldl]

@[simp] theorem slotCmpEq_keeps (c : CSlot) : (slotCmpEq c).Keeps := by
  unfold slotCmpEq
  simp

@[simp] theorem slotCmpNe_keeps (c : CSlot) : (slotCmpNe c).Keeps := by
  unfold slotCmpNe
  simp

@[simp] theorem slotCmpLt_keeps (c : CSlot) : (slotCmpLt c).Keeps := by
  unfold slotCmpLt
  simp

@[simp] theorem slotCmpLtu_keeps (c : CSlot) : (slotCmpLtu c).Keeps := by
  unfold slotCmpLtu
  simp

@[simp] theorem slotCmpiEq_keeps (c : CSlot) : (slotCmpiEq c).Keeps := by
  unfold slotCmpiEq
  simp

@[simp] theorem slotCmpiLt_keeps (c : CSlot) : (slotCmpiLt c).Keeps := by
  unfold slotCmpiLt
  simp

@[simp] theorem slotPand_keeps (c : CSlot) : (slotPand c).Keeps := by
  unfold slotPand
  simp

@[simp] theorem slotPor_keeps (c : CSlot) : (slotPor c).Keeps := by
  unfold slotPor
  simp

@[simp] theorem slotPxor_keeps (c : CSlot) : (slotPxor c).Keeps := by
  unfold slotPxor
  simp

@[simp] theorem slotPnot_keeps (c : CSlot) : (slotPnot c).Keeps := by
  unfold slotPnot
  try dsimp only
  apply cCmd_keeps
  intro ρ s n x hK
  simp (maxDischargeDepth := 20) +contextual [hK, hK.mem, hK.host, Kept.foldl]

@[simp] theorem slotPset_keeps (c : CSlot) : (slotPset c).Keeps := by
  unfold slotPset
  try dsimp only
  apply cCmd_keeps
  intro ρ s n x hK
  simp (maxDischargeDepth := 20) +contextual [hK, hK.mem, hK.host, Kept.foldl]

@[simp] theorem slotJmp_keeps (c : CSlot) : (slotJmp c).Keeps := by
  unfold slotJmp
  try dsimp only
  apply cCmd_keeps
  intro ρ s n x hK
  simp (maxDischargeDepth := 20) +contextual [hK, hK.mem, hK.host, Kept.foldl]

@[simp] theorem slotJr_keeps (c : CSlot) : (slotJr c).Keeps := by
  unfold slotJr
  try dsimp only
  apply cCmd_keeps
  intro ρ s n x hK
  simp (maxDischargeDepth := 20) +contextual [hK, hK.mem, hK.host, Kept.foldl]

@[simp] theorem slotCall_keeps (c : CSlot) : (slotCall c).Keeps := by
  unfold slotCall
  try dsimp only
  apply cCmd_keeps
  intro ρ s n x hK
  simp (maxDischargeDepth := 20) +contextual [hK, hK.mem, hK.host, Kept.foldl]

@[simp] theorem slotLoop_keeps (c : CSlot) : (slotLoop c).Keeps := by
  unfold slotLoop
  try dsimp only
  apply cCmd_keeps
  intro ρ s n x hK
  simp (maxDischargeDepth := 20) +contextual [hK, hK.mem, hK.host, Kept.foldl]

@[simp] theorem slotCrd_keeps (c : CSlot) : (slotCrd c).Keeps := by
  unfold slotCrd
  try dsimp only
  apply cCmd_keeps
  intro ρ s n x hK
  simp (maxDischargeDepth := 20) +contextual [hK, hK.mem, hK.host, Kept.foldl]

@[simp] theorem slotCwr_keeps (c : CSlot) : (slotCwr c).Keeps := by
  unfold slotCwr
  try dsimp only
  apply cCmd_keeps
  intro ρ s n x hK
  simp (maxDischargeDepth := 20) +contextual [hK, hK.mem, hK.host, Kept.foldl]

@[simp] theorem State.nameLayer_kept {ρ : State} (s : State) (x i : Nat) (hK : Kept ρ s) : Kept ρ (State.nameLayer s x i) := by
  unfold State.nameLayer
  simp (maxDischargeDepth := 20) +contextual [hK, hK.mem, hK.host, Kept.foldl]

@[simp] theorem recPoison_kept {ρ : State} (s : State) (n : Nat) (hK : Kept ρ s) : Kept ρ (recPoison s n) := by
  unfold recPoison
  simp (maxDischargeDepth := 20) +contextual [hK, hK.mem, hK.host, Kept.foldl]

@[simp] theorem slotClvl_keeps (c : CSlot) : (slotClvl c).Keeps := by
  unfold slotClvl
  try dsimp only
  apply cCmd_keeps
  intro ρ s n x hK
  simp (maxDischargeDepth := 20) +contextual [hK, hK.mem, hK.host, Kept.foldl]

@[simp] theorem slotTld_keeps (c : CSlot) : (slotTld c).Keeps := by
  unfold slotTld
  try dsimp only
  apply cCmd_keeps
  intro ρ s n x hK
  simp (maxDischargeDepth := 20) +contextual [hK, hK.mem, hK.host, Kept.foldl]

@[simp] theorem slotTst_keeps (c : CSlot) : (slotTst c).Keeps := by
  unfold slotTst
  try dsimp only
  apply cCmd_keeps
  intro ρ s n x hK
  simp (maxDischargeDepth := 20) +contextual [hK, hK.mem, hK.host, Kept.foldl]

@[simp] theorem slotTaddr_keeps (c : CSlot) : (slotTaddr c).Keeps := by
  unfold slotTaddr
  try dsimp only
  apply cCmd_keeps
  intro ρ s n x hK
  simp (maxDischargeDepth := 20) +contextual [hK, hK.mem, hK.host, Kept.foldl]

@[simp] theorem slotTorg_keeps (c : CSlot) : (slotTorg c).Keeps := by
  unfold slotTorg
  try dsimp only
  apply cCmd_keeps
  intro ρ s n x hK
  simp (maxDischargeDepth := 20) +contextual [hK, hK.mem, hK.host, Kept.foldl]

@[simp] theorem slotLds_keeps (c : CSlot) : (slotLds c).Keeps := by
  unfold slotLds
  try dsimp only
  apply cCmd_keeps
  intro ρ s n x hK
  simp (maxDischargeDepth := 20) +contextual [hK, hK.mem, hK.host, Kept.foldl]

@[simp] theorem slotSts_keeps (c : CSlot) : (slotSts c).Keeps := by
  unfold slotSts
  try dsimp only
  apply cCmd_keeps
  intro ρ s n x hK
  simp (maxDischargeDepth := 20) +contextual [hK, hK.mem, hK.host, Kept.foldl]

@[simp] theorem slotCspec_keeps (c : CSlot) : (slotCspec c).Keeps := by
  unfold slotCspec
  try dsimp only
  apply cCmd_keeps
  intro ρ s n x hK
  simp (maxDischargeDepth := 20) +contextual [hK, hK.mem, hK.host, Kept.foldl]

@[simp] theorem slotCcommit_keeps (c : CSlot) : (slotCcommit c).Keeps := by
  unfold slotCcommit
  try dsimp only
  apply cCmd_keeps
  intro ρ s n x hK
  simp (maxDischargeDepth := 20) +contextual [hK, hK.mem, hK.host, Kept.foldl]

@[simp] theorem slotCcommitStep_keeps (c : CSlot) : (slotCcommitStep c).Keeps := by
  unfold slotCcommitStep
  try dsimp only
  apply cCmd_keeps
  intro ρ s n x hK
  simp (maxDischargeDepth := 20) +contextual [hK, hK.mem, hK.host, Kept.foldl]

@[simp] theorem slotHalt_keeps (c : CSlot) : (slotHalt c).Keeps := by
  unfold slotHalt
  try dsimp only
  apply cCmd_keeps
  intro ρ s n x hK
  simp (maxDischargeDepth := 20) +contextual [hK, hK.mem, hK.host, Kept.foldl]

end Sys2Proof.Machine
end

