-- ==== Sys2Proof/Laws/Kept/Mordant.lean ====
section
/-! SUPPORT. What the operations of Machine/Mordant.lean keep (`Kept`). -/

namespace Sys2Proof.Machine

set_option linter.unusedSimpArgs false

@[simp] theorem State.recChk_kept {ρ : State} (s : State) (x n i : Nat) (hK : Kept ρ s) : KeptChk ρ (s.recChk x n i) := by
  unfold State.recChk
  dsimp only
  split
  · trivial
  · split
    · exact recPoison_kept _ _ hK
    · trivial

@[simp] theorem State.idChk_kept {ρ : State} (s : State) (x n rnd : Nat) (t : TD) (hK : Kept ρ s) : KeptChk ρ (s.idChk x n rnd t) := by
  unfold State.idChk
  split
  · exact State.recChk_kept _ _ _ _ hK
  · trivial

@[simp] theorem State.clearRec_kept {ρ : State} (s : State) (n i : Nat) (hK : Kept ρ s) : Kept ρ (State.clearRec s n i) := by
  unfold State.clearRec
  simp (maxDischargeDepth := 20) +contextual [hK, hK.mem, hK.host, Kept.foldl]

@[simp] theorem State.emptyHist_kept {ρ : State} (s : State) (n i : Nat) (hK : Kept ρ s) : Kept ρ (State.emptyHist s n i) := by
  unfold State.emptyHist
  simp (maxDischargeDepth := 20) +contextual [hK, hK.mem, hK.host, Kept.foldl]

@[simp] theorem State.recal_kept {ρ : State} (s : State) (n i : Nat) (hK : Kept ρ s) : Kept ρ (State.recal s n i) := by
  unfold State.recal
  simp (maxDischargeDepth := 20) +contextual [hK, hK.mem, hK.host, Kept.foldl]

@[simp] theorem State.nameRec_kept {ρ : State} (s : State) (x n i : Nat) (hK : Kept ρ s) : Kept ρ (State.nameRec s x n i) := by
  unfold State.nameRec
  simp (maxDischargeDepth := 20) +contextual [hK, hK.mem, hK.host, Kept.foldl]

@[simp] theorem State.tBegin_kept {ρ : State} (s : State) (n x : Nat) (recs : List Nat) (hK : Kept ρ s) : Kept ρ (s.tBegin n x recs) := by
  unfold State.tBegin
  refine Kept.foldl _ (fun s i h => by simp (maxDischargeDepth := 20) [h]) _ ?_
  split
  · exact hK
  · exact Kept.foldl _ (fun s i h => by simp (maxDischargeDepth := 20) [h]) _
      (Kept.foldl _ (fun s i h => by simp (maxDischargeDepth := 20) [h]) _ (by simp (maxDischargeDepth := 20) [hK]))

theorem tCmd_keeps (t : TSlot) (op : Nat) (k : Cls) (legal : Bool) (body : State → Nat → Nat → SlotRes)
    (hb : ∀ (ρ s : State) (n x : Nat), Kept ρ s → KeptRes ρ (body s n x)) : (tCmd t op k legal body).Keeps :=
  fun ρ s n x h => hb ρ _ n x (by simp (maxDischargeDepth := 20) [h])

@[simp] theorem slotTqz_keeps (t : TSlot) : (slotTqz t).Keeps := by
  unfold slotTqz
  refine tCmd_keeps _ _ _ _ _ (fun ρ s n x h => ?_)
  extract_lets c a b src dst need1 rc sb mode tensor N nl rows dom lakes all dsrc d ps s3 s4
  have h2 : Kept ρ sb := by simp (maxDischargeDepth := 20) [sb, h]
  have h3 : Kept ρ s3 := State.evalsUp_kept _ _ _ h2
  have h4 : Kept ρ s4 := by
    simp only [s4]
    split
    · exact (kept_drawN _).mpr h3
    · exact h3
  clear_value s4 s3
  split
  · simp only [keptRes_status]
  · split
    · simp only [keptRes_status]
    · split
      · simp only [keptRes_status]
      · split
        · simp only [keptRes_status]
        · split
          · next e => exact KeptChk.get (ρ := ρ) (by split <;> simp [h]) e
          · split
            · simp (maxDischargeDepth := 20) [cfFull, h]
            · next e => exact KeptRes.storeDone (State.store_kept _ _ _ _ _ _ _ (KeptOpt.get (State.countAll_kept _ _ _ h4) e)) _

@[simp] theorem slotTdq_keeps (t : TSlot) : (slotTdq t).Keeps := by
  unfold slotTdq
  refine tCmd_keeps _ _ _ _ _ (fun ρ s n x h => ?_)
  extract_lets c a b src dst rk sb lr vals get rows o k w osrc
  have h2 : Kept ρ sb := by simp (maxDischargeDepth := 20) [sb, h]
  clear_value sb
  split
  · simp only [keptRes_status]
  · split
    · simp only [keptRes_status]
    · split
      · simp only [keptRes_status]
      · split
        · simp only [keptRes_status]
        · split
          · next e => exact KeptChk.get (State.idChk_kept _ _ _ _ _ h) e
          · split
            · simp (maxDischargeDepth := 20) [cfFull, h]
            · next e =>
              exact KeptRes.storeDone (State.putTile_kept _ _ _ _ _ _ _
                (KeptOpt.get (State.countAll_kept _ _ _ (State.evalsUp_kept _ _ _ h2)) e)) _

@[simp] theorem slotTrot_keeps (t : TSlot) : (slotTrot t).Keeps := by
  unfold slotTrot
  try dsimp only
  apply tCmd_keeps
  intro ρ s n x hK
  extract_lets
  (repeat' first | split | extract_lets) <;> first
    | (simp only [keptRes_status, keptRes_wait, keptOut_fault, keptOpt_none]; done)
    | (simp +zetaDelta (maxDischargeDepth := 20) [hK, hK.mem, hK.host]; done)
    | (next e =>
        have k := KeptOpt.get (r := ρ) (by simp +zetaDelta (maxDischargeDepth := 20) [hK]) e
        simp +zetaDelta (maxDischargeDepth := 20) [k]
        done)
    | (next e1 e2 =>
        have k1 := KeptOpt.get (r := ρ) (by simp +zetaDelta (maxDischargeDepth := 20) [hK]) e1
        have k2 := KeptOpt.get (r := ρ) (by simp +zetaDelta (maxDischargeDepth := 20) [k1]) e2
        simp +zetaDelta (maxDischargeDepth := 20) [k2]
        done)
    | (next e =>
        have k := KeptStore.done (ρ := ρ) (by simp +zetaDelta (maxDischargeDepth := 20) [hK]) e
        simp +zetaDelta (maxDischargeDepth := 20) [k]
        done)
    | (next e =>
        have k := KeptStore.refused (ρ := ρ) (by simp +zetaDelta (maxDischargeDepth := 20) [hK]) e
        simp +zetaDelta (maxDischargeDepth := 20) [k]
        done)
    | (next e =>
        have k := KeptChk.get (ρ := ρ) (by simp +zetaDelta (maxDischargeDepth := 20) [hK]) e
        simp +zetaDelta (maxDischargeDepth := 20) [k]
        done)

@[simp] theorem slotTcv_keeps (t : TSlot) : (slotTcv t).Keeps := by
  unfold slotTcv
  refine tCmd_keeps _ _ _ _ _ (fun ρ s n x h => ?_)
  extract_lets c a b src dst sb ra e sc rows o s1
  have h2 : Kept ρ sb := by simp (maxDischargeDepth := 20) [sb, h]
  have h1 : Kept ρ s1 := by
    simp only [s1]
    split
    · exact State.rawWrite_kept _ _ _ h2
    · exact h2
  clear_value s1
  split
  · simp only [keptRes_status]
  · split
    · simp only [keptRes_status]
    · split
      · simp only [keptRes_status]
      · split
        · simp only [keptRes_status]
        · split
          · next e => exact KeptChk.get (ρ := ρ) (by split <;> simp [h]) e
          · split
            · simp (maxDischargeDepth := 20) [cfFull, h]
            · next e =>
              exact KeptRes.storeDone (State.putTile_kept _ _ _ _ _ _ _
                (KeptOpt.get (State.countAll_kept _ _ _ (State.evalsUp_kept _ _ _ h1)) e)) _

@[simp] theorem slotTstatAmax_keeps (t : TSlot) : (slotTstatAmax t).Keeps := by
  unfold slotTstatAmax
  try dsimp only
  apply tCmd_keeps
  intro ρ s n x hK
  extract_lets
  (repeat' first | split | extract_lets) <;> first
    | (simp only [keptRes_status, keptRes_wait, keptOut_fault, keptOpt_none]; done)
    | (simp +zetaDelta (maxDischargeDepth := 20) [hK, hK.mem, hK.host]; done)
    | (next e =>
        have k := KeptOpt.get (r := ρ) (by simp +zetaDelta (maxDischargeDepth := 20) [hK]) e
        simp +zetaDelta (maxDischargeDepth := 20) [k]
        done)
    | (next e1 e2 =>
        have k1 := KeptOpt.get (r := ρ) (by simp +zetaDelta (maxDischargeDepth := 20) [hK]) e1
        have k2 := KeptOpt.get (r := ρ) (by simp +zetaDelta (maxDischargeDepth := 20) [k1]) e2
        simp +zetaDelta (maxDischargeDepth := 20) [k2]
        done)
    | (next e =>
        have k := KeptStore.done (ρ := ρ) (by simp +zetaDelta (maxDischargeDepth := 20) [hK]) e
        simp +zetaDelta (maxDischargeDepth := 20) [k]
        done)
    | (next e =>
        have k := KeptStore.refused (ρ := ρ) (by simp +zetaDelta (maxDischargeDepth := 20) [hK]) e
        simp +zetaDelta (maxDischargeDepth := 20) [k]
        done)
    | (next e =>
        have k := KeptChk.get (ρ := ρ) (by simp +zetaDelta (maxDischargeDepth := 20) [hK]) e
        simp +zetaDelta (maxDischargeDepth := 20) [k]
        done)

@[simp] theorem slotTstatChk_keeps (t : TSlot) : (slotTstatChk t).Keeps := by
  unfold slotTstatChk
  try dsimp only
  apply tCmd_keeps
  intro ρ s n x hK
  extract_lets
  (repeat' first | split | extract_lets) <;> first
    | (simp only [keptRes_status, keptRes_wait, keptOut_fault, keptOpt_none]; done)
    | (simp +zetaDelta (maxDischargeDepth := 20) [hK, hK.mem, hK.host]; done)
    | (next e =>
        have k := KeptOpt.get (r := ρ) (by simp +zetaDelta (maxDischargeDepth := 20) [hK]) e
        simp +zetaDelta (maxDischargeDepth := 20) [k]
        done)
    | (next e1 e2 =>
        have k1 := KeptOpt.get (r := ρ) (by simp +zetaDelta (maxDischargeDepth := 20) [hK]) e1
        have k2 := KeptOpt.get (r := ρ) (by simp +zetaDelta (maxDischargeDepth := 20) [k1]) e2
        simp +zetaDelta (maxDischargeDepth := 20) [k2]
        done)
    | (next e =>
        have k := KeptStore.done (ρ := ρ) (by simp +zetaDelta (maxDischargeDepth := 20) [hK]) e
        simp +zetaDelta (maxDischargeDepth := 20) [k]
        done)
    | (next e =>
        have k := KeptStore.refused (ρ := ρ) (by simp +zetaDelta (maxDischargeDepth := 20) [hK]) e
        simp +zetaDelta (maxDischargeDepth := 20) [k]
        done)
    | (next e =>
        have k := KeptChk.get (ρ := ρ) (by simp +zetaDelta (maxDischargeDepth := 20) [hK]) e
        simp +zetaDelta (maxDischargeDepth := 20) [k]
        done)

@[simp] theorem slotTstatFin_keeps (t : TSlot) : (slotTstatFin t).Keeps := by
  unfold slotTstatFin
  try dsimp only
  apply tCmd_keeps
  intro ρ s n x hK
  extract_lets
  (repeat' first | split | extract_lets) <;> first
    | (simp only [keptRes_status, keptRes_wait, keptOut_fault, keptOpt_none]; done)
    | (simp +zetaDelta (maxDischargeDepth := 20) [hK, hK.mem, hK.host]; done)
    | (next e =>
        have k := KeptOpt.get (r := ρ) (by simp +zetaDelta (maxDischargeDepth := 20) [hK]) e
        simp +zetaDelta (maxDischargeDepth := 20) [k]
        done)
    | (next e1 e2 =>
        have k1 := KeptOpt.get (r := ρ) (by simp +zetaDelta (maxDischargeDepth := 20) [hK]) e1
        have k2 := KeptOpt.get (r := ρ) (by simp +zetaDelta (maxDischargeDepth := 20) [k1]) e2
        simp +zetaDelta (maxDischargeDepth := 20) [k2]
        done)
    | (next e =>
        have k := KeptStore.done (ρ := ρ) (by simp +zetaDelta (maxDischargeDepth := 20) [hK]) e
        simp +zetaDelta (maxDischargeDepth := 20) [k]
        done)
    | (next e =>
        have k := KeptStore.refused (ρ := ρ) (by simp +zetaDelta (maxDischargeDepth := 20) [hK]) e
        simp +zetaDelta (maxDischargeDepth := 20) [k]
        done)
    | (next e =>
        have k := KeptChk.get (ρ := ρ) (by simp +zetaDelta (maxDischargeDepth := 20) [hK]) e
        simp +zetaDelta (maxDischargeDepth := 20) [k]
        done)

end Sys2Proof.Machine
end

