-- ==== Sys2Proof/Laws/Kept/Weld.lean ====
section
/-! SUPPORT. What the operations of Machine/Weld.lean keep (`Kept`). -/

namespace Sys2Proof.Machine

set_option linter.unusedSimpArgs false

@[simp] theorem State.weldTrapped_kept {ρ : State} (s : State) (k cause : Nat) (pc : BitVec 12) (hK : Kept ρ s) : Kept ρ (State.weldTrapped s k cause pc) := by
  unfold State.weldTrapped
  simp (maxDischargeDepth := 20) +contextual [hK, hK.mem, hK.host, Kept.foldl]

@[simp] theorem State.weldTrapAt_kept {ρ : State} (s : State) (k cause : Nat) (hK : Kept ρ s) : Kept ρ (State.weldTrapAt s k cause) := by
  unfold State.weldTrapAt
  simp (maxDischargeDepth := 20) +contextual [hK, hK.mem, hK.host, Kept.foldl]

@[simp] theorem State.linkStore_kept {ρ : State} (s : State) (n a : Nat) (v : W32) (hK : Kept ρ s) : Kept ρ (State.linkStore s n a v) := by
  unfold State.linkStore
  dsimp only
  (repeat' split) <;> simp (maxDischargeDepth := 20) +contextual [hK, hK.mem, hK.host, Kept.foldl]

@[simp] theorem weldDo_kept {ρ : State} (k : Nat) (op : WOp) (s : State) (hK : Kept ρ s) : Kept ρ (weldDo k op s) := by
  unfold weldDo
  dsimp only
  (repeat' split) <;> simp (maxDischargeDepth := 20) +contextual [hK, hK.mem, hK.host, Kept.foldl]

@[simp] theorem weldCmd_kept {ρ : State} (w : WeldId) (op : WOp) (s : State) (hK : Kept ρ s) : KeptOut ρ (weldCmd w op s) := by
  unfold weldCmd
  simp (maxDischargeDepth := 20) +contextual [hK, hK.mem, hK.host, Kept.foldl]

@[simp] theorem execWeldAdd_kept {ρ : State} (a : WeldA) (s : State) (hK : Kept ρ s) : KeptOut ρ (execWeldAdd a s) := by
  unfold execWeldAdd
  simp (maxDischargeDepth := 20) +contextual [hK, hK.mem, hK.host, Kept.foldl]

@[simp] theorem execWeldSub_kept {ρ : State} (a : WeldA) (s : State) (hK : Kept ρ s) : KeptOut ρ (execWeldSub a s) := by
  unfold execWeldSub
  simp (maxDischargeDepth := 20) +contextual [hK, hK.mem, hK.host, Kept.foldl]

@[simp] theorem execWeldAnd_kept {ρ : State} (a : WeldA) (s : State) (hK : Kept ρ s) : KeptOut ρ (execWeldAnd a s) := by
  unfold execWeldAnd
  simp (maxDischargeDepth := 20) +contextual [hK, hK.mem, hK.host, Kept.foldl]

@[simp] theorem execWeldOr_kept {ρ : State} (a : WeldA) (s : State) (hK : Kept ρ s) : KeptOut ρ (execWeldOr a s) := by
  unfold execWeldOr
  simp (maxDischargeDepth := 20) +contextual [hK, hK.mem, hK.host, Kept.foldl]

@[simp] theorem execWeldXor_kept {ρ : State} (a : WeldA) (s : State) (hK : Kept ρ s) : KeptOut ρ (execWeldXor a s) := by
  unfold execWeldXor
  simp (maxDischargeDepth := 20) +contextual [hK, hK.mem, hK.host, Kept.foldl]

@[simp] theorem execWeldShl_kept {ρ : State} (a : WeldA) (s : State) (hK : Kept ρ s) : KeptOut ρ (execWeldShl a s) := by
  unfold execWeldShl
  simp (maxDischargeDepth := 20) +contextual [hK, hK.mem, hK.host, Kept.foldl]

@[simp] theorem execWeldShr_kept {ρ : State} (a : WeldA) (s : State) (hK : Kept ρ s) : KeptOut ρ (execWeldShr a s) := by
  unfold execWeldShr
  simp (maxDischargeDepth := 20) +contextual [hK, hK.mem, hK.host, Kept.foldl]

@[simp] theorem execWeldSar_kept {ρ : State} (a : WeldA) (s : State) (hK : Kept ρ s) : KeptOut ρ (execWeldSar a s) := by
  unfold execWeldSar
  simp (maxDischargeDepth := 20) +contextual [hK, hK.mem, hK.host, Kept.foldl]

@[simp] theorem execWeldMul_kept {ρ : State} (a : WeldA) (s : State) (hK : Kept ρ s) : KeptOut ρ (execWeldMul a s) := by
  unfold execWeldMul
  simp (maxDischargeDepth := 20) +contextual [hK, hK.mem, hK.host, Kept.foldl]

@[simp] theorem execWeldMulhu_kept {ρ : State} (a : WeldA) (s : State) (hK : Kept ρ s) : KeptOut ρ (execWeldMulhu a s) := by
  unfold execWeldMulhu
  simp (maxDischargeDepth := 20) +contextual [hK, hK.mem, hK.host, Kept.foldl]

@[simp] theorem execWeldSlt_kept {ρ : State} (a : WeldA) (s : State) (hK : Kept ρ s) : KeptOut ρ (execWeldSlt a s) := by
  unfold execWeldSlt
  simp (maxDischargeDepth := 20) +contextual [hK, hK.mem, hK.host, Kept.foldl]

@[simp] theorem execWeldSltu_kept {ρ : State} (a : WeldA) (s : State) (hK : Kept ρ s) : KeptOut ρ (execWeldSltu a s) := by
  unfold execWeldSltu
  simp (maxDischargeDepth := 20) +contextual [hK, hK.mem, hK.host, Kept.foldl]

@[simp] theorem execWeldMin_kept {ρ : State} (a : WeldA) (s : State) (hK : Kept ρ s) : KeptOut ρ (execWeldMin a s) := by
  unfold execWeldMin
  simp (maxDischargeDepth := 20) +contextual [hK, hK.mem, hK.host, Kept.foldl]

@[simp] theorem execWeldMax_kept {ρ : State} (a : WeldA) (s : State) (hK : Kept ρ s) : KeptOut ρ (execWeldMax a s) := by
  unfold execWeldMax
  simp (maxDischargeDepth := 20) +contextual [hK, hK.mem, hK.host, Kept.foldl]

@[simp] theorem execWeldAddi_kept {ρ : State} (a : WeldI) (s : State) (hK : Kept ρ s) : KeptOut ρ (execWeldAddi a s) := by
  unfold execWeldAddi
  simp (maxDischargeDepth := 20) +contextual [hK, hK.mem, hK.host, Kept.foldl]

@[simp] theorem execWeldAndi_kept {ρ : State} (a : WeldI) (s : State) (hK : Kept ρ s) : KeptOut ρ (execWeldAndi a s) := by
  unfold execWeldAndi
  simp (maxDischargeDepth := 20) +contextual [hK, hK.mem, hK.host, Kept.foldl]

@[simp] theorem execWeldOri_kept {ρ : State} (a : WeldI) (s : State) (hK : Kept ρ s) : KeptOut ρ (execWeldOri a s) := by
  unfold execWeldOri
  simp (maxDischargeDepth := 20) +contextual [hK, hK.mem, hK.host, Kept.foldl]

@[simp] theorem execWeldXori_kept {ρ : State} (a : WeldI) (s : State) (hK : Kept ρ s) : KeptOut ρ (execWeldXori a s) := by
  unfold execWeldXori
  simp (maxDischargeDepth := 20) +contextual [hK, hK.mem, hK.host, Kept.foldl]

@[simp] theorem execWeldShli_kept {ρ : State} (a : WeldI) (s : State) (hK : Kept ρ s) : KeptOut ρ (execWeldShli a s) := by
  unfold execWeldShli
  simp (maxDischargeDepth := 20) +contextual [hK, hK.mem, hK.host, Kept.foldl]

@[simp] theorem execWeldShri_kept {ρ : State} (a : WeldI) (s : State) (hK : Kept ρ s) : KeptOut ρ (execWeldShri a s) := by
  unfold execWeldShri
  simp (maxDischargeDepth := 20) +contextual [hK, hK.mem, hK.host, Kept.foldl]

@[simp] theorem execWeldLui_kept {ρ : State} (a : WeldU) (s : State) (hK : Kept ρ s) : KeptOut ρ (execWeldLui a s) := by
  unfold execWeldLui
  simp (maxDischargeDepth := 20) +contextual [hK, hK.mem, hK.host, Kept.foldl]

@[simp] theorem execWeldLd_kept {ρ : State} (a : WeldI) (s : State) (hK : Kept ρ s) : KeptOut ρ (execWeldLd a s) := by
  unfold execWeldLd
  simp (maxDischargeDepth := 20) +contextual [hK, hK.mem, hK.host, Kept.foldl]

@[simp] theorem execWeldSt_kept {ρ : State} (a : WeldI) (s : State) (hK : Kept ρ s) : KeptOut ρ (execWeldSt a s) := by
  unfold execWeldSt
  simp (maxDischargeDepth := 20) +contextual [hK, hK.mem, hK.host, Kept.foldl]

@[simp] theorem execWeldLdx_kept {ρ : State} (a : WeldI) (s : State) (hK : Kept ρ s) : KeptOut ρ (execWeldLdx a s) := by
  unfold execWeldLdx
  simp (maxDischargeDepth := 20) +contextual [hK, hK.mem, hK.host, Kept.foldl]

@[simp] theorem execWeldStx_kept {ρ : State} (a : WeldI) (s : State) (hK : Kept ρ s) : KeptOut ρ (execWeldStx a s) := by
  unfold execWeldStx
  simp (maxDischargeDepth := 20) +contextual [hK, hK.mem, hK.host, Kept.foldl]

@[simp] theorem execWeldBeq_kept {ρ : State} (a : WeldB) (s : State) (hK : Kept ρ s) : KeptOut ρ (execWeldBeq a s) := by
  unfold execWeldBeq
  simp (maxDischargeDepth := 20) +contextual [hK, hK.mem, hK.host, Kept.foldl]

@[simp] theorem execWeldBne_kept {ρ : State} (a : WeldB) (s : State) (hK : Kept ρ s) : KeptOut ρ (execWeldBne a s) := by
  unfold execWeldBne
  simp (maxDischargeDepth := 20) +contextual [hK, hK.mem, hK.host, Kept.foldl]

@[simp] theorem execWeldBlt_kept {ρ : State} (a : WeldB) (s : State) (hK : Kept ρ s) : KeptOut ρ (execWeldBlt a s) := by
  unfold execWeldBlt
  simp (maxDischargeDepth := 20) +contextual [hK, hK.mem, hK.host, Kept.foldl]

@[simp] theorem execWeldBge_kept {ρ : State} (a : WeldB) (s : State) (hK : Kept ρ s) : KeptOut ρ (execWeldBge a s) := by
  unfold execWeldBge
  simp (maxDischargeDepth := 20) +contextual [hK, hK.mem, hK.host, Kept.foldl]

@[simp] theorem execWeldBltu_kept {ρ : State} (a : WeldB) (s : State) (hK : Kept ρ s) : KeptOut ρ (execWeldBltu a s) := by
  unfold execWeldBltu
  simp (maxDischargeDepth := 20) +contextual [hK, hK.mem, hK.host, Kept.foldl]

@[simp] theorem execWeldJal_kept {ρ : State} (a : WeldU) (s : State) (hK : Kept ρ s) : KeptOut ρ (execWeldJal a s) := by
  unfold execWeldJal
  simp (maxDischargeDepth := 20) +contextual [hK, hK.mem, hK.host, Kept.foldl]

@[simp] theorem execWeldJr_kept {ρ : State} (a : WeldI) (s : State) (hK : Kept ρ s) : KeptOut ρ (execWeldJr a s) := by
  unfold execWeldJr
  simp (maxDischargeDepth := 20) +contextual [hK, hK.mem, hK.host, Kept.foldl]

@[simp] theorem execWeldRet_kept {ρ : State} (a : WeldA) (s : State) (hK : Kept ρ s) : KeptOut ρ (execWeldRet a s) := by
  unfold execWeldRet
  simp (maxDischargeDepth := 20) +contextual [hK, hK.mem, hK.host, Kept.foldl]

@[simp] theorem execWeldTrap_kept {ρ : State} (a : WeldA) (s : State) (hK : Kept ρ s) : KeptOut ρ (execWeldTrap a s) := by
  unfold execWeldTrap
  simp (maxDischargeDepth := 20) +contextual [hK, hK.mem, hK.host, Kept.foldl]

@[simp] theorem execWeldBudgetTrap_kept {ρ : State} (w : WeldId) (s : State) (hK : Kept ρ s) : KeptOut ρ (execWeldBudgetTrap w s) := by
  unfold execWeldBudgetTrap
  simp (maxDischargeDepth := 20) +contextual [hK, hK.mem, hK.host, Kept.foldl]

@[simp] theorem State.weldIssue_kept {ρ : State} (s : State) (k : Nat) (hK : Kept ρ s) : Kept ρ (State.weldIssue s k) := by
  unfold State.weldIssue
  dsimp only
  (repeat' split) <;> simp (maxDischargeDepth := 20) +contextual [hK, hK.mem, hK.host, Kept.foldl]

@[simp] theorem State.policyRun_kept {ρ : State} (s : State) (k entry : Nat) (inSpace : Nat → Bool) (mask : Nat → W32) (io : AMap W32) (hK : Kept ρ s) : Kept ρ (State.policyRun s k entry inSpace mask io).1 := by
  unfold State.policyRun
  dsimp only
  (repeat' split) <;> simp (maxDischargeDepth := 20) +contextual [hK, hK.mem, hK.host, Kept.foldl]

@[simp] theorem State.loadIgnored_kept {ρ : State} (s : State) (k : Nat) (hK : Kept ρ s) : Kept ρ (State.loadIgnored s k) := by
  unfold State.loadIgnored
  simp (maxDischargeDepth := 20) +contextual [hK, hK.mem, hK.host, Kept.foldl]

@[simp] theorem State.startLoad_kept {ρ : State} (s : State) (k : Nat) (hK : Kept ρ s) : Kept ρ (State.startLoad s k) := by
  unfold State.startLoad
  simp (maxDischargeDepth := 20) +contextual [hK, hK.mem, hK.host, Kept.foldl]

@[simp] theorem execWldLoad_kept {ρ : State} (w : WeldId) (s : State) (hK : Kept ρ s) : KeptOut ρ (execWldLoad w s) := by
  unfold execWldLoad
  simp (maxDischargeDepth := 20) +contextual [hK, hK.mem, hK.host, Kept.foldl]

@[simp] theorem execWldLoadDone_kept {ρ : State} (w : WeldId) (s : State) (hK : Kept ρ s) : KeptOut ρ (execWldLoadDone w s) := by
  unfold execWldLoadDone
  simp (maxDischargeDepth := 20) +contextual [hK, hK.mem, hK.host, Kept.foldl]

@[simp] theorem State.clearData_kept {ρ : State} (s : State) (k : Nat) (hK : Kept ρ s) : Kept ρ (State.clearData s k) := by
  unfold State.clearData
  simp (maxDischargeDepth := 20) +contextual [hK, hK.mem, hK.host, Kept.foldl]

@[simp] theorem execClrData_kept {ρ : State} (w : WeldId) (s : State) (hK : Kept ρ s) : KeptOut ρ (execClrData w s) := by
  unfold execClrData
  simp (maxDischargeDepth := 20) +contextual [hK, hK.mem, hK.host, Kept.foldl]

@[simp] theorem State.wrProgData_kept {ρ : State} (s : State) (k : Nat) (v : W32) (hK : Kept ρ s) : Kept ρ (State.wrProgData s k v) := by
  unfold State.wrProgData
  simp (maxDischargeDepth := 20) +contextual [hK, hK.mem, hK.host, Kept.foldl]

@[simp] theorem execWldProgDataWrite_kept {ρ : State} (w : WeldId) (v : W32) (s : State) (hK : Kept ρ s) : KeptOut ρ (execWldProgDataWrite w v s) := by
  unfold execWldProgDataWrite
  simp (maxDischargeDepth := 20) +contextual [hK, hK.mem, hK.host, Kept.foldl]

end Sys2Proof.Machine
end

