-- ==== Sys2Proof/Laws/Kept/Verdict.lean ====
section
/-! SUPPORT. What the operations of Machine/Verdict.lean keep (`Kept`). -/

namespace Sys2Proof.Machine

set_option linter.unusedSimpArgs false

@[simp] theorem execFinDeltasReceive_kept {ρ : State} (k : CoreId) (s : State) (hK : Kept ρ s) : KeptOut ρ (execFinDeltasReceive k s) := by
  unfold execFinDeltasReceive
  dsimp only
  (repeat' split) <;> simp (maxDischargeDepth := 20) +contextual [hK, hK.mem, hK.host, Kept.foldl]

@[simp] theorem execShadowDigestReceive_kept {ρ : State} (k : CoreId) (s : State) (hK : Kept ρ s) : KeptOut ρ (execShadowDigestReceive k s) := by
  unfold execShadowDigestReceive
  dsimp only
  (repeat' split) <;> simp (maxDischargeDepth := 20) +contextual [hK, hK.mem, hK.host, Kept.foldl]

@[simp] theorem State.policyFault_kept {ρ : State} (s : State) (n : Nat) (hK : Kept ρ s) : Kept ρ (State.policyFault s n) := by
  unfold State.policyFault
  simp (maxDischargeDepth := 20) +contextual [hK, hK.mem, hK.host, Kept.foldl]

@[simp] theorem State.polDecide_kept {ρ : State} (s : State) (n : Nat) (b : List Byte) (d : Delta) (redye : Bool) (mb : Nat) (hK : Kept ρ s) : Kept ρ (State.polDecide s n b d redye mb).1 := by
  unfold State.polDecide
  dsimp only
  (repeat' split) <;> simp (maxDischargeDepth := 20) +contextual [hK, hK.mem, hK.host, Kept.foldl]

@[simp] theorem State.polDecideEnd_kept {ρ : State} (s : State) (n : Nat) (b : List Byte) (hK : Kept ρ s) : Kept ρ (State.polDecideEnd s n b).1 := by
  unfold State.polDecideEnd
  dsimp only
  (repeat' split) <;> simp (maxDischargeDepth := 20) +contextual [hK, hK.mem, hK.host, Kept.foldl]

@[simp] theorem State.noteVerdict_kept {ρ : State} (s : State) (n layer level : Nat) (v : Verdict) (redye : Bool) (hK : Kept ρ s) : Kept ρ (State.noteVerdict s n layer level v redye) := by
  unfold State.noteVerdict
  simp (maxDischargeDepth := 20) +contextual [hK, hK.mem, hK.host, Kept.foldl]

@[simp] theorem State.broadcast_kept {ρ : State} (s : State) (x : Nat) (run : Run) (v : Verdict) (hK : Kept ρ s) : Kept ρ (State.broadcast s x run v) := by
  unfold State.broadcast
  simp (maxDischargeDepth := 20) +contextual [hK, hK.mem, hK.host, Kept.foldl]

@[simp] theorem State.dropRun_kept {ρ : State} (s : State) (x : Nat) (run : Run) (hK : Kept ρ s) : Kept ρ (State.dropRun s x run) := by
  unfold State.dropRun
  simp (maxDischargeDepth := 20) +contextual [hK, hK.mem, hK.host, Kept.foldl]

@[simp] theorem State.recBad_kept {ρ : State} (s : State) (x n i : Nat) (hK : Kept ρ s) : KeptOpt ρ (State.recBad s x n i) := by
  unfold State.recBad
  simp (maxDischargeDepth := 20) +contextual [hK, hK.mem, hK.host, Kept.foldl]

@[simp] theorem State.ctxDecide_kept {ρ : State} (s : State) (x n : Nat) (b : List Byte) (d : Delta) (mb : Nat) (hK : Kept ρ s) : Kept ρ (State.ctxDecide s x n b d mb).1 := by
  unfold State.ctxDecide
  simp (maxDischargeDepth := 20) +contextual [hK, hK.mem, hK.host, Kept.foldl]

@[simp] theorem State.judge_kept {ρ : State} (s : State) (x n i : Nat) (run : Run) (d : Delta) (hK : Kept ρ s) :
    Kept ρ (s.judge x n i run d) := by
  unfold State.judge
  split
  · next e => exact KeptOpt.get (State.recBad_kept _ _ _ _ hK) e
  · extract_lets a b r v s1
    have hr : Kept ρ r.1 := State.ctxDecide_kept _ _ _ _ _ _ hK
    have h1 : Kept ρ s1 := by simp (maxDischargeDepth := 20) [s1, hr]
    clear_value s1 v
    cases v <;> simp (maxDischargeDepth := 20) [h1]

@[simp] theorem State.suspectCore_kept {ρ : State} (s : State) (n : Nat) (hK : Kept ρ s) : Kept ρ (State.suspectCore s n) := by
  unfold State.suspectCore
  simp (maxDischargeDepth := 20) +contextual [hK, hK.mem, hK.host, Kept.foldl]

@[simp] theorem State.writeArb_kept {ρ : State} (s : State) (x : Nat) (hK : Kept ρ s) : Kept ρ (State.writeArb s x) := by
  unfold State.writeArb
  simp (maxDischargeDepth := 20) +contextual [hK, hK.mem, hK.host, Kept.foldl]

@[simp] theorem State.arbState_kept {ρ : State} (s : State) (x n : Nat) (hK : Kept ρ s) : Kept ρ (State.arbState s x n) := by
  unfold State.arbState
  simp (maxDischargeDepth := 20) +contextual [hK, hK.mem, hK.host, Kept.foldl]

@[simp] theorem State.poisonTiles_kept {ρ : State} (s : State) (x : Nat) (run : Run) (tiles : List Nat) (hK : Kept ρ s) : Kept ρ (State.poisonTiles s x run tiles) := by
  unfold State.poisonTiles
  simp (maxDischargeDepth := 20) +contextual [hK, hK.mem, hK.host, Kept.foldl]

@[simp] theorem State.arbitrate_kept {ρ : State} (s : State) (x : Nat) (run : Run) (tiles : List Nat) (hK : Kept ρ s) : Kept ρ (State.arbitrate s x run tiles) := by
  unfold State.arbitrate
  dsimp only
  (repeat' split) <;> simp (maxDischargeDepth := 20) +contextual [hK, hK.mem, hK.host, Kept.foldl]

@[simp] theorem State.vote_kept {ρ : State} (s : State) (x : Nat) (r : Arb) (e : Nat × W64 × W64) (hK : Kept ρ s) : Kept ρ (s.vote x r e).1 := by
  unfold State.vote
  extract_lets ds v q code s1
  have h1 : Kept ρ s1 := by simp (maxDischargeDepth := 20) [s1, hK]
  split
  · exact h1
  · exact Kept.foldl _ (fun s i h => by simp (maxDischargeDepth := 20) [h]) _ (by simp (maxDischargeDepth := 20) [h1])

@[simp] theorem State.compare_kept {ρ : State} (s : State) (x : Nat) (run : Run) (skip : List Nat) (hK : Kept ρ s) : Kept ρ (s.compare x run skip).1 := by
  unfold State.compare
  exact Kept.foldl _ (fun s i h => by simp (maxDischargeDepth := 20) [h]) _ (by simp (maxDischargeDepth := 20) [hK])

@[simp] theorem execVerdict_kept {ρ : State} (slot : Fin 4) (run : Run) (s : State) (hK : Kept ρ s) : KeptOut ρ (execVerdict slot run s) := by
  unfold execVerdict
  extract_lets x c d inArb q vs s1 bad
  have hq : Kept ρ q.1 := State.compare_kept _ _ _ _ hK
  have hv : Kept ρ vs.1 := Kept.foldl_fst (fun (a : State × List Nat) e => let v := a.1.vote x c.arb e; (v.1, a.2 ++ [v.2])) (fun a e h => State.vote_kept _ _ _ _ h) _ hq
  split
  · extract_lets earlier
    split
    · exact hK
    · split
      · rw [keptOut_next]
        split <;> simp (maxDischargeDepth := 20) [hq]
      · split
        · simp (maxDischargeDepth := 20) [hq]
        · split
          · split
            · simp (maxDischargeDepth := 20) [hv]
            · split <;> simp (maxDischargeDepth := 20) [s1, hv]
          · rw [keptOut_next]
            split <;> simp (maxDischargeDepth := 20) [hq]
  · exact hK

@[simp] theorem State.addTotals_kept {ρ : State} (s0 : State) (x n trec : Nat) (d : Delta) (hK : Kept ρ s0) : Kept ρ (State.addTotals s0 x n trec d) := by
  unfold State.addTotals
  simp (maxDischargeDepth := 20) +contextual [hK, hK.mem, hK.host, Kept.foldl]

@[simp] theorem execRedyeVerdict_kept {ρ : State} (slot : Fin 4) (lrec : BitVec 16) (s : State) (hK : Kept ρ s) :
    KeptOut ρ (execRedyeVerdict slot lrec s) := by
  unfold execRedyeVerdict
  extract_lets x c i
  split
  · exact hK
  · split
    · exact hK
    · split
      · next e => exact KeptOpt.get (State.recBad_kept _ _ _ _ hK) e
      · extract_lets b0 layer n w mine d s1 c2 s2 a b r s3
        split
        · next e => exact KeptOpt.get (State.recBad_kept _ _ _ _ hK) e
        · have h1 : Kept ρ s1 := by simp (maxDischargeDepth := 20) [s1, hK]
          have h2 : Kept ρ s2 := by simp (maxDischargeDepth := 20) [s2, h1]
          have hr : Kept ρ r.1 := State.polDecide_kept _ _ _ _ _ _ h2
          have h3 : Kept ρ s3 := by simp (maxDischargeDepth := 20) [s3, hr]
          split <;> simp (maxDischargeDepth := 20) [h3]

end Sys2Proof.Machine
end

