-- ==== Sys2Proof/Laws/Kept/Spares.lean ====
section
/-! SUPPORT. What the operations of Machine/Spares.lean keep (`Kept`). -/

namespace Sys2Proof.Machine

set_option linter.unusedSimpArgs false

@[simp] theorem State.sparesCheck_kept {ρ : State} (s : State) (p : Nat) (hK : Kept ρ s) : Kept ρ (State.sparesCheck s p) := by
  unfold State.sparesCheck
  simp (maxDischargeDepth := 20) +contextual [hK, hK.mem, hK.host, Kept.foldl]

@[simp] theorem State.setLogical_kept {ρ : State} (s : State) (p : Nat) (l : List Nat) (hK : Kept ρ s) : Kept ρ (State.setLogical s p l) := by
  unfold State.setLogical
  simp (maxDischargeDepth := 20) +contextual [hK, hK.mem, hK.host, Kept.foldl]

@[simp] theorem State.substitute_kept {ρ : State} (s : State) (p old new : Nat) (t : CoreState) (hK : Kept ρ s) : Kept ρ (State.substitute s p old new t) := by
  unfold State.substitute
  extract_lets q a s1 c1 s2 w s3 s4 keep s5
  have h4 : Kept ρ s4 := by simp (maxDischargeDepth := 20) [s4, s3, s2, s1, hK]
  have h5 : Kept ρ s5 := by
    simp only [s5]
    split
    · exact h4
    · rw [kept_setCoreState]
      exact h4
  exact (kept_setCore _ _).mpr h5

@[simp] theorem State.withdrawCore_kept {ρ : State} (s : State) (p old : Nat) (t : CoreState) (hK : Kept ρ s) : Kept ρ (State.withdrawCore s p old t) := by
  unfold State.withdrawCore
  simp (maxDischargeDepth := 20) +contextual [hK, hK.mem, hK.host, Kept.foldl]

@[simp] theorem State.retireCore_kept {ρ : State} (s : State) (p old : Nat) (t : CoreState) (hK : Kept ρ s) : Kept ρ (State.retireCore s p old t) := by
  unfold State.retireCore
  split <;> simp (maxDischargeDepth := 20) [hK, hK.mem, hK.host]

@[simp] theorem State.returnCores_kept {ρ : State} (s : State) (p : Nat) (hK : Kept ρ s) : Kept ρ (State.returnCores s p) := by
  unfold State.returnCores
  simp (maxDischargeDepth := 20) +contextual [hK, hK.mem, hK.host, Kept.foldl]

@[simp] theorem State.boundaryPart_kept {ρ : State} (s : State) (p : Nat) (hK : Kept ρ s) : Kept ρ (State.boundaryPart s p) := by
  unfold State.boundaryPart
  dsimp only
  (repeat' split) <;> simp (maxDischargeDepth := 20) +contextual [hK, hK.mem, hK.host, Kept.foldl]

@[simp] theorem State.calibrate_kept {ρ : State} (s : State) (c : Calibration) (hK : Kept ρ s) : Kept ρ (State.calibrate s c) := by
  unfold State.calibrate
  dsimp only
  (repeat' split) <;> simp (maxDischargeDepth := 20) +contextual [hK, hK.mem, hK.host, Kept.foldl]

@[simp] theorem State.serveCalib_kept {ρ : State} (s : State) (hK : Kept ρ s) : Kept ρ (State.serveCalib s) := by
  unfold State.serveCalib
  refine Kept.foldl _ (fun s c h => ?_) _ hK
  split
  · exact State.calibrate_kept _ _ ⟨h.pending, h.variant, h.serial, h.mem, h.host⟩
  · exact h

@[simp] theorem State.boundaryCalib_kept {ρ : State} (s : State) (x : Nat) (hK : Kept ρ s) : Kept ρ (State.boundaryCalib s x) := by
  unfold State.boundaryCalib
  refine Kept.foldl _ (fun s c h => ?_) _ hK
  exact State.calibrate_kept _ _ ⟨h.pending, h.variant, h.serial, h.mem, h.host⟩

@[simp] theorem State.boundaryCores_kept {ρ : State} (s : State) (x : Nat) (hK : Kept ρ s) : Kept ρ (State.boundaryCores s x) := by
  unfold State.boundaryCores
  simp (maxDischargeDepth := 20) +contextual [hK, hK.mem, hK.host, Kept.foldl]

@[simp] theorem State.idleCores_kept {ρ : State} (s : State) (p : Nat) (hK : Kept ρ s) : Kept ρ (State.idleCores s p) := by
  unfold State.idleCores
  simp (maxDischargeDepth := 20) +contextual [hK, hK.mem, hK.host, Kept.foldl]

end Sys2Proof.Machine
end

