-- ==== Sys2Proof/Laws/Kept/Commit.lean ====
section
/-! SUPPORT. What the operations of Machine/Commit.lean keep (`Kept`). -/

namespace Sys2Proof.Machine

set_option linter.unusedSimpArgs false

@[simp] theorem execEpochIssueLimit_kept {ρ : State} (k : CoreId) (s : State) (hK : Kept ρ s) : KeptOut ρ (execEpochIssueLimit k s) := by
  unfold execEpochIssueLimit
  dsimp only
  (repeat' split) <;> simp (maxDischargeDepth := 20) +contextual [hK, hK.mem, hK.host, Kept.foldl]

@[simp] theorem State.addEntries_kept {ρ : State} (s : State) (x n : Nat) (l : List CfEntry) (hK : Kept ρ s) : Kept ρ (State.addEntries s x n l) := by
  unfold State.addEntries
  simp (maxDischargeDepth := 20) +contextual [hK, hK.mem, hK.host, Kept.foldl]

@[simp] theorem execEpochCommit_kept {ρ : State} (k : CoreId) (s : State) (hK : Kept ρ s) : KeptOut ρ (execEpochCommit k s) := by
  unfold execEpochCommit
  dsimp only
  (repeat' split) <;> simp (maxDischargeDepth := 20) +contextual [hK, hK.mem, hK.host, Kept.foldl]

@[simp] theorem execEpochAbort_kept {ρ : State} (slot : Fin 4) (run : Run) (s : State) (hK : Kept ρ s) : KeptOut ρ (execEpochAbort slot run s) := by
  unfold execEpochAbort
  simp (maxDischargeDepth := 20) +contextual [hK, hK.mem, hK.host, Kept.foldl]

@[simp] theorem State.ckStatus_kept {ρ : State} (s : State) (x : Nat) (done agreed : Bool) (reported shard : Nat) (nocmp : Bool) (hK : Kept ρ s) : Kept ρ (State.ckStatus s x done agreed reported shard nocmp) := by
  unfold State.ckStatus
  simp (maxDischargeDepth := 20) +contextual [hK, hK.mem, hK.host, Kept.foldl]

@[simp] theorem State.sendGroup_kept {ρ : State} (s : State) (x tc : Nat) (l : List Nat) (words : List W64) (hK : Kept ρ s) :
    Kept ρ (s.sendGroup x tc l words) := by
  unfold State.sendGroup
  exact Kept.foldl _ (fun s d h => Kept.foldl _ (fun s c h => by simp (maxDischargeDepth := 20) [h]) _ h) _ hK

@[simp] theorem State.cmpAgree_kept {ρ : State} (s : State) (x reported shard : Nat) (hK : Kept ρ s) : Kept ρ (State.cmpAgree s x reported shard) := by
  unfold State.cmpAgree
  dsimp only
  (repeat' split) <;> simp (maxDischargeDepth := 20) +contextual [hK, hK.mem, hK.host, Kept.foldl]

@[simp] theorem State.cmpDecide_kept {ρ : State} (s : State) (x : Nat) (hK : Kept ρ s) : Kept ρ (State.cmpDecide s x) := by
  unfold State.cmpDecide
  dsimp only
  (repeat' split) <;> simp (maxDischargeDepth := 20) +contextual [hK, hK.mem, hK.host, Kept.foldl]

@[simp] theorem State.commitDigest_kept {ρ : State} (s : State) (x : Nat) (hK : Kept ρ s) : Kept ρ (State.commitDigest s x) := by
  unfold State.commitDigest
  extract_lets c rs sd sums own s1 k1 s2 c2 s3 s4
  have hd : Kept ρ sd := by simp (maxDischargeDepth := 20) [sd, hK]
  have h2 : Kept ρ s2 := by simp (maxDischargeDepth := 20) [s2, s1, hd]
  have h4 : Kept ρ s4 := by simp (maxDischargeDepth := 20) [s4, s3, h2]
  clear_value s4 s2
  (repeat' split) <;> simp (maxDischargeDepth := 20) [hK, h2, h4]

@[simp] theorem execCommitDigestReceive_kept {ρ : State} (slot : Fin 4) (member : BitVec 12) (step : W32) (digest : W64) (s : State) (hK : Kept ρ s) : KeptOut ρ (execCommitDigestReceive slot member step digest s) := by
  unfold execCommitDigestReceive
  simp (maxDischargeDepth := 20) +contextual [hK, hK.mem, hK.host, Kept.foldl]

@[simp] theorem execCheckGroupTimeout_kept {ρ : State} (slot : Fin 4) (s : State) (hK : Kept ρ s) : KeptOut ρ (execCheckGroupTimeout slot s) := by
  unfold execCheckGroupTimeout
  simp (maxDischargeDepth := 20) +contextual [hK, hK.mem, hK.host, Kept.foldl]

@[simp] theorem execShardListReceive_kept {ρ : State} (slot : Fin 4) (member : BitVec 12) (digests : List W64) (s : State) (hK : Kept ρ s) : KeptOut ρ (execShardListReceive slot member digests s) := by
  unfold execShardListReceive
  dsimp only
  (repeat' split) <;> simp (maxDischargeDepth := 20) +contextual [hK, hK.mem, hK.host, Kept.foldl]

@[simp] theorem State.endLayer_kept {ρ : State} (s : State) (x i : Nat) (allFell : Bool) (hK : Kept ρ s) : Kept ρ (State.endLayer s x i allFell) := by
  unfold State.endLayer
  simp (maxDischargeDepth := 20) +contextual [hK, hK.mem, hK.host, Kept.foldl]

@[simp] theorem State.pushHist_kept {ρ : State} (s : State) (n i : Nat) (hK : Kept ρ s) : Kept ρ (State.pushHist s n i) := by
  unfold State.pushHist
  simp (maxDischargeDepth := 20) +contextual [hK, hK.mem, hK.host, Kept.foldl]

@[simp] theorem State.sendDirty_kept {ρ : State} (s : State) (x n : Nat) (hK : Kept ρ s) : Kept ρ (State.sendDirty s x n) := by
  unfold State.sendDirty
  simp (maxDischargeDepth := 20) +contextual [hK, hK.mem, hK.host, Kept.foldl]

@[simp] theorem State.resume_kept {ρ : State} (s : State) (x : Nat) (hK : Kept ρ s) : Kept ρ (State.resume s x) := by
  unfold State.resume
  simp (maxDischargeDepth := 20) +contextual [hK, hK.mem, hK.host, Kept.foldl]

@[simp] theorem execStepCommit_kept {ρ : State} (slot : Fin 4) (s : State) (hK : Kept ρ s) : KeptOut ρ (execStepCommit slot s) := by
  unfold execStepCommit
  extract_lets x c n0 op s1 fell allFell s2 s3 c3 s4 s5
  have h1 : Kept ρ s1 := Kept.foldl _ (fun s n h => by simp (maxDischargeDepth := 20) [h]) _ hK
  have h2 : Kept ρ s2 := Kept.foldl _ (fun s n h => by simp (maxDischargeDepth := 20) [h]) _ h1
  have h3 : Kept ρ s3 := Kept.foldl _ (fun s n h => by simp (maxDischargeDepth := 20) [h]) _ h2
  have h5 : Kept ρ s5 := by simp (maxDischargeDepth := 20) [s5, s4, h3]
  split
  · exact hK
  · split
    · exact Kept.foldl _ (fun s n h => by simp (maxDischargeDepth := 20) [h]) _ hK
    · split
      · exact hK
      · split
        · simp (maxDischargeDepth := 20) [hK]
        · split
          · next e =>
            obtain ⟨a, _, ha⟩ := List.exists_of_findSome?_eq_some e
            exact KeptOpt.get (State.recBad_kept _ _ _ _ hK) ha
          · simp (maxDischargeDepth := 20) [h5]

@[simp] theorem execDrainComplete_kept {ρ : State} (slot : Fin 4) (s : State) (hK : Kept ρ s) : KeptOut ρ (execDrainComplete slot s) := by
  unfold execDrainComplete
  simp (maxDischargeDepth := 20) +contextual [hK, hK.mem, hK.host, Kept.foldl]

end Sys2Proof.Machine
end

