-- ==== Sys2Proof/Laws/Kept/SaveImage.lean ====
section
/-! SUPPORT. What the operations of Machine/SaveImage.lean keep (`Kept`). -/

namespace Sys2Proof.Machine

set_option linter.unusedSimpArgs false

@[simp] theorem State.putImage_kept {ρ : State} (s : State) (buf : Nat) (i : Image) (hK : Kept ρ s) : Kept ρ (State.putImage s buf i) := by
  unfold State.putImage
  extract_lets s1
  have h : Kept ρ s1 := by simp (maxDischargeDepth := 20) [s1, hK]
  exact ⟨h.pending, h.variant, h.serial, h.mem, h.host⟩

@[simp] theorem State.beginSave_kept {ρ : State} (s : State) (x : Nat) (q : SaveReq) (hK : Kept ρ s) : Kept ρ (State.beginSave s x q) :=
  ⟨hK.pending, hK.variant, hK.serial, hK.mem, hK.host⟩

@[simp] theorem State.afterSave_kept {ρ : State} (s : State) (x : Nat) (stop : Bool) (hK : Kept ρ s) : Kept ρ (State.afterSave s x stop) := by
  unfold State.afterSave
  dsimp only
  (repeat' split) <;> simp (maxDischargeDepth := 20) +contextual [hK, hK.mem, hK.host, Kept.foldl]

@[simp] theorem execSaveBoundaryReached_kept {ρ : State} (slot : Fin 4) (s : State) (hK : Kept ρ s) : KeptOut ρ (execSaveBoundaryReached slot s) := by
  unfold execSaveBoundaryReached
  dsimp only
  (repeat' split) <;> simp (maxDischargeDepth := 20) +contextual [hK, hK.mem, hK.host, Kept.foldl]

@[simp] theorem State.loadStore_kept {ρ : State} (s : State) (x k p : Nat) (l : List (Nat × List Byte × Bool)) (hK : Kept ρ s) : Kept ρ (State.loadStore s x k p l) := by
  unfold State.loadStore
  simp (maxDischargeDepth := 20) +contextual [hK, hK.mem, hK.host, Kept.foldl]

@[simp] theorem State.loadCore_kept {ρ : State} (s : State) (n : Nat) (i : CoreImg) (hK : Kept ρ s) : Kept ρ (State.loadCore s n i) := by
  unfold State.loadCore
  simp (maxDischargeDepth := 20) +contextual [hK, hK.mem, hK.host, Kept.foldl]

@[simp] theorem State.loadWelds_kept {ρ : State} (s : State) (ps : List Nat) (base : Nat) (l : List (AMap W32)) (hK : Kept ρ s) : Kept ρ (State.loadWelds s ps base l) := by
  unfold State.loadWelds
  simp (maxDischargeDepth := 20) +contextual [hK, hK.mem, hK.host, Kept.foldl]

@[simp] theorem State.loadImage_kept {ρ : State} (s : State) (x : Nat) (i : Image) (hK : Kept ρ s) : Kept ρ (State.loadImage s x i) := by
  unfold State.loadImage
  simp (maxDischargeDepth := 20) +contextual [hK, hK.mem, hK.host, Kept.foldl]

end Sys2Proof.Machine
end

