-- ==== Sys2Proof/Laws/Kept/Sepia.lean ====
section
/-! SUPPORT. What the operations of Machine/Sepia.lean keep (`Kept`). -/

namespace Sys2Proof.Machine

set_option linter.unusedSimpArgs false

@[simp] theorem State.checkDesc_kept {ρ : State} (s : State) (x : Nat) (hK : Kept ρ s) : Kept ρ (State.checkDesc s x) := by
  unfold State.checkDesc
  simp (maxDischargeDepth := 20) +contextual [hK, hK.mem, hK.host, Kept.foldl]

@[simp] theorem State.toDest_kept {ρ : State} (s : State) (v : Save) (off addr : Nat) (b : List Byte) (hK : Kept ρ s) :
    Kept ρ (s.toDest v off addr b).1 := by
  unfold State.toDest
  dsimp only
  split
  · split
    · split
      · simp (maxDischargeDepth := 20) [hK]
      · exact hK
    · exact hK
  · split
    · exact hK
    · exact Kept.foldl _ (fun s c h => by simp (maxDischargeDepth := 20) [h]) _ hK

@[simp] theorem State.releaseEvery_kept {ρ : State} (s : State) (hK : Kept ρ s) : Kept ρ (State.releaseEvery s) := by
  unfold State.releaseEvery
  simp (maxDischargeDepth := 20) +contextual [hK, hK.mem, hK.host, Kept.foldl]

@[simp] theorem State.dropSave_kept {ρ : State} (s : State) (b : Nat) (hK : Kept ρ s) : Kept ρ (State.dropSave s b) := by
  unfold State.dropSave
  simp (maxDischargeDepth := 20) +contextual [hK, hK.mem, hK.host, Kept.foldl]

@[simp] theorem State.requestSave_kept {ρ : State} (s : State) (x : Nat) (hK : Kept ρ s) : Kept ρ (State.requestSave s x) := by
  unfold State.requestSave
  simp (maxDischargeDepth := 20) +contextual [hK, hK.mem, hK.host, Kept.foldl]

@[simp] theorem execSaveTimer_kept {ρ : State} (slot : Fin 4) (s : State) (hK : Kept ρ s) : KeptOut ρ (execSaveTimer slot s) := by
  unfold execSaveTimer
  simp (maxDischargeDepth := 20) +contextual [hK, hK.mem, hK.host, Kept.foldl]

@[simp] theorem State.cmdSave_kept {ρ : State} (s : State) (v : W32) (hK : Kept ρ s) : Kept ρ (State.cmdSave s v) := by
  unfold State.cmdSave
  simp (maxDischargeDepth := 20) +contextual [hK, hK.mem, hK.host, Kept.foldl]

@[simp] theorem execSepSaveRequest_kept {ρ : State} (v : W32) (s : State) (hK : Kept ρ s) : KeptOut ρ (execSepSaveRequest v s) := by
  unfold execSepSaveRequest
  simp (maxDischargeDepth := 20) +contextual [hK, hK.mem, hK.host, Kept.foldl]

@[simp] theorem State.cmdPeerSave_kept {ρ : State} (s : State) (v : W32) (hK : Kept ρ s) : Kept ρ (State.cmdPeerSave s v) := by
  unfold State.cmdPeerSave
  simp (maxDischargeDepth := 20) +contextual [hK, hK.mem, hK.host, Kept.foldl]

@[simp] theorem execSepPeerSaveRequest_kept {ρ : State} (v : W32) (s : State) (hK : Kept ρ s) : KeptOut ρ (execSepPeerSaveRequest v s) := by
  unfold execSepPeerSaveRequest
  simp (maxDischargeDepth := 20) +contextual [hK, hK.mem, hK.host, Kept.foldl]

@[simp] theorem State.cmdAbandon_kept {ρ : State} (s : State) (v : W32) (hK : Kept ρ s) : Kept ρ (State.cmdAbandon s v) := by
  unfold State.cmdAbandon
  split <;> simp (maxDischargeDepth := 20) [hK, hK.mem, hK.host]

@[simp] theorem execSepAbandon_kept {ρ : State} (v : W32) (s : State) (hK : Kept ρ s) : KeptOut ρ (execSepAbandon v s) := by
  unfold execSepAbandon
  simp (maxDischargeDepth := 20) +contextual [hK, hK.mem, hK.host, Kept.foldl]

@[simp] theorem execSaveStart_kept {ρ : State} (slot : Fin 4) (s : State) (hK : Kept ρ s) : KeptOut ρ (execSaveStart slot s) := by
  unfold execSaveStart
  extract_lets x s0 c s1 t d v s2 s3 r s4
  have h0 : Kept ρ s0 := by simp (maxDischargeDepth := 20) [s0, hK]
  have h1 : Kept ρ s1 := by simp (maxDischargeDepth := 20) [s1, h0]
  have h3 : Kept ρ s3 := by simp (maxDischargeDepth := 20) [s3, s2, h1]
  have hd : Kept ρ (s3.toDest v 0 0 (List.replicate 64 0)).1 := State.toDest_kept _ _ _ _ _ h3
  have hr : Kept ρ r.1 := by
    rcases Bool.eq_false_or_eq_true v.peer.isSome with e | e
    · simpa only [r, e, if_true] using h3
    · simpa only [r, e, Bool.false_eq_true, if_false] using hd
  clear_value r s3
  have h4 : Kept ρ s4 := by
    simp only [s4]
    split
    · exact hr
    · simp (maxDischargeDepth := 20) [h3]
  clear_value s4
  split
  · exact hK
  · split
    · rw [keptOut_next]
      split <;> simp (maxDischargeDepth := 20) [h1]
    · rw [keptOut_next]
      split <;> simp (maxDischargeDepth := 20) [h4]

@[simp] theorem execPieceCaptured_kept {ρ : State} (s : State) (hK : Kept ρ s) : KeptOut ρ (execPieceCaptured s) := by
  unfold execPieceCaptured
  dsimp only
  (repeat' split) <;> simp (maxDischargeDepth := 20) +contextual [hK, hK.mem, hK.host, Kept.foldl]

@[simp] theorem execSaveDone_kept {ρ : State} (s : State) (hK : Kept ρ s) : KeptOut ρ (execSaveDone s) := by
  unfold execSaveDone
  split
  · exact hK
  · next v _ =>
    extract_lets x pcs r m m0 s1 s2 s3
    have hr : Kept ρ r.1 := by
      simp only [r]
      split
      · exact hK
      · exact Kept.foldl_fst _ (fun p b h => by exact State.toDest_kept _ _ _ _ _ h) _ (p := (s, true)) hK
    have hm : Kept ρ m.1 := State.toDest_kept _ _ _ _ _ hr
    have h3 : Kept ρ s3 := by simp (maxDischargeDepth := 20) [s3, s2, s1, hm]
    clear_value s3
    (repeat' split) <;> simp (maxDischargeDepth := 20) [hK, h3]

@[simp] theorem State.endRestore_kept {ρ : State} (s : State) (x : Nat) (status : Nat) (step : W32) (hK : Kept ρ s) : Kept ρ (State.endRestore s x status step) := by
  unfold State.endRestore
  dsimp only
  (repeat' split) <;> simp (maxDischargeDepth := 20) +contextual [hK, hK.mem, hK.host, Kept.foldl]

@[simp] theorem execRestorePieceDone_kept {ρ : State} (slot : Fin 4) (s : State) (hK : Kept ρ s) : KeptOut ρ (execRestorePieceDone slot s) := by
  unfold execRestorePieceDone
  dsimp only
  (repeat' split) <;> simp (maxDischargeDepth := 20) +contextual [hK, hK.mem, hK.host, Kept.foldl]

@[simp] theorem execSaveStreamReceive_kept {ρ : State} (src : BitVec 12) (slot : Fin 4) (region offset : Nat) (data : List Byte) (last : Bool) (s : State) (hK : Kept ρ s) : KeptOut ρ (execSaveStreamReceive src slot region offset data last s) := by
  unfold execSaveStreamReceive
  dsimp only
  (repeat' split) <;> simp (maxDischargeDepth := 20) +contextual [hK, hK.mem, hK.host, Kept.foldl]

end Sys2Proof.Machine
end

