-- ==== Sys2Proof/Laws/Kept/HostCmds.lean ====
section
/-! SUPPORT. What the operations of Machine/HostCmds.lean keep (`Kept`). -/

namespace Sys2Proof.Machine

set_option linter.unusedSimpArgs false

@[simp] theorem State.takeCmd_kept {ρ : State} (s : State) (q : Nat) (hK : Kept ρ s) : KeptOpt ρ (State.takeCmd s q) := by
  unfold State.takeCmd
  simp (maxDischargeDepth := 20) +contextual [hK, hK.mem, hK.host, Kept.foldl]

@[simp] theorem State.reply_kept {ρ : State} (s : State) (c : HostCmd) (result status reason : Nat) (hK : Kept ρ s) : Kept ρ (State.reply s c result status reason) := by
  unfold State.reply
  simp (maxDischargeDepth := 20) +contextual [hK, hK.mem, hK.host, Kept.foldl]

@[simp] theorem State.refuse_kept {ρ : State} (s : State) (c : HostCmd) (reason : Nat) (hK : Kept ρ s) : Kept ρ (State.refuse s c reason) := by
  unfold State.refuse
  simp (maxDischargeDepth := 20) +contextual [hK, hK.mem, hK.host, Kept.foldl]

@[simp] theorem State.doneCmd_kept {ρ : State} (s : State) (c : HostCmd) (hK : Kept ρ s) : Kept ρ (State.doneCmd s c) := by
  unfold State.doneCmd
  simp (maxDischargeDepth := 20) +contextual [hK, hK.mem, hK.host, Kept.foldl]

theorem hostCmd_kept {ρ : State} (c : HostCmd) (busy : Bool) (st : CtxState → Bool) (body : State → Nat → State) (s : State)
    (hb : ∀ s x, Kept ρ s → Kept ρ (body s x)) (hK : Kept ρ s) : KeptOut ρ (hostCmd c busy st body s) := by
  unfold hostCmd
  dsimp only
  split
  · exact hK
  · next e =>
    have h1 := KeptOpt.get (State.takeCmd_kept _ _ hK) e
    rw [keptOut_next]
    split
    · simp (maxDischargeDepth := 20) [h1]
    · split
      · simp (maxDischargeDepth := 20) [h1]
      · split
        · simp (maxDischargeDepth := 20) [h1]
        · exact hb _ _ h1

@[simp] theorem State.bindSlot_kept {ρ : State} (s : State) (x : Nat) (b : List Byte) (hK : Kept ρ s) : Kept ρ (State.bindSlot s x b) := by
  unfold State.bindSlot
  simp (maxDischargeDepth := 20) +contextual [hK, hK.mem, hK.host, Kept.foldl]

@[simp] theorem execBind_kept {ρ : State} (c : HostCmd) (s : State) (hK : Kept ρ s) : KeptOut ρ (execBind c s) := by
  unfold execBind
  try dsimp only
  apply hostCmd_kept
  · intro s x hK
    simp (maxDischargeDepth := 20) +contextual [hK, hK.mem, hK.host, Kept.foldl]
  · exact hK

@[simp] theorem State.freeSlot_kept {ρ : State} (s : State) (x : Nat) (hK : Kept ρ s) : Kept ρ (State.freeSlot s x) := by
  unfold State.freeSlot
  dsimp only
  (repeat' split) <;> simp (maxDischargeDepth := 20) +contextual [hK, hK.mem, hK.host, Kept.foldl]

@[simp] theorem execUnbind_kept {ρ : State} (c : HostCmd) (s : State) (hK : Kept ρ s) : KeptOut ρ (execUnbind c s) := by
  unfold execUnbind
  try dsimp only
  apply hostCmd_kept
  · intro s x hK
    simp (maxDischargeDepth := 20) +contextual [hK, hK.mem, hK.host, Kept.foldl]
  · exact hK

@[simp] theorem execLoad_kept {ρ : State} (c : HostCmd) (s : State) (hK : Kept ρ s) : KeptOut ρ (execLoad c s) := by
  unfold execLoad
  try dsimp only
  apply hostCmd_kept
  · intro s x hK
    simp (maxDischargeDepth := 20) +contextual [hK, hK.mem, hK.host, Kept.foldl]
  · exact hK

@[simp] theorem execSubmit_kept {ρ : State} (c : HostCmd) (s : State) (hK : Kept ρ s) : KeptOut ρ (execSubmit c s) := by
  unfold execSubmit
  split
  · exact hK
  · apply hostCmd_kept
    · intro s x hK
      dsimp only
      split <;> simp (maxDischargeDepth := 20) [hK]
    · exact hK

@[simp] theorem execCancel_kept {ρ : State} (c : HostCmd) (s : State) (hK : Kept ρ s) : KeptOut ρ (execCancel c s) := by
  unfold execCancel
  apply hostCmd_kept
  · intro s x hK
    dsimp only
    (repeat' split) <;> simp (maxDischargeDepth := 20) +contextual [hK, hK.mem, hK.host, Kept.foldl]
  · exact hK

@[simp] theorem execSave_kept {ρ : State} (c : HostCmd) (s : State) (hK : Kept ρ s) : KeptOut ρ (execSave c s) := by
  unfold execSave
  try dsimp only
  apply hostCmd_kept
  · intro s x hK
    simp (maxDischargeDepth := 20) +contextual [hK, hK.mem, hK.host, Kept.foldl]
  · exact hK

@[simp] theorem State.clearSlot_kept {ρ : State} (s : State) (x : Nat) (hK : Kept ρ s) : Kept ρ (State.clearSlot s x) := by
  unfold State.clearSlot
  simp (maxDischargeDepth := 20) +contextual [hK, hK.mem, hK.host, Kept.foldl]

@[simp] theorem execClear_kept {ρ : State} (c : HostCmd) (s : State) (hK : Kept ρ s) : KeptOut ρ (execClear c s) := by
  unfold execClear
  try dsimp only
  apply hostCmd_kept
  · intro s x hK
    simp (maxDischargeDepth := 20) +contextual [hK, hK.mem, hK.host, Kept.foldl]
  · exact hK

@[simp] theorem execRestore_kept {ρ : State} (c : HostCmd) (s : State) (hK : Kept ρ s) : KeptOut ρ (execRestore c s) := by
  unfold execRestore
  apply hostCmd_kept
  · intro s x hK
    dsimp only
    (repeat' split) <;> simp (maxDischargeDepth := 20) +contextual [hK, hK.mem, hK.host, Kept.foldl]
  · exact hK

@[simp] theorem State.showRestore_kept {ρ : State} (s : State) (x : Nat) (hK : Kept ρ s) : Kept ρ (State.showRestore s x) := by
  unfold State.showRestore
  simp (maxDischargeDepth := 20) +contextual [hK, hK.mem, hK.host, Kept.foldl]

@[simp] theorem execRestoreCkpt_kept {ρ : State} (c : HostCmd) (s : State) (hK : Kept ρ s) : KeptOut ρ (execRestoreCkpt c s) := by
  unfold execRestoreCkpt
  try dsimp only
  apply hostCmd_kept
  · intro s x hK
    simp (maxDischargeDepth := 20) +contextual [hK, hK.mem, hK.host, Kept.foldl]
  · exact hK

@[simp] theorem execRestorePeer_kept {ρ : State} (c : HostCmd) (s : State) (hK : Kept ρ s) : KeptOut ρ (execRestorePeer c s) := by
  unfold execRestorePeer
  try dsimp only
  apply hostCmd_kept
  · intro s x hK
    simp (maxDischargeDepth := 20) +contextual [hK, hK.mem, hK.host, Kept.foldl]
  · exact hK

end Sys2Proof.Machine
end

