-- ==== Sys2Proof/Laws/Kept/Launch.lean ====
section
/-! SUPPORT. What the operations of Machine/Launch.lean keep (`Kept`). -/

namespace Sys2Proof.Machine

set_option linter.unusedSimpArgs false

@[simp] theorem State.reject_kept {ρ : State} (s : State) (x : Nat) (u : Submission) (reason v0 v1 : Nat) (hK : Kept ρ s) : Kept ρ (State.reject s x u reason v0 v1) := by
  unfold State.reject
  simp (maxDischargeDepth := 20) +contextual [hK, hK.mem, hK.host, Kept.foldl]

@[simp] theorem execAdmissionDecision_kept {ρ : State} (slot : Fin 4) (s : State) (hK : Kept ρ s) : KeptOut ρ (execAdmissionDecision slot s) := by
  unfold execAdmissionDecision
  dsimp only
  (repeat' split) <;> simp (maxDischargeDepth := 20) +contextual [hK, hK.mem, hK.host, Kept.foldl]

@[simp] theorem execPrewake_kept {ρ : State} (slot : Fin 4) (s : State) (hK : Kept ρ s) : KeptOut ρ (execPrewake slot s) := by
  unfold execPrewake
  dsimp only
  (repeat' split) <;> simp (maxDischargeDepth := 20) +contextual [hK, hK.mem, hK.host, Kept.foldl]

@[simp] theorem execUnitWake_kept {ρ : State} (u : UnitId) (s : State) (hK : Kept ρ s) : KeptOut ρ (execUnitWake u s) := by
  unfold execUnitWake
  simp (maxDischargeDepth := 20) +contextual [hK, hK.mem, hK.host, Kept.foldl]

@[simp] theorem execUnitSleep_kept {ρ : State} (u : UnitId) (s : State) (hK : Kept ρ s) : KeptOut ρ (execUnitSleep u s) := by
  unfold execUnitSleep
  simp (maxDischargeDepth := 20) +contextual [hK, hK.mem, hK.host, Kept.foldl]

@[simp] theorem execProgramLaunch_kept {ρ : State} (slot : Fin 4) (s : State) (hK : Kept ρ s) : KeptOut ρ (execProgramLaunch slot s) := by
  unfold execProgramLaunch
  dsimp only
  (repeat' split) <;> simp (maxDischargeDepth := 20) +contextual [hK, hK.mem, hK.host, Kept.foldl]

@[simp] theorem execPromiseOverrun_kept {ρ : State} (slot : Fin 4) (s : State) (hK : Kept ρ s) : KeptOut ρ (execPromiseOverrun slot s) := by
  unfold execPromiseOverrun
  dsimp only
  (repeat' split) <;> simp (maxDischargeDepth := 20) +contextual [hK, hK.mem, hK.host, Kept.foldl]

end Sys2Proof.Machine
end

