-- ==== Sys2Proof/Laws/Kept/Stacks.lean ====
section
/-! SUPPORT. What the operations of Machine/Stacks.lean keep (`Kept`). -/

namespace Sys2Proof.Machine

set_option linter.unusedSimpArgs false

@[simp] theorem execScrub_kept {ρ : State} (stack : Fin 20) (unit : Nat) (f : ScrubFinding) (s : State) (hK : Kept ρ s) : KeptOut ρ (execScrub stack unit f s) := by
  unfold execScrub
  dsimp only
  (repeat' split) <;> simp (maxDischargeDepth := 20) +contextual [hK, hK.mem, hK.host, Kept.foldl]

@[simp] theorem execRowRepairDone_kept {ρ : State} (stack : Fin 20) (row : Nat) (s : State) (hK : Kept ρ s) : KeptOut ρ (execRowRepairDone stack row s) := by
  unfold execRowRepairDone
  simp (maxDischargeDepth := 20) +contextual [hK, hK.mem, hK.host, Kept.foldl]

@[simp] theorem execStackFrame_kept {ρ : State} (stack : Fin 20) (s : State) (hK : Kept ρ s) : KeptOut ρ (execStackFrame stack s) := by
  unfold execStackFrame
  simp (maxDischargeDepth := 20) +contextual [hK, hK.mem, hK.host, Kept.foldl]

@[simp] theorem execTestRequest_kept {ρ : State} (k : CoreId) (_cause : TestCause) (s : State) (hK : Kept ρ s) : KeptOut ρ (execTestRequest k _cause s) := by
  unfold execTestRequest
  dsimp only
  (repeat' split) <;> simp (maxDischargeDepth := 20) +contextual [hK, hK.mem, hK.host, Kept.foldl]

@[simp] theorem execCalibration_kept {ρ : State} (c : Calibration) (s : State) (hK : Kept ρ s) : KeptOut ρ (execCalibration c s) := by
  unfold execCalibration
  rw [keptOut_next]
  split
  · simp (maxDischargeDepth := 20) [hK]
  · exact ⟨hK.pending, hK.variant, hK.serial, hK.mem, hK.host⟩

@[simp] theorem execStackIdleRefresh_kept {ρ : State} (stack : Fin 20) (s : State) (hK : Kept ρ s) : KeptOut ρ (execStackIdleRefresh stack s) := by
  unfold execStackIdleRefresh
  simp (maxDischargeDepth := 20) +contextual [hK, hK.mem, hK.host, Kept.foldl]

@[simp] theorem State.wrVwrCtrl_kept {ρ : State} (s : State) (p i : Nat) (v : W32) (hK : Kept ρ s) : Kept ρ (State.wrVwrCtrl s p i v) := by
  unfold State.wrVwrCtrl
  simp (maxDischargeDepth := 20) +contextual [hK, hK.mem, hK.host, Kept.foldl]

@[simp] theorem execVwrArm_kept {ρ : State} (part : Fin 4) (i : Fin 16) (v : W32) (s : State) (hK : Kept ρ s) : KeptOut ρ (execVwrArm part i v s) := by
  unfold execVwrArm
  simp (maxDischargeDepth := 20) +contextual [hK, hK.mem, hK.host, Kept.foldl]

@[simp] theorem execVwrDisarm_kept {ρ : State} (part : Fin 4) (i : Fin 16) (v : W32) (s : State) (hK : Kept ρ s) : KeptOut ρ (execVwrDisarm part i v s) := by
  unfold execVwrDisarm
  simp (maxDischargeDepth := 20) +contextual [hK, hK.mem, hK.host, Kept.foldl]

@[simp] theorem execVwrDrainComplete_kept {ρ : State} (part : Fin 4) (i : Fin 16) (s : State) (hK : Kept ρ s) : KeptOut ρ (execVwrDrainComplete part i s) := by
  unfold execVwrDrainComplete
  simp (maxDischargeDepth := 20) +contextual [hK, hK.mem, hK.host, Kept.foldl]

end Sys2Proof.Machine
end

