-- ==== Sys2Proof/Laws/Kept/Health.lean ====
section
/-! SUPPORT. What the operations of Machine/Health.lean keep (`Kept`). -/

namespace Sys2Proof.Machine

set_option linter.unusedSimpArgs false

@[simp] theorem State.testPassed_kept {ρ : State} (s : State) (n : Nat) (hK : Kept ρ s) : Kept ρ (State.testPassed s n) := by
  unfold State.testPassed
  simp (maxDischargeDepth := 20) +contextual [hK, hK.mem, hK.host, Kept.foldl]

@[simp] theorem State.testFailed_kept {ρ : State} (s : State) (n : Nat) (hK : Kept ρ s) : Kept ρ (State.testFailed s n) := by
  unfold State.testFailed
  simp (maxDischargeDepth := 20) +contextual [hK, hK.mem, hK.host, Kept.foldl]

@[simp] theorem State.testSettled_kept {ρ : State} (s : State) (n : Nat) (ok : Bool) (hK : Kept ρ s) : Kept ρ (State.testSettled s n ok) := by
  unfold State.testSettled
  simp (maxDischargeDepth := 20) +contextual [hK, hK.mem, hK.host, Kept.foldl]

@[simp] theorem State.crossCheck_kept {ρ : State} (s : State) (t : TestDone) (hK : Kept ρ s) : Kept ρ (State.crossCheck s t) := by
  unfold State.crossCheck
  dsimp only
  (repeat' split) <;> simp (maxDischargeDepth := 20) +contextual [hK, hK.mem, hK.host, Kept.foldl]

@[simp] theorem execTestPassComplete_kept {ρ : State} (k : CoreId) (r : TestResult) (s : State) (hK : Kept ρ s) : KeptOut ρ (execTestPassComplete k r s) := by
  unfold execTestPassComplete
  simp (maxDischargeDepth := 20) +contextual [hK, hK.mem, hK.host, Kept.foldl]

@[simp] theorem execStepReplay_kept {ρ : State} (slot : Fin 4) (s : State) (hK : Kept ρ s) : KeptOut ρ (execStepReplay slot s) := by
  unfold execStepReplay
  dsimp only
  (repeat' split) <;> simp (maxDischargeDepth := 20) +contextual [hK, hK.mem, hK.host, Kept.foldl]

@[simp] theorem execDroopEvent_kept {ρ : State} (part : Fin 4) (inst : Nat) (s : State) (hK : Kept ρ s) : KeptOut ρ (execDroopEvent part inst s) := by
  unfold execDroopEvent
  simp (maxDischargeDepth := 20) +contextual [hK, hK.mem, hK.host, Kept.foldl]

@[simp] theorem State.derateOne_kept {ρ : State} (s : State) (p : Nat) (hK : Kept ρ s) : Kept ρ (State.derateOne s p) := by
  unfold State.derateOne
  simp (maxDischargeDepth := 20) +contextual [hK, hK.mem, hK.host, Kept.foldl]

@[simp] theorem State.riskRequest_kept {ρ : State} (s : State) (r : Nat) (hK : Kept ρ s) : Kept ρ (State.riskRequest s r) := by
  unfold State.riskRequest
  simp (maxDischargeDepth := 20) +contextual [hK, hK.mem, hK.host, Kept.foldl]

@[simp] theorem execOchreSample_kept {ρ : State} (readings : List SensorReading) (s : State) (hK : Kept ρ s) : KeptOut ρ (execOchreSample readings s) := by
  unfold execOchreSample
  simp (maxDischargeDepth := 20) +contextual [hK, hK.mem, hK.host, Kept.foldl]

@[simp] theorem execLifeFit_kept {ρ : State} (s : State) (hK : Kept ρ s) : KeptOut ρ (execLifeFit s) := by
  unfold execLifeFit
  simp (maxDischargeDepth := 20) +contextual [hK, hK.mem, hK.host, Kept.foldl]

end Sys2Proof.Machine
end

