-- ==== Sys2Proof/Laws/Kept/Indigo.lean ====
section
/-! SUPPORT. What the operations of Machine/Indigo.lean keep (`Kept`). -/

namespace Sys2Proof.Machine

set_option linter.unusedSimpArgs false

@[simp] theorem State.walkFails_kept {ρ : State} (s : State) (e : Nat) (core x : Nat) (req : List Byte) (code : Nat) (hK : Kept ρ s) : Kept ρ (State.walkFails s e core x req code) := by
  unfold State.walkFails
  dsimp only
  (repeat' split) <;> simp (maxDischargeDepth := 20) +contextual [hK, hK.mem, hK.host, Kept.foldl]

@[simp] theorem State.knowSeq_kept {ρ : State} (s : State) (h a : Nat) (hK : Kept ρ s) : Kept ρ (State.knowSeq s h a) := by
  unfold State.knowSeq
  simp (maxDischargeDepth := 20) +contextual [hK, hK.mem, hK.host, Kept.foldl]

@[simp] theorem execWalkRequest_kept {ρ : State} (e : Fin 48) (s : State) (hK : Kept ρ s) : KeptOut ρ (execWalkRequest e s) := by
  unfold execWalkRequest
  dsimp only
  (repeat' split) <;> simp (maxDischargeDepth := 20) +contextual [hK, hK.mem, hK.host, Kept.foldl]

@[simp] theorem State.cancelSpill_kept {ρ : State} (s : State) (h a : Nat) (hK : Kept ρ s) : Kept ρ (State.cancelSpill s h a) := by
  unfold State.cancelSpill
  dsimp only
  (repeat' split) <;> simp (maxDischargeDepth := 20) +contextual [hK, hK.mem, hK.host, Kept.foldl]

@[simp] theorem State.pinPage_kept {ρ : State} (s : State) (h a : Nat) (hK : Kept ρ s) : Kept ρ (State.pinPage s h a).1 := by
  unfold State.pinPage
  simp (maxDischargeDepth := 20) +contextual [hK, hK.mem, hK.host, Kept.foldl]

@[simp] theorem State.pinAll_kept {ρ : State} (h : Nat) (l : List Nat) (s : State) (hK : Kept ρ s) : Kept ρ (s.pinAll h l).1 := by
  induction l generalizing s with
  | nil => exact hK
  | cons a t ih =>
    unfold State.pinAll
    exact ih _ (State.pinPage_kept _ _ _ hK)

@[simp] theorem State.distance_kept {ρ : State} (s : State) (e : Nat) (w : WalkForm) (q : SeqDesc) (h t3 : Nat) (hK : Kept ρ s) :
    Kept ρ (s.distance e w q h t3).1 := by
  unfold State.distance
  extract_lets d vals io
  split
  · exact hK
  · have k := State.policyRun_kept s (448 + e) 1 (fun a => decide (a < 0x1C)) (fun _ => 0) io hK
    split
    · next e =>
      rw [e] at k
      simp (maxDischargeDepth := 20) [k]
    · next e =>
      rw [e] at k
      exact k

@[simp] theorem State.deferWalk_kept {ρ : State} (s : State) (e x excess bytes : Nat) (hK : Kept ρ s) : Kept ρ (State.deferWalk s e x excess bytes) := by
  unfold State.deferWalk
  simp (maxDischargeDepth := 20) +contextual [hK, hK.mem, hK.host, Kept.foldl]

@[simp] theorem State.stagePage_kept {ρ : State} (s : State) (h : Nat) (w : WalkPage) (hK : Kept ρ s) : Kept ρ (State.stagePage s h w) := by
  unfold State.stagePage
  dsimp only
  (repeat' split) <;> simp (maxDischargeDepth := 20) +contextual [hK, hK.mem, hK.host, Kept.foldl]

@[simp] theorem State.stageAhead_kept {ρ : State} (s : State) (w : Walk) (j : Nat) (hK : Kept ρ s) : Kept ρ (State.stageAhead s w j) := by
  unfold State.stageAhead
  simp (maxDischargeDepth := 20) +contextual [hK, hK.mem, hK.host, Kept.foldl]

@[simp] theorem State.putWalk_kept {ρ : State} (s : State) (e : Nat) (w w1 : Walk) (hK : Kept ρ s) : Kept ρ (State.putWalk s e w w1) := by
  unfold State.putWalk
  simp (maxDischargeDepth := 20) +contextual [hK, hK.mem, hK.host, Kept.foldl]

@[simp] theorem State.walkDone_kept {ρ : State} (s : State) (e : Nat) (w : Walk) (hK : Kept ρ s) : Kept ρ (State.walkDone s e w) := by
  unfold State.walkDone
  simp (maxDischargeDepth := 20) +contextual [hK, hK.mem, hK.host, Kept.foldl]

@[simp] theorem execPinPhase_kept {ρ : State} (e : Fin 48) (i : Nat) (s : State) (hK : Kept ρ s) : KeptOut ρ (execPinPhase e i s) := by
  unfold execPinPhase
  extract_lets n
  split
  · exact hK
  · next w _ =>
    extract_lets f q h ptes drop r t3 d late w1 s1 s2
    have hr : Kept ρ r.1 := State.pinAll_kept _ _ _ hK
    have hd : Kept ρ d.1 := State.distance_kept _ _ _ _ _ _ hr
    have h1 : Kept ρ s1 := by simp (maxDischargeDepth := 20) [s1, hd]
    have h2 : Kept ρ s2 := by
      simp only [s2]
      split
      · simp (maxDischargeDepth := 20) [h1]
      · exact h1
    have h3 : Kept ρ drop := by simp (maxDischargeDepth := 20) [drop, hK]
    clear_value s2 drop
    split
    · exact hK
    · split
      · simp (maxDischargeDepth := 20) [h3]
      · split
        · exact hK
        · split
          · simp (maxDischargeDepth := 20) [h3]
          · split
            · simp (maxDischargeDepth := 20) [h3]
            · split
              · simp (maxDischargeDepth := 20) [h3]
              · split
                · rw [keptOut_next]
                  split
                  · exact hK
                  · simp (maxDischargeDepth := 20) [hK]
                · rw [keptOut_next]
                  split
                  · simp (maxDischargeDepth := 20) [h2]
                  · exact h2

@[simp] theorem execPageDelivered_kept {ρ : State} (e : Fin 48) (i : Nat) (s : State) (hK : Kept ρ s) : KeptOut ρ (execPageDelivered e i s) := by
  unfold execPageDelivered
  dsimp only
  (repeat' split) <;> simp (maxDischargeDepth := 20) +contextual [hK, hK.mem, hK.host, Kept.foldl]

@[simp] theorem execSlotRelease_kept {ρ : State} (e : Fin 48) (i : Nat) (s : State) (hK : Kept ρ s) : KeptOut ρ (execSlotRelease e i s) := by
  unfold execSlotRelease
  dsimp only
  (repeat' split) <;> simp (maxDischargeDepth := 20) +contextual [hK, hK.mem, hK.host, Kept.foldl]

@[simp] theorem State.copyFrame_kept {ρ : State} (s : State) (src dst n : Nat) (hK : Kept ρ s) : Kept ρ (State.copyFrame s src dst n) := by
  unfold State.copyFrame
  simp (maxDischargeDepth := 20) +contextual [hK, hK.mem, hK.host, Kept.foldl]

@[simp] theorem execStageCopyDone_kept {ρ : State} (e : Fin 48) (i : Nat) (s : State) (hK : Kept ρ s) : KeptOut ρ (execStageCopyDone e i s) := by
  unfold execStageCopyDone
  dsimp only
  (repeat' split) <;> simp (maxDischargeDepth := 20) +contextual [hK, hK.mem, hK.host, Kept.foldl]

@[simp] theorem State.enableInd_kept {ρ : State} (s : State) (e : Nat) (hK : Kept ρ s) : Kept ρ (State.enableInd s e) := by
  unfold State.enableInd
  simp (maxDischargeDepth := 20) +contextual [hK, hK.mem, hK.host, Kept.foldl]

@[simp] theorem State.wrIndCtrl_kept {ρ : State} (s : State) (e : Nat) (v : W32) (hK : Kept ρ s) : Kept ρ (State.wrIndCtrl s e v) := by
  unfold State.wrIndCtrl
  simp (maxDischargeDepth := 20) +contextual [hK, hK.mem, hK.host, Kept.foldl]

@[simp] theorem execIndEnable_kept {ρ : State} (e : Fin 48) (s : State) (hK : Kept ρ s) : KeptOut ρ (execIndEnable e s) := by
  unfold execIndEnable
  simp (maxDischargeDepth := 20) +contextual [hK, hK.mem, hK.host, Kept.foldl]

@[simp] theorem State.wrIndEdit_kept {ρ : State} (s : State) (e : Nat) (v : W32) (hK : Kept ρ s) : Kept ρ (State.wrIndEdit s e v) := by
  unfold State.wrIndEdit
  simp (maxDischargeDepth := 20) +contextual [hK, hK.mem, hK.host, Kept.foldl]

@[simp] theorem execIndEditSubmit_kept {ρ : State} (e : Fin 48) (v : W32) (s : State) (hK : Kept ρ s) : KeptOut ρ (execIndEditSubmit e v s) := by
  unfold execIndEditSubmit
  simp (maxDischargeDepth := 20) +contextual [hK, hK.mem, hK.host, Kept.foldl]

@[simp] theorem State.retireMap_kept {ρ : State} (s : State) (h a : Nat) (hK : Kept ρ s) : KeptOpt ρ (s.retireMap h a) := by
  unfold State.retireMap
  extract_lets
  (repeat' split) <;> simp (maxDischargeDepth := 20) [hK]

@[simp] theorem State.editOne_kept {ρ : State} (s : State) (h : Nat) (q : SeqDesc) (o : EditOp) (hK : Kept ρ s) : KeptOpt ρ (s.editOne h q o) := by
  unfold State.editOne
  extract_lets a
  split
  · exact keptOpt_none
  · next s1 e =>
    have h1 : Kept ρ s1 := KeptOpt.get (State.retireMap_kept _ _ _ (by simp (maxDischargeDepth := 20) [hK])) e
    extract_lets
    (repeat' split) <;> simp (maxDischargeDepth := 20) [h1]

@[simp] theorem State.editAll_kept {ρ : State} (h : Nat) (q : SeqDesc) (l : List EditOp) (s : State) (hK : Kept ρ s) : KeptOpt ρ (s.editAll h q l) := by
  induction l generalizing s with
  | nil => exact hK
  | cons o t ih =>
    unfold State.editAll
    split
    · exact keptOpt_none
    · next e => exact ih _ (KeptOpt.get (State.editOne_kept _ _ _ _ hK) e)

@[simp] theorem State.editRecord_kept {ρ : State} (s : State) (core : Option (Nat × Nat)) (done tag sgen status count : Nat) (hK : Kept ρ s) : Kept ρ (State.editRecord s core done tag sgen status count) := by
  unfold State.editRecord
  dsimp only
  (repeat' split) <;> simp (maxDischargeDepth := 20) +contextual [hK, hK.mem, hK.host, Kept.foldl]

@[simp] theorem execEditBatch_kept {ρ : State} (e : Fin 48) (s : State) (hK : Kept ρ s) : KeptOut ρ (execEditBatch e s) := by
  unfold execEditBatch
  extract_lets n g
  split
  · exact hK
  · next r rest _ =>
    extract_lets busy parts inParts ok b f code s1 s2 s3 q ops puts short
    have h1 : Kept ρ s1 := by simp (maxDischargeDepth := 20) [s1, hK]
    have h2 : Kept ρ s2 := by
      simp only [s2]
      split
      · simp (maxDischargeDepth := 20) [h1]
      · exact h1
    have h3 : Kept ρ s3 := by
      simp only [s3]
      split
      · simp (maxDischargeDepth := 20) [h2]
      · split
        · simp (maxDischargeDepth := 20) [h2]
        · exact h2
    clear_value s3
    split
    · exact hK
    · split
      · simp (maxDischargeDepth := 20) [hK]
      · split
        · split
          · simp (maxDischargeDepth := 20) [h3]
          · exact h3
        · split
          · simp (maxDischargeDepth := 20) [hK]
          · split
            · rw [keptOut_next]
              split
              · simp (maxDischargeDepth := 20) [hK]
              · exact hK
            · next e =>
              have h4 : Kept ρ _ := KeptOpt.get (State.editAll_kept n q ops (s1.knowSeq n (f 0 5)) (by simp (maxDischargeDepth := 20) [h1])) e
              simp (maxDischargeDepth := 20) [h4]

@[simp] theorem State.spillChoice_kept {ρ : State} (s : State) (e : Nat) (l : List Nat) (hK : Kept ρ s) : Kept ρ (s.spillChoice e l).1 := by
  unfold State.spillChoice
  extract_lets c first words io
  split
  · exact hK
  · have k := State.policyRun_kept s (448 + e) 0 (fun a => decide (a < 0x410)) (fun _ => 0) io hK
    split
    · next e =>
      rw [e] at k
      simp (maxDischargeDepth := 20) [k]
    · next e =>
      rw [e] at k
      exact k

@[simp] theorem execSpillPage_kept {ρ : State} (e : Fin 48) (s : State) (hK : Kept ρ s) : KeptOut ρ (execSpillPage e s) := by
  unfold execSpillPage
  dsimp only
  (repeat' split) <;> simp (maxDischargeDepth := 20) +contextual [hK, hK.mem, hK.host, Kept.foldl]

@[simp] theorem execSpillCopyDone_kept {ρ : State} (e : Fin 48) (s : State) (hK : Kept ρ s) : KeptOut ρ (execSpillCopyDone e s) := by
  unfold execSpillCopyDone
  dsimp only
  (repeat' split) <;> simp (maxDischargeDepth := 20) +contextual [hK, hK.mem, hK.host, Kept.foldl]

@[simp] theorem execAgeingSweep_kept {ρ : State} (e : Fin 48) (s : State) (hK : Kept ρ s) : KeptOut ρ (execAgeingSweep e s) := by
  unfold execAgeingSweep
  simp (maxDischargeDepth := 20) +contextual [hK, hK.mem, hK.host, Kept.foldl]

end Sys2Proof.Machine
end

