-- ==== Sys2Proof/Laws/Kept/LinkMsg.lean ====
section
/-! SUPPORT. What the operations of Machine/LinkMsg.lean keep (`Kept`). -/

namespace Sys2Proof.Machine

set_option linter.unusedSimpArgs false

@[simp] theorem execPutReq_kept {ρ : State} (link : Fin 48) (h : FlitHead) (g : PutMsg) (s : State) (hK : Kept ρ s) : KeptOut ρ (execPutReq link h g s) := by
  unfold execPutReq
  try dsimp only
  apply recv_kept
  · intro s hK
    simp (maxDischargeDepth := 20) +contextual [hK, hK.mem, hK.host, Kept.foldl]
  · exact hK

@[simp] theorem execPutGo_kept {ρ : State} (link : Fin 48) (h : FlitHead) (g : PutMsg) (s : State) (hK : Kept ρ s) : KeptOut ρ (execPutGo link h g s) := by
  unfold execPutGo
  apply recv_kept
  · intro s hK
    dsimp only
    (repeat' split) <;> simp (maxDischargeDepth := 20) +contextual [hK, hK.mem, hK.host, Kept.foldl]
  · exact hK

@[simp] theorem execPutData_kept {ρ : State} (link : Fin 48) (h : FlitHead) (g : PutMsg) (s : State) (hK : Kept ρ s) : KeptOut ρ (execPutData link h g s) := by
  unfold execPutData
  refine recv_kept _ _ _ _ _ _ (fun s hs => ?_) hK
  extract_lets x ch v fits s1 ps w v1 got full s2 s3
  have h1 : Kept ρ s1 := by simp (maxDischargeDepth := 20) [s1, hs]
  have hw : Kept ρ w.1 := by
    simp only [w]
    split
    · exact State.performWrite_kept _ _ _ h1
    · exact State.localWrite_kept _ _ _ h1
  have h2 : Kept ρ s2 := by simp (maxDischargeDepth := 20) [s2, hw]
  have h3 : Kept ρ s3 := by
    simp only [s3]
    split
    · exact State.sendPut_kept _ _ _ _ _ _ _ _ _ h2
    · exact h2
  clear_value s3 w s1
  (repeat' split) <;> simp (maxDischargeDepth := 20) [hs, h1, h3, hw]

@[simp] theorem execPutDone_kept {ρ : State} (link : Fin 48) (h : FlitHead) (g : PutMsg) (s : State) (hK : Kept ρ s) : KeptOut ρ (execPutDone link h g s) := by
  unfold execPutDone
  apply recv_kept
  · intro s hK
    dsimp only
    (repeat' split) <;> simp (maxDischargeDepth := 20) +contextual [hK, hK.mem, hK.host, Kept.foldl]
  · exact hK

@[simp] theorem execMessageForward_kept {ρ : State} (link : Fin 48) (h : FlitHead) (g : RawMsg) (s : State) (hK : Kept ρ s) : KeptOut ρ (execMessageForward link h g s) := by
  unfold execMessageForward
  refine recv_kept _ _ _ _ _ _ (fun s hs => ?_) hK
  extract_lets back out m
  have h1 : Kept ρ back := by simp (maxDischargeDepth := 20) [back, hs]
  clear_value back m
  (repeat' split) <;> simp (maxDischargeDepth := 20) [hs, h1]

@[simp] theorem execForwardStallTimeout_kept {ρ : State} (link : Fin 48) (tc : Fin 4) (s : State) (hK : Kept ρ s) : KeptOut ρ (execForwardStallTimeout link tc s) := by
  unfold execForwardStallTimeout
  dsimp only
  (repeat' split) <;> simp (maxDischargeDepth := 20) +contextual [hK, hK.mem, hK.host, Kept.foldl]

@[simp] theorem execNak_kept {ρ : State} (link : Fin 48) (h : FlitHead) (s : State) (hK : Kept ρ s) : KeptOut ρ (execNak link h s) := by
  unfold execNak
  simp (maxDischargeDepth := 20) +contextual [hK, hK.mem, hK.host, Kept.foldl]

@[simp] theorem execIdle_kept {ρ : State} (link : Fin 48) (h : FlitHead) (s : State) (hK : Kept ρ s) : KeptOut ρ (execIdle link h s) := by
  unfold execIdle
  simp (maxDischargeDepth := 20) +contextual [hK, hK.mem, hK.host, Kept.foldl]

@[simp] theorem execReplayTimeout_kept {ρ : State} (link : Fin 48) (s : State) (hK : Kept ρ s) : KeptOut ρ (execReplayTimeout link s) := by
  unfold execReplayTimeout
  simp (maxDischargeDepth := 20) +contextual [hK, hK.mem, hK.host, Kept.foldl]

@[simp] theorem State.fecReport_kept {ρ : State} (s : State) (n sym words : Nat) (hK : Kept ρ s) : Kept ρ (State.fecReport s n sym words) := by
  unfold State.fecReport
  simp (maxDischargeDepth := 20) +contextual [hK, hK.mem, hK.host, Kept.foldl]

@[simp] theorem State.fecCorrected_kept {ρ : State} (s : State) (n k : Nat) (hK : Kept ρ s) : Kept ρ (State.fecCorrected s n k) := by
  unfold State.fecCorrected
  simp (maxDischargeDepth := 20) +contextual [hK, hK.mem, hK.host, Kept.foldl]

@[simp] theorem State.lostWord_kept {ρ : State} (s : State) (n : Nat) (hK : Kept ρ s) : Kept ρ (State.lostWord s n) := by
  unfold State.lostWord
  simp (maxDischargeDepth := 20) +contextual [hK, hK.mem, hK.host, Kept.foldl]

@[simp] theorem execFlitFailed_kept {ρ : State} (link : Fin 48) (cause : FlitCause) (_seq : Nat) (s : State) (hK : Kept ρ s) : KeptOut ρ (execFlitFailed link cause _seq s) := by
  unfold execFlitFailed
  dsimp only
  (repeat' split) <;> simp (maxDischargeDepth := 20) +contextual [hK, hK.mem, hK.host, Kept.foldl]

@[simp] theorem State.startPort_kept {ρ : State} (s : State) (n : Nat) (hK : Kept ρ s) : Kept ρ (State.startPort s n) := by
  unfold State.startPort
  simp (maxDischargeDepth := 20) +contextual [hK, hK.mem, hK.host, Kept.foldl]

@[simp] theorem State.linkEnable_kept {ρ : State} (s : State) (n : Nat) (hK : Kept ρ s) : Kept ρ (State.linkEnable s n) := by
  unfold State.linkEnable
  simp (maxDischargeDepth := 20) +contextual [hK, hK.mem, hK.host, Kept.foldl]

@[simp] theorem execLinkEnable_kept {ρ : State} (link : Fin 48) (s : State) (hK : Kept ρ s) : KeptOut ρ (execLinkEnable link s) := by
  unfold execLinkEnable
  simp (maxDischargeDepth := 20) +contextual [hK, hK.mem, hK.host, Kept.foldl]

@[simp] theorem State.softRetrain_kept {ρ : State} (s : State) (n : Nat) (hK : Kept ρ s) : Kept ρ (State.softRetrain s n) := by
  unfold State.softRetrain
  simp (maxDischargeDepth := 20) +contextual [hK, hK.mem, hK.host, Kept.foldl]

@[simp] theorem execLinkRetrain_kept {ρ : State} (link : Fin 48) (cause : RetrainCause) (s : State) (hK : Kept ρ s) : KeptOut ρ (execLinkRetrain link cause s) := by
  unfold execLinkRetrain
  dsimp only
  (repeat' split) <;> simp (maxDischargeDepth := 20) +contextual [hK, hK.mem, hK.host, Kept.foldl]

@[simp] theorem State.eyeReport_kept {ρ : State} (s : State) (n margin : Nat) (hK : Kept ρ s) : Kept ρ (State.eyeReport s n margin) := by
  unfold State.eyeReport
  simp (maxDischargeDepth := 20) +contextual [hK, hK.mem, hK.host, Kept.foldl]

@[simp] theorem execTrainingComplete_kept {ρ : State} (link : Fin 48) (r : TrainResult) (s : State) (hK : Kept ρ s) : KeptOut ρ (execTrainingComplete link r s) := by
  unfold execTrainingComplete
  simp (maxDischargeDepth := 20) +contextual [hK, hK.mem, hK.host, Kept.foldl]

@[simp] theorem State.wrCrdAlloc_kept {ρ : State} (s : State) (n : Nat) (v : W32) (hK : Kept ρ s) : Kept ρ (State.wrCrdAlloc s n v) := by
  unfold State.wrCrdAlloc
  simp (maxDischargeDepth := 20) +contextual [hK, hK.mem, hK.host, Kept.foldl]

@[simp] theorem execLnkCrdAllocWrite_kept {ρ : State} (link : Fin 48) (v : W32) (s : State) (hK : Kept ρ s) : KeptOut ρ (execLnkCrdAllocWrite link v s) := by
  unfold execLnkCrdAllocWrite
  simp (maxDischargeDepth := 20) +contextual [hK, hK.mem, hK.host, Kept.foldl]

end Sys2Proof.Machine
end

