-- ==== Sys2Proof/Laws/Kept/HostIf.lean ====
section
/-! SUPPORT. What the operations of Machine/HostIf.lean keep (`Kept`). -/

namespace Sys2Proof.Machine

set_option linter.unusedSimpArgs false

@[simp] theorem State.hifErr_kept {ρ : State} (s : State) (b : Nat) (hK : Kept ρ s) : Kept ρ (State.hifErr s b) := by
  unfold State.hifErr
  simp (maxDischargeDepth := 20) +contextual [hK, hK.mem, hK.host, Kept.foldl]

@[simp] theorem State.hostTouch_kept {ρ : State} (s : State) (a : Nat) (hK : Kept ρ s) : Kept ρ (State.hostTouch s a) := by
  unfold State.hostTouch
  dsimp only
  (repeat' split) <;> simp (maxDischargeDepth := 20) +contextual [hK, hK.mem, hK.host, Kept.foldl]

@[simp] theorem State.hostWake_kept {ρ : State} (s : State) (a n : Nat) (hK : Kept ρ s) : Kept ρ (State.hostWake s a n) := by
  unfold State.hostWake
  simp (maxDischargeDepth := 20) +contextual [hK, hK.mem, hK.host, Kept.foldl]

@[simp] theorem execHostRead_kept {ρ : State} (w : HostWindow) (addr n : Nat) (s : State) (hK : Kept ρ s) : KeptOut ρ (execHostRead w addr n s) := by
  unfold execHostRead
  dsimp only
  (repeat' split) <;> simp (maxDischargeDepth := 20) +contextual [hK, hK.mem, hK.host, Kept.foldl]

@[simp] theorem State.hostNote_kept {ρ : State} (s : State) (a : Nat) (hK : Kept ρ s) : Kept ρ (State.hostNote s a) := by
  unfold State.hostNote
  (repeat' split) <;> simp (maxDischargeDepth := 20) [hK, hK.mem, hK.host]

@[simp] theorem execHostWrite_kept {ρ : State} (w : HostWindow) (addr : Nat) (bytes : List Byte) (poisoned : Bool) (s : State) (hK : Kept ρ s) : KeptOut ρ (execHostWrite w addr bytes poisoned s) := by
  unfold execHostWrite
  dsimp only
  (repeat' split) <;> simp (maxDischargeDepth := 20) +contextual [hK, hK.mem, hK.host, Kept.foldl]

@[simp] theorem State.t3Deliver_kept {ρ : State} (s : State) (q : T3Req) (b : List Byte) (po : Bool) (hK : Kept ρ s) : Kept ρ (State.t3Deliver s q b po) := by
  unfold State.t3Deliver
  dsimp only
  (repeat' split) <;> simp (maxDischargeDepth := 20) +contextual [hK, hK.mem, hK.host, Kept.foldl]

@[simp] theorem State.t3Fail_kept {ρ : State} (s : State) (q : T3Req) (hK : Kept ρ s) : Kept ρ (State.t3Fail s q) := by
  unfold State.t3Fail
  simp (maxDischargeDepth := 20) +contextual [hK, hK.mem, hK.host, Kept.foldl]

@[simp] theorem execT3Completion_kept {ρ : State} (tag : Nat) (c : T3Reply) (s : State) (hK : Kept ρ s) : KeptOut ρ (execT3Completion tag c s) := by
  unfold execT3Completion
  dsimp only
  (repeat' split) <;> simp (maxDischargeDepth := 20) +contextual [hK, hK.mem, hK.host, Kept.foldl]

@[simp] theorem execT3CompletionTimeout_kept {ρ : State} (tag : Nat) (s : State) (hK : Kept ρ s) : KeptOut ρ (execT3CompletionTimeout tag s) := by
  unfold execT3CompletionTimeout
  split <;> simp (maxDischargeDepth := 20) [hK, hK.mem, hK.host]

@[simp] theorem State.wrT3_kept {ρ : State} (s : State) (hi : Bool) (w : Nat) (v : W32) (hK : Kept ρ s) : Kept ρ (State.wrT3 s hi w v) := by
  unfold State.wrT3
  simp (maxDischargeDepth := 20) +contextual [hK, hK.mem, hK.host, Kept.foldl]

@[simp] theorem execT3WindowWrite_kept {ρ : State} (off : Nat) (v : W32) (s : State) (hK : Kept ρ s) : KeptOut ρ (execT3WindowWrite off v s) := by
  unfold execT3WindowWrite
  split <;> simp (maxDischargeDepth := 20) [hK, hK.mem, hK.host]

@[simp] theorem State.orphan_kept {ρ : State} (s : State) (q : Nat) (hK : Kept ρ s) : Kept ρ (State.orphan s q) := by
  unfold State.orphan
  simp (maxDischargeDepth := 20) +contextual [hK, hK.mem, hK.host, Kept.foldl]

@[simp] theorem State.flushHeld_kept {ρ : State} (s : State) (hK : Kept ρ s) : Kept ρ (State.flushHeld s) := by
  unfold State.flushHeld
  simp (maxDischargeDepth := 20) +contextual [hK, hK.mem, hK.host, Kept.foldl]

@[simp] theorem State.wrQCfg_kept {ρ : State} (s : State) (q : Nat) (v : W32) (hK : Kept ρ s) : Kept ρ (State.wrQCfg s q v) := by
  unfold State.wrQCfg
  simp (maxDischargeDepth := 20) +contextual [hK, hK.mem, hK.host, Kept.foldl]

@[simp] theorem execQCfgWrite_kept {ρ : State} (q : Fin 16) (v : W32) (s : State) (hK : Kept ρ s) : KeptOut ρ (execQCfgWrite q v s) := by
  unfold execQCfgWrite
  simp (maxDischargeDepth := 20) +contextual [hK, hK.mem, hK.host, Kept.foldl]

@[simp] theorem State.wrSqDb_kept {ρ : State} (s : State) (q : Nat) (v : W32) (hK : Kept ρ s) : Kept ρ (State.wrSqDb s q v) := by
  unfold State.wrSqDb
  simp (maxDischargeDepth := 20) +contextual [hK, hK.mem, hK.host, Kept.foldl]

@[simp] theorem execSqDoorbell_kept {ρ : State} (q : Fin 16) (v : W32) (s : State) (hK : Kept ρ s) : KeptOut ρ (execSqDoorbell q v s) := by
  unfold execSqDoorbell
  simp (maxDischargeDepth := 20) +contextual [hK, hK.mem, hK.host, Kept.foldl]

@[simp] theorem State.wrCqDb_kept {ρ : State} (s : State) (q : Nat) (v : W32) (hK : Kept ρ s) : Kept ρ (State.wrCqDb s q v) := by
  unfold State.wrCqDb
  simp (maxDischargeDepth := 20) +contextual [hK, hK.mem, hK.host, Kept.foldl]

@[simp] theorem execCqDoorbell_kept {ρ : State} (q : Fin 16) (v : W32) (s : State) (hK : Kept ρ s) : KeptOut ρ (execCqDoorbell q v s) := by
  unfold execCqDoorbell
  simp (maxDischargeDepth := 20) +contextual [hK, hK.mem, hK.host, Kept.foldl]

@[simp] theorem State.setNonce_kept {ρ : State} (s : State) (v : Nat) (valid : Bool) (hK : Kept ρ s) : Kept ρ (State.setNonce s v valid) := by
  unfold State.setNonce
  simp (maxDischargeDepth := 20) +contextual [hK, hK.mem, hK.host, Kept.foldl]

@[simp] theorem State.dbgNew_kept {ρ : State} (s : State) (hK : Kept ρ s) : Kept ρ (State.dbgNew s) := by
  unfold State.dbgNew
  simp (maxDischargeDepth := 20) +contextual [hK, hK.mem, hK.host, Kept.foldl]

@[simp] theorem execDbgNew_kept {ρ : State} (s : State) (hK : Kept ρ s) : KeptOut ρ (execDbgNew s) := by
  unfold execDbgNew
  simp (maxDischargeDepth := 20) +contextual [hK, hK.mem, hK.host, Kept.foldl]

@[simp] theorem State.dbgSubmit_kept {ρ : State} (s : State) (hK : Kept ρ s) : Kept ρ (State.dbgSubmit s) := by
  unfold State.dbgSubmit
  simp (maxDischargeDepth := 20) +contextual [hK, hK.mem, hK.host, Kept.foldl]

@[simp] theorem execDbgSubmit_kept {ρ : State} (s : State) (hK : Kept ρ s) : KeptOut ρ (execDbgSubmit s) := by
  unfold execDbgSubmit
  simp (maxDischargeDepth := 20) +contextual [hK, hK.mem, hK.host, Kept.foldl]

end Sys2Proof.Machine
end

