-- ==== Sys2Proof/Laws/Kept/Time.lean ====
section
/-! SUPPORT. What the operations of Machine/Time.lean keep (`Kept`). -/

namespace Sys2Proof.Machine

set_option linter.unusedSimpArgs false

@[simp] theorem State.stepTime_kept {ρ : State} (s : State) (d : Nat) (hK : Kept ρ s) : Kept ρ (State.stepTime s d) := by
  unfold State.stepTime
  simp (maxDischargeDepth := 20) +contextual [hK, hK.mem, hK.host, Kept.foldl]

@[simp] theorem State.steer_kept {ρ : State} (s : State) (hK : Kept ρ s) : Kept ρ (State.steer s) := by
  unfold State.steer
  simp (maxDischargeDepth := 20) +contextual [hK, hK.mem, hK.host, Kept.foldl]

@[simp] theorem State.timState_kept {ρ : State} (s : State) (n : Nat) (hK : Kept ρ s) : Kept ρ (State.timState s n) := by
  unfold State.timState
  simp (maxDischargeDepth := 20) +contextual [hK, hK.mem, hK.host, Kept.foldl]

@[simp] theorem State.timErr_kept {ρ : State} (s : State) (b : Nat) (hK : Kept ρ s) : Kept ρ (State.timErr s b) := by
  unfold State.timErr
  simp (maxDischargeDepth := 20) +contextual [hK, hK.mem, hK.host, Kept.foldl]

@[simp] theorem State.sendTime_kept {ρ : State} (s : State) (n typ : Nat) (b : List Byte) (hK : Kept ρ s) : Kept ρ (State.sendTime s n typ b) := by
  unfold State.sendTime
  simp (maxDischargeDepth := 20) +contextual [hK, hK.mem, hK.host, Kept.foldl]

@[simp] theorem State.recvTime_kept {ρ : State} (s : State) (n : Nat) (h : FlitHead) (hK : Kept ρ s) : Kept ρ (State.recvTime s n h) := by
  unfold State.recvTime
  simp (maxDischargeDepth := 20) +contextual [hK, hK.mem, hK.host, Kept.foldl]

@[simp] theorem execSyncSend_kept {ρ : State} (s : State) (hK : Kept ρ s) : KeptOut ρ (execSyncSend s) := by
  unfold execSyncSend
  simp (maxDischargeDepth := 20) +contextual [hK, hK.mem, hK.host, Kept.foldl]

@[simp] theorem State.syncState_kept {ρ : State} (s : State) (theta : Int) (hK : Kept ρ s) : Kept ρ (State.syncState s theta) := by
  unfold State.syncState
  simp (maxDischargeDepth := 20) +contextual [hK, hK.mem, hK.host, Kept.foldl]

@[simp] theorem execSync_kept {ρ : State} (link : Fin 48) (f : SyncFlit) (s : State) (hK : Kept ρ s) : KeptOut ρ (execSync link f s) := by
  unfold execSync
  simp (maxDischargeDepth := 20) +contextual [hK, hK.mem, hK.host, Kept.foldl]

@[simp] theorem execDelayMeasure_kept {ρ : State} (s : State) (hK : Kept ρ s) : KeptOut ρ (execDelayMeasure s) := by
  unfold execDelayMeasure
  simp (maxDischargeDepth := 20) +contextual [hK, hK.mem, hK.host, Kept.foldl]

@[simp] theorem execDelayReq_kept {ρ : State} (link : Fin 48) (f : DelayReq) (crcOk : Bool) (s : State) (hK : Kept ρ s) : KeptOut ρ (execDelayReq link f crcOk s) := by
  unfold execDelayReq
  simp (maxDischargeDepth := 20) +contextual [hK, hK.mem, hK.host, Kept.foldl]

@[simp] theorem execDelayResp_kept {ρ : State} (link : Fin 48) (f : DelayResp) (s : State) (hK : Kept ρ s) : KeptOut ρ (execDelayResp link f s) := by
  unfold execDelayResp
  simp (maxDischargeDepth := 20) +contextual [hK, hK.mem, hK.host, Kept.foldl]

@[simp] theorem execSyncTimeout_kept {ρ : State} (s : State) (hK : Kept ρ s) : KeptOut ρ (execSyncTimeout s) := by
  unfold execSyncTimeout
  simp (maxDischargeDepth := 20) +contextual [hK, hK.mem, hK.host, Kept.foldl]

@[simp] theorem execHoldoverTimeout_kept {ρ : State} (s : State) (hK : Kept ρ s) : KeptOut ρ (execHoldoverTimeout s) := by
  unfold execHoldoverTimeout
  simp (maxDischargeDepth := 20) +contextual [hK, hK.mem, hK.host, Kept.foldl]

@[simp] theorem execPpsEdge_kept {ρ : State} (s : State) (hK : Kept ρ s) : KeptOut ρ (execPpsEdge s) := by
  unfold execPpsEdge
  simp (maxDischargeDepth := 20) +contextual [hK, hK.mem, hK.host, Kept.foldl]

@[simp] theorem execPpsLost_kept {ρ : State} (s : State) (hK : Kept ρ s) : KeptOut ρ (execPpsLost s) := by
  unfold execPpsLost
  simp (maxDischargeDepth := 20) +contextual [hK, hK.mem, hK.host, Kept.foldl]

@[simp] theorem State.setTime_kept {ρ : State} (s : State) (v : W32) (hK : Kept ρ s) : Kept ρ (State.setTime s v) := by
  unfold State.setTime
  simp (maxDischargeDepth := 20) +contextual [hK, hK.mem, hK.host, Kept.foldl]

@[simp] theorem execTimSetWrite_kept {ρ : State} (v : W32) (s : State) (hK : Kept ρ s) : KeptOut ρ (execTimSetWrite v s) := by
  unfold execTimSetWrite
  simp (maxDischargeDepth := 20) +contextual [hK, hK.mem, hK.host, Kept.foldl]

end Sys2Proof.Machine
end

