-- ==== Sys2Proof/Laws/Kept/Resets.lean ====
section
/-! SUPPORT. What the operations of Machine/Resets.lean keep (`Kept`). -/

namespace Sys2Proof.Machine

set_option linter.unusedSimpArgs false

@[simp] theorem State.resetRegs_kept {ρ : State} (s : State) (hit : Nat → Bool) (keep : Reg → Bool) (hK : Kept ρ s) : Kept ρ (s.resetRegs hit keep) := by
  unfold State.resetRegs State.reIlv
  refine Kept.foldl _ (fun s p h => ?_) _ ⟨hK.pending, hK.variant, hK.serial, hK.mem, hK.host⟩
  split
  · exact h
  · exact h.setMem (Mem.wf_move _ _)

@[simp] theorem State.invalidate_kept {ρ : State} (s : State) (p : Nat) (hK : Kept ρ s) : Kept ρ (State.invalidate s p) := by
  unfold State.invalidate
  simp (maxDischargeDepth := 20) +contextual [hK, hK.mem, hK.host, Kept.foldl]

@[simp] theorem State.endFor_kept {ρ : State} (s : State) (p src : Nat) (hK : Kept ρ s) : Kept ρ (State.endFor s p src) := by
  unfold State.endFor
  dsimp only
  (repeat' split) <;> simp (maxDischargeDepth := 20) +contextual [hK, hK.mem, hK.host, Kept.foldl]

@[simp] theorem State.partitionReset_kept {ρ : State} (s : State) (p : Nat) (c : ErrCause) (hK : Kept ρ s) : Kept ρ (s.partitionReset p c) := by
  unfold State.partitionReset
  extract_lets now s1 s2 s3 s4 welds s5 s6 q recent off s7 s8 s9 s10 s11
  have h1 : Kept ρ s1 := Kept.foldl _ (fun s i h => by simp (maxDischargeDepth := 20) [h]) _ hK
  have h2 : Kept ρ s2 := by simp (maxDischargeDepth := 20) [s2, h1]
  have h3 : Kept ρ s3 := Kept.foldl _ (fun s i h => by simp (maxDischargeDepth := 20) [h]) _ h2
  have h4 : Kept ρ s4 := Kept.foldl _ (fun s i h => by simp (maxDischargeDepth := 20) [h]) _ (by simp (maxDischargeDepth := 20) [h3])
  have h5 : Kept ρ s5 := Kept.foldl _ (fun s i h => by simp (maxDischargeDepth := 20) [h]) _ h4
  have h7 : Kept ρ s7 := by simp (maxDischargeDepth := 20) [s7, s6, h5]
  clear_value s7
  have h8 : Kept ρ s8 := ⟨h7.pending, h7.variant, h7.serial, h7.mem, h7.host⟩
  have h10 : Kept ρ s10 := by simp (maxDischargeDepth := 20) [s10, s9, h8]
  clear_value s10
  have h11 : Kept ρ s11 := by
    simp only [s11]
    apply State.recheck_kept
    split
    · simp (maxDischargeDepth := 20) [h10]
    · exact h10
  clear_value s11
  simp (maxDischargeDepth := 20) [h11]

@[simp] theorem execPartitionReset_kept {ρ : State} (part : Fin 4) (cause : ErrCause) (s : State) (hK : Kept ρ s) : KeptOut ρ (execPartitionReset part cause s) := by
  unfold execPartitionReset
  simp (maxDischargeDepth := 20) +contextual [hK, hK.mem, hK.host, Kept.foldl]

@[simp] theorem State.agentFw_kept {ρ : State} (s : State) (p : Nat) (hK : Kept ρ s) : Kept ρ (State.agentFw s p) := by
  unfold State.agentFw
  simp (maxDischargeDepth := 20) +contextual [hK, hK.mem, hK.host, Kept.foldl]

@[simp] theorem execPartitionResetDone_kept {ρ : State} (part : Fin 4) (s : State) (hK : Kept ρ s) : KeptOut ρ (execPartitionResetDone part s) := by
  unfold execPartitionResetDone
  simp (maxDischargeDepth := 20) +contextual [hK, hK.mem, hK.host, Kept.foldl]

@[simp] theorem State.wrPartRst_kept {ρ : State} (s : State) (l : List Nat) (hK : Kept ρ s) : Kept ρ (State.wrPartRst s l) := by
  unfold State.wrPartRst
  simp (maxDischargeDepth := 20) +contextual [hK, hK.mem, hK.host, Kept.foldl]

@[simp] theorem execPartRst_kept {ρ : State} (parts : BitVec 4) (s : State) (hK : Kept ρ s) : KeptOut ρ (execPartRst parts s) := by
  unfold execPartRst
  simp (maxDischargeDepth := 20) +contextual [hK, hK.mem, hK.host, Kept.foldl]

@[simp] theorem State.warmState_kept {ρ : State} (s : State) (hK : Kept ρ s) : Kept ρ s.warmState := by
  unfold State.warmState
  extract_lets s1 s2 fails replace s3 s4 s5
  have h1 : Kept ρ s1 := Kept.foldl _ (fun s i h => by simp (maxDischargeDepth := 20) [h]) _ hK
  have h2 : Kept ρ s2 := Kept.foldl _ (fun s i h => by simp (maxDischargeDepth := 20) [h]) _ h1
  have h4 : Kept ρ s4 := by simp (maxDischargeDepth := 20) [s4, s3, h2]
  have h5 : Kept ρ s5 := Kept.foldl _ (fun s i h => by simp (maxDischargeDepth := 20) [h]) _ h4
  exact ⟨h5.pending, h5.variant, h5.serial, h5.mem, h5.host⟩

@[simp] theorem State.warmReset_kept {ρ : State} (s : State) (kind : Nat) (hK : Kept ρ s) : Kept ρ (State.warmReset s kind) := by
  unfold State.warmReset
  simp (maxDischargeDepth := 20) +contextual [hK, hK.mem, hK.host, Kept.foldl]

@[simp] theorem State.deviceReset_kept {ρ : State} (s : State) (cause : ErrCause) (hK : Kept ρ s) : Kept ρ (State.deviceReset s cause) := by
  unfold State.deviceReset
  simp (maxDischargeDepth := 20) +contextual [hK, hK.mem, hK.host, Kept.foldl]

@[simp] theorem execDeviceReset_kept {ρ : State} (cause : ErrCause) (s : State) (hK : Kept ρ s) : KeptOut ρ (execDeviceReset cause s) := by
  unfold execDeviceReset
  simp (maxDischargeDepth := 20) +contextual [hK, hK.mem, hK.host, Kept.foldl]

@[simp] theorem execDevRstN_kept {ρ : State} (s : State) (hK : Kept ρ s) : KeptOut ρ (execDevRstN s) := by
  unfold execDevRstN
  simp (maxDischargeDepth := 20) +contextual [hK, hK.mem, hK.host, Kept.foldl]

@[simp] theorem State.wrWarm_kept {ρ : State} (s : State) (hK : Kept ρ s) : Kept ρ (State.wrWarm s) := by
  unfold State.wrWarm
  simp (maxDischargeDepth := 20) +contextual [hK, hK.mem, hK.host, Kept.foldl]

@[simp] theorem execWarm_kept {ρ : State} (s : State) (hK : Kept ρ s) : KeptOut ρ (execWarm s) := by
  unfold execWarm
  simp (maxDischargeDepth := 20) +contextual [hK, hK.mem, hK.host, Kept.foldl]

@[simp] theorem execPowerOnReset_kept {ρ : State} (s : State) (hK : Kept ρ s) : KeptOut ρ (execPowerOnReset s) := by
  unfold execPowerOnReset
  extract_lets m kept hard used s1 s2
  have h1 : Kept ρ s1 := ⟨hK.pending, hK.variant, hK.serial, Mem.wf_empty, hK.host⟩
  have h2 : Kept ρ s2 := Kept.foldl _ (fun s i h => by simp (maxDischargeDepth := 20) [h]) _ h1
  simp (maxDischargeDepth := 20) [h2]

@[simp] theorem State.trainHost_kept {ρ : State} (s : State) (hK : Kept ρ s) : Kept ρ (State.trainHost s) := by
  unfold State.trainHost
  simp (maxDischargeDepth := 20) +contextual [hK, hK.mem, hK.host, Kept.foldl]

@[simp] theorem State.katFail_kept {ρ : State} (s : State) (u : Nat) (hK : Kept ρ s) : Kept ρ (State.katFail s u) := by
  unfold State.katFail
  dsimp only
  (repeat' split) <;> simp (maxDischargeDepth := 20) +contextual [hK, hK.mem, hK.host, Kept.foldl]

@[simp] theorem State.runKat_kept {ρ : State} (s : State) (kat : List Nat) (hK : Kept ρ s) : Kept ρ (State.runKat s kat) := by
  unfold State.runKat
  simp (maxDischargeDepth := 20) +contextual [hK, hK.mem, hK.host, Kept.foldl]

@[simp] theorem execBoot_kept {ρ : State} (kat : List Nat) (s : State) (hK : Kept ρ s) : KeptOut ρ (execBoot kat s) := by
  unfold execBoot
  dsimp only
  (repeat' split) <;> simp (maxDischargeDepth := 20) +contextual [hK, hK.mem, hK.host, Kept.foldl]

@[simp] theorem execBringUpReady_kept {ρ : State} (s : State) (hK : Kept ρ s) : KeptOut ρ (execBringUpReady s) := by
  unfold execBringUpReady
  simp (maxDischargeDepth := 20) +contextual [hK, hK.mem, hK.host, Kept.foldl]

@[simp] theorem execHostLinkReset_kept {ρ : State} (flr : Bool) (s : State) (hK : Kept ρ s) : KeptOut ρ (execHostLinkReset flr s) := by
  unfold execHostLinkReset
  simp (maxDischargeDepth := 20) +contextual [hK, hK.mem, hK.host, Kept.foldl]

@[simp] theorem execPerstNRelease_kept {ρ : State} (s : State) (hK : Kept ρ s) : KeptOut ρ (execPerstNRelease s) := by
  unfold execPerstNRelease
  simp (maxDischargeDepth := 20) +contextual [hK, hK.mem, hK.host, Kept.foldl]

@[simp] theorem execD3hotEntry_kept {ρ : State} (s : State) (hK : Kept ρ s) : KeptOut ρ (execD3hotEntry s) := by
  unfold execD3hotEntry
  simp (maxDischargeDepth := 20) +contextual [hK, hK.mem, hK.host, Kept.foldl]

@[simp] theorem State.shadowTime_kept {ρ : State} (s : State) (hK : Kept ρ s) : Kept ρ (State.shadowTime s) := by
  unfold State.shadowTime
  simp (maxDischargeDepth := 20) +contextual [hK, hK.mem, hK.host, Kept.foldl]

@[simp] theorem State.wrPartPwr_kept {ρ : State} (s : State) (v : W32) (hK : Kept ρ s) : Kept ρ (State.wrPartPwr s v) := by
  unfold State.wrPartPwr
  simp (maxDischargeDepth := 20) +contextual [hK, hK.mem, hK.host, Kept.foldl]

@[simp] theorem execUmbPartPwrWrite_kept {ρ : State} (v : W32) (s : State) (hK : Kept ρ s) : KeptOut ρ (execUmbPartPwrWrite v s) := by
  unfold execUmbPartPwrWrite
  simp (maxDischargeDepth := 20) +contextual [hK, hK.mem, hK.host, Kept.foldl]

@[simp] theorem execPartitionWakeDone_kept {ρ : State} (part : Fin 4) (s : State) (hK : Kept ρ s) : KeptOut ρ (execPartitionWakeDone part s) := by
  unfold execPartitionWakeDone
  simp (maxDischargeDepth := 20) +contextual [hK, hK.mem, hK.host, Kept.foldl]

@[simp] theorem State.wrPrepareOff_kept {ρ : State} (s : State) (hK : Kept ρ s) : Kept ρ (State.wrPrepareOff s) := by
  unfold State.wrPrepareOff
  simp (maxDischargeDepth := 20) +contextual [hK, hK.mem, hK.host, Kept.foldl]

@[simp] theorem execPrepareOff_kept {ρ : State} (s : State) (hK : Kept ρ s) : KeptOut ρ (execPrepareOff s) := by
  unfold execPrepareOff
  simp (maxDischargeDepth := 20) +contextual [hK, hK.mem, hK.host, Kept.foldl]

@[simp] theorem execOffReady_kept {ρ : State} (s : State) (hK : Kept ρ s) : KeptOut ρ (execOffReady s) := by
  unfold execOffReady
  simp (maxDischargeDepth := 20) +contextual [hK, hK.mem, hK.host, Kept.foldl]

@[simp] theorem State.newClocks_kept {ρ : State} (s : State) (old : Nat → Nat) (hK : Kept ρ s) : Kept ρ (State.newClocks s old) := by
  unfold State.newClocks
  simp (maxDischargeDepth := 20) +contextual [hK, hK.mem, hK.host, Kept.foldl]

@[simp] theorem State.clockStep_kept {ρ : State} (s : State) (above below : Bool) (hK : Kept ρ s) : Kept ρ (State.clockStep s above below) := by
  unfold State.clockStep
  simp (maxDischargeDepth := 20) +contextual [hK, hK.mem, hK.host, Kept.foldl]

@[simp] theorem State.countWithheld_kept {ρ : State} (s : State) (hK : Kept ρ s) : Kept ρ (State.countWithheld s) := by
  unfold State.countWithheld
  simp (maxDischargeDepth := 20) +contextual [hK, hK.mem, hK.host, Kept.foldl]

@[simp] theorem execPowerInterval_kept {ρ : State} (mw : Nat) (s : State) (hK : Kept ρ s) : KeptOut ρ (execPowerInterval mw s) := by
  unfold execPowerInterval
  simp (maxDischargeDepth := 20) +contextual [hK, hK.mem, hK.host, Kept.foldl]

@[simp] theorem State.trip_kept {ρ : State} (s : State) (hK : Kept ρ s) : Kept ρ s.trip := by
  unfold State.trip
  extract_lets s1 p m s2
  have h1 : Kept ρ s1 := State.warmState_kept _ hK
  have h2 : Kept ρ s2 := ⟨h1.pending, h1.variant, h1.serial, h1.mem, h1.host⟩
  simp (maxDischargeDepth := 20) [h2]

@[simp] theorem State.thermalStep_kept {ρ : State} (s : State) (p temp : Nat) (hK : Kept ρ s) : Kept ρ (State.thermalStep s p temp) := by
  unfold State.thermalStep
  simp (maxDischargeDepth := 20) +contextual [hK, hK.mem, hK.host, Kept.foldl]

@[simp] theorem execThermalSample_kept {ρ : State} (temps : List Nat) (s : State) (hK : Kept ρ s) : KeptOut ρ (execThermalSample temps s) := by
  unfold execThermalSample
  simp (maxDischargeDepth := 20) +contextual [hK, hK.mem, hK.host, Kept.foldl]

end Sys2Proof.Machine
end

