-- ==== Sys2Proof/Laws/Kept/Mgmt.lean ====
section
/-! SUPPORT. What the operations of Machine/Mgmt.lean keep (`Kept`). -/

namespace Sys2Proof.Machine

set_option linter.unusedSimpArgs false

@[simp] theorem State.answer_kept {ρ : State} (s : State) (r : Reply) (hK : Kept ρ s) : Kept ρ (State.answer s r) := by
  unfold State.answer
  simp (maxDischargeDepth := 20) +contextual [hK, hK.mem, hK.host, Kept.foldl]

@[simp] theorem execSetEndpointId_kept {ρ : State} (eid : Byte) (s : State) (hK : Kept ρ s) : KeptOut ρ (execSetEndpointId eid s) := by
  unfold execSetEndpointId
  simp (maxDischargeDepth := 20) +contextual [hK, hK.mem, hK.host, Kept.foldl]

@[simp] theorem execPldmMonitoringRequest_kept {ρ : State} (body : List Byte) (s : State) (hK : Kept ρ s) : KeptOut ρ (execPldmMonitoringRequest body s) := by
  unfold execPldmMonitoringRequest
  (repeat' split) <;> simp (maxDischargeDepth := 20) [hK, hK.mem, hK.host]

@[simp] theorem execRequestUpdate_kept {ρ : State} (_body : List Byte) (s : State) (hK : Kept ρ s) : KeptOut ρ (execRequestUpdate _body s) := by
  unfold execRequestUpdate
  simp (maxDischargeDepth := 20) +contextual [hK, hK.mem, hK.host, Kept.foldl]

@[simp] theorem execVerifyComplete_kept {ρ : State} (body : List Byte) (s : State) (hK : Kept ρ s) : KeptOut ρ (execVerifyComplete body s) := by
  unfold execVerifyComplete
  dsimp only
  (repeat' split) <;> simp (maxDischargeDepth := 20) +contextual [hK, hK.mem, hK.host, Kept.foldl]

@[simp] theorem execActivateFirmware_kept {ρ : State} (body : List Byte) (s : State) (hK : Kept ρ s) : KeptOut ρ (execActivateFirmware body s) := by
  unfold execActivateFirmware
  dsimp only
  (repeat' split) <;> simp (maxDischargeDepth := 20) +contextual [hK, hK.mem, hK.host, Kept.foldl]

@[simp] theorem State.spdmAnswer_kept {ρ : State} (s : State) (request need : Nat) (body : List Byte) (hK : Kept ρ s) : Kept ρ (State.spdmAnswer s request need body) := by
  unfold State.spdmAnswer
  simp (maxDischargeDepth := 20) +contextual [hK, hK.mem, hK.host, Kept.foldl]

@[simp] theorem execGetVersion_kept {ρ : State} (body : List Byte) (s : State) (hK : Kept ρ s) : KeptOut ρ (execGetVersion body s) := by
  unfold execGetVersion
  simp (maxDischargeDepth := 20) +contextual [hK, hK.mem, hK.host, Kept.foldl]

@[simp] theorem execGetCapabilities_kept {ρ : State} (body : List Byte) (s : State) (hK : Kept ρ s) : KeptOut ρ (execGetCapabilities body s) := by
  unfold execGetCapabilities
  simp (maxDischargeDepth := 20) +contextual [hK, hK.mem, hK.host, Kept.foldl]

@[simp] theorem execNegotiateAlgorithms_kept {ρ : State} (body : List Byte) (s : State) (hK : Kept ρ s) : KeptOut ρ (execNegotiateAlgorithms body s) := by
  unfold execNegotiateAlgorithms
  simp (maxDischargeDepth := 20) +contextual [hK, hK.mem, hK.host, Kept.foldl]

@[simp] theorem execGetDigests_kept {ρ : State} (body : List Byte) (s : State) (hK : Kept ρ s) : KeptOut ρ (execGetDigests body s) := by
  unfold execGetDigests
  simp (maxDischargeDepth := 20) +contextual [hK, hK.mem, hK.host, Kept.foldl]

@[simp] theorem execGetCertificate_kept {ρ : State} (body : List Byte) (s : State) (hK : Kept ρ s) : KeptOut ρ (execGetCertificate body s) := by
  unfold execGetCertificate
  simp (maxDischargeDepth := 20) +contextual [hK, hK.mem, hK.host, Kept.foldl]

@[simp] theorem execChallenge_kept {ρ : State} (body : List Byte) (s : State) (hK : Kept ρ s) : KeptOut ρ (execChallenge body s) := by
  unfold execChallenge
  simp (maxDischargeDepth := 20) +contextual [hK, hK.mem, hK.host, Kept.foldl]

@[simp] theorem execGetMeasurements_kept {ρ : State} (body : List Byte) (s : State) (hK : Kept ρ s) : KeptOut ρ (execGetMeasurements body s) := by
  unfold execGetMeasurements
  simp (maxDischargeDepth := 20) +contextual [hK, hK.mem, hK.host, Kept.foldl]

@[simp] theorem execCxlSnoop_kept {ρ : State} (addr : Nat) (s : State) (hK : Kept ρ s) : KeptOut ρ (execCxlSnoop addr s) := by
  unfold execCxlSnoop
  simp (maxDischargeDepth := 20) +contextual [hK, hK.mem, hK.host, Kept.foldl]

end Sys2Proof.Machine
end

