-- ==== Sys2Proof/Laws/Kept/Bar0.lean ====
section
/-! SUPPORT. What the operations of Machine/Bar0.lean keep (`Kept`). -/

namespace Sys2Proof.Machine

set_option linter.unusedSimpArgs false

@[simp] theorem State.readPair_kept {ρ : State} (s : State) (wide : Bool) (lo hi : Reg) (u n : Nat) (upper : W32) (hK : Kept ρ s) :
    Kept ρ (s.readPair wide lo hi u n upper) := by
  unfold State.readPair
  extract_lets s1
  have h : Kept ρ s1 := by
    simp only [s1]
    split
    · simp (maxDischargeDepth := 20) [hK]
    · rw [kept_emit]
      exact ⟨hK.pending, hK.variant, hK.serial, hK.mem, hK.host⟩
  split <;> simp (maxDischargeDepth := 20) [h]

@[simp] theorem execLatchedPairRead_kept {ρ : State} (r : PairRead) (s : State) (hK : Kept ρ s) : KeptOut ρ (execLatchedPairRead r s) := by
  unfold execLatchedPairRead
  split <;> simp (maxDischargeDepth := 20) [hK, hK.mem, hK.host]

@[simp] theorem State.readAcc_kept {ρ : State} (s : State) (idx data err : Reg) (n top key busy : Nat) (hK : Kept ρ s) : Kept ρ (State.readAcc s idx data err n top key busy) := by
  unfold State.readAcc
  simp (maxDischargeDepth := 20) +contextual [hK, hK.mem, hK.host, Kept.foldl]

@[simp] theorem execWoaAccDataRead_kept {ρ : State} (k : CoreId) (s : State) (hK : Kept ρ s) : KeptOut ρ (execWoaAccDataRead k s) := by
  unfold execWoaAccDataRead
  simp (maxDischargeDepth := 20) +contextual [hK, hK.mem, hK.host, Kept.foldl]

@[simp] theorem execMadAccDataRead_kept {ρ : State} (k : CoreId) (s : State) (hK : Kept ρ s) : KeptOut ρ (execMadAccDataRead k s) := by
  unfold execMadAccDataRead
  simp (maxDischargeDepth := 20) +contextual [hK, hK.mem, hK.host, Kept.foldl]

@[simp] theorem State.wrLock_kept {ρ : State} (s : State) (l : Lock) (v : W32) (hK : Kept ρ s) : Kept ρ (s.wrLock l v) := by
  unfold State.wrLock
  split
  · exact hK
  · split
    · exact ⟨hK.pending, hK.variant, hK.serial, hK.mem, hK.host⟩
    · split
      · exact ⟨hK.pending, hK.variant, hK.serial, hK.mem, hK.host⟩
      · simp (maxDischargeDepth := 20) [hK]

@[simp] theorem execLockWrite_kept {ρ : State} (off : Nat) (v : W32) (s : State) (hK : Kept ρ s) : KeptOut ρ (execLockWrite off v s) := by
  unfold execLockWrite
  split <;> simp (maxDischargeDepth := 20) [hK, hK.mem, hK.host]

@[simp] theorem State.wrEvtMask_kept {ρ : State} (s : State) (v : W32) (hK : Kept ρ s) : Kept ρ (State.wrEvtMask s v) := by
  unfold State.wrEvtMask
  simp (maxDischargeDepth := 20) +contextual [hK, hK.mem, hK.host, Kept.foldl]

@[simp] theorem execEvtMaskWrite_kept {ρ : State} (v : W32) (s : State) (hK : Kept ρ s) : KeptOut ρ (execEvtMaskWrite v s) := by
  unfold execEvtMaskWrite
  simp (maxDischargeDepth := 20) +contextual [hK, hK.mem, hK.host, Kept.foldl]

@[simp] theorem State.wrMsix_kept {ρ : State} (s : State) (i j : Nat) (v : W32) (hK : Kept ρ s) : Kept ρ (State.wrMsix s i j v) := by
  unfold State.wrMsix
  simp (maxDischargeDepth := 20) +contextual [hK, hK.mem, hK.host, Kept.foldl]

@[simp] theorem State.wrCtxSeed_kept {ρ : State} (s : State) (r : Reg) (x : Nat) (v : W32) (hK : Kept ρ s) : Kept ρ (State.wrCtxSeed s r x v) := by
  unfold State.wrCtxSeed
  simp (maxDischargeDepth := 20) +contextual [hK, hK.mem, hK.host, Kept.foldl]

@[simp] theorem execKrmCtxSeedWrite_kept {ρ : State} (slot : Fin 4) (check hi : Bool) (v : W32) (s : State) (hK : Kept ρ s) : KeptOut ρ (execKrmCtxSeedWrite slot check hi v s) := by
  unfold execKrmCtxSeedWrite
  simp (maxDischargeDepth := 20) +contextual [hK, hK.mem, hK.host, Kept.foldl]

@[simp] theorem State.wrVwSeed_kept {ρ : State} (s : State) (hi : Bool) (v : W32) (hK : Kept ρ s) : Kept ρ (State.wrVwSeed s hi v) := by
  unfold State.wrVwSeed
  simp (maxDischargeDepth := 20) +contextual [hK, hK.mem, hK.host, Kept.foldl]

@[simp] theorem execVwSeedWrite_kept {ρ : State} (v : W32) (s : State) (hK : Kept ρ s) : KeptOut ρ (execVwSeedWrite v s) := by
  unfold execVwSeedWrite
  simp (maxDischargeDepth := 20) +contextual [hK, hK.mem, hK.host, Kept.foldl]

@[simp] theorem execVwSeedCopyDone_kept {ρ : State} (s : State) (hK : Kept ρ s) : KeptOut ρ (execVwSeedCopyDone s) := by
  unfold execVwSeedCopyDone
  simp (maxDischargeDepth := 20) +contextual [hK, hK.mem, hK.host, Kept.foldl]

@[simp] theorem State.plainWrite_kept {ρ : State} (s : State) (r : Reg) (u n : Nat) (v : W32) (hK : Kept ρ s) : Kept ρ (State.plainWrite s r u n v) := by
  unfold State.plainWrite
  simp (maxDischargeDepth := 20) +contextual [hK, hK.mem, hK.host, Kept.foldl]

@[simp] theorem State.wrUmbCtrl_kept {ρ : State} (s : State) (v : W32) (hK : Kept ρ s) : Kept ρ (State.wrUmbCtrl s v) := by
  unfold State.wrUmbCtrl
  simp (maxDischargeDepth := 20) +contextual [hK, hK.mem, hK.host, Kept.foldl]

@[simp] theorem State.wrLnkCtrl_kept {ρ : State} (s : State) (n : Nat) (v : W32) (hK : Kept ρ s) : Kept ρ (State.wrLnkCtrl s n v) := by
  unfold State.wrLnkCtrl
  simp (maxDischargeDepth := 20) +contextual [hK, hK.mem, hK.host, Kept.foldl]

@[simp] theorem State.wrWldCtrl_kept {ρ : State} (s : State) (k : Nat) (v : W32) (hK : Kept ρ s) : Kept ρ (State.wrWldCtrl s k v) := by
  unfold State.wrWldCtrl
  simp (maxDischargeDepth := 20) +contextual [hK, hK.mem, hK.host, Kept.foldl]

@[simp] theorem State.wrTimCtrl_kept {ρ : State} (s : State) (v : W32) (hK : Kept ρ s) : Kept ρ (State.wrTimCtrl s v) := by
  unfold State.wrTimCtrl
  simp (maxDischargeDepth := 20) +contextual [hK, hK.mem, hK.host, Kept.foldl]

@[simp] theorem State.wrEvqPtr_kept {ρ : State} (s : State) (v : W32) (hK : Kept ρ s) : Kept ρ (State.wrEvqPtr s v) := by
  unfold State.wrEvqPtr
  simp (maxDischargeDepth := 20) +contextual [hK, hK.mem, hK.host, Kept.foldl]

@[simp] theorem State.wrSepCmd_kept {ρ : State} (s : State) (v : W32) (hK : Kept ρ s) : Kept ρ (State.wrSepCmd s v) := by
  unfold State.wrSepCmd
  split <;> simp (maxDischargeDepth := 20) [hK, hK.mem, hK.host]

@[simp] theorem State.wrDbgCtrl_kept {ρ : State} (s : State) (v : W32) (hK : Kept ρ s) : Kept ρ (State.wrDbgCtrl s v) := by
  unfold State.wrDbgCtrl
  simp (maxDischargeDepth := 20) +contextual [hK, hK.mem, hK.host, Kept.foldl]

@[simp] theorem State.wrToken_kept {ρ : State} (s : State) (n : Nat) (v : W32) (hK : Kept ρ s) : Kept ρ (State.wrToken s n v) := by
  unfold State.wrToken
  simp (maxDischargeDepth := 20) +contextual [hK, hK.mem, hK.host, Kept.foldl]

@[simp] theorem State.wrReg_kept {ρ : State} (s : State) (r : Reg) (u n : Nat) (v : W32) (hK : Kept ρ s) : Kept ρ (State.wrReg s r u n v) := by
  unfold State.wrReg
  split <;> simp (maxDischargeDepth := 20) [hK, hK.mem, hK.host]

@[simp] theorem State.writeWord_kept {ρ : State} (s : State) (off : Nat) (v : W32) (hK : Kept ρ s) : Kept ρ (State.writeWord s off v) := by
  unfold State.writeWord
  (repeat' split) <;> simp (maxDischargeDepth := 20) [hK, hK.mem, hK.host]

@[simp] theorem execRegisterWrite_kept {ρ : State} (off : Nat) (d : RegData) (s : State) (hK : Kept ρ s) : KeptOut ρ (execRegisterWrite off d s) := by
  unfold execRegisterWrite
  (repeat' split) <;> simp (maxDischargeDepth := 20) [hK, hK.mem, hK.host]

end Sys2Proof.Machine
end

