-- ==== Sys2Proof/Laws/Kept/LinkSlot.lean ====
section
/-! SUPPORT. What the operations of Machine/LinkSlot.lean keep (`Kept`). -/

namespace Sys2Proof.Machine

set_option linter.unusedSimpArgs false

theorem lCmd_keeps (l : LSlot) (op : Nat) (k : Cls) (legal : Bool) (body : State → Nat → Nat → SlotRes)
    (hb : ∀ (ρ s : State) (n x : Nat), Kept ρ s → KeptRes ρ (body s n x)) : (lCmd l op k legal body).Keeps := hb

@[simp] theorem slotLat_keeps (l : LSlot) : (slotLat l).Keeps := by
  unfold slotLat
  try dsimp only
  apply lCmd_keeps
  intro ρ s n x hK
  simp (maxDischargeDepth := 20) +contextual [hK, hK.mem, hK.host, Kept.foldl]

@[simp] theorem execLatTimeReached_kept {ρ : State} (k : CoreId) (s : State) (hK : Kept ρ s) : KeptOut ρ (execLatTimeReached k s) := by
  unfold execLatTimeReached
  dsimp only
  (repeat' split) <;> simp (maxDischargeDepth := 20) +contextual [hK, hK.mem, hK.host, Kept.foldl]

@[simp] theorem slotLwait_keeps (l : LSlot) : (slotLwait l).Keeps := by
  unfold slotLwait
  try dsimp only
  apply lCmd_keeps
  intro ρ s n x hK
  simp (maxDischargeDepth := 20) +contextual [hK, hK.mem, hK.host, Kept.foldl]

@[simp] theorem execLwaitTimeout_kept {ρ : State} (k : CoreId) (s : State) (hK : Kept ρ s) : KeptOut ρ (execLwaitTimeout k s) := by
  unfold execLwaitTimeout
  dsimp only
  (repeat' split) <;> simp (maxDischargeDepth := 20) +contextual [hK, hK.mem, hK.host, Kept.foldl]

@[simp] theorem slotLsend_keeps (l : LSlot) : (slotLsend l).Keeps := by
  unfold slotLsend
  try dsimp only
  apply lCmd_keeps
  intro ρ s n x hK
  extract_lets
  (repeat' first | split | extract_lets) <;> first
    | (simp only [keptRes_status, keptRes_wait, keptOut_fault, keptOpt_none]; done)
    | (simp +zetaDelta (maxDischargeDepth := 20) [hK, hK.mem, hK.host]; done)
    | (next e =>
        have k := KeptOpt.get (r := ρ) (by simp +zetaDelta (maxDischargeDepth := 20) [hK]) e
        simp +zetaDelta (maxDischargeDepth := 20) [k]
        done)
    | (next e1 e2 =>
        have k1 := KeptOpt.get (r := ρ) (by simp +zetaDelta (maxDischargeDepth := 20) [hK]) e1
        have k2 := KeptOpt.get (r := ρ) (by simp +zetaDelta (maxDischargeDepth := 20) [k1]) e2
        simp +zetaDelta (maxDischargeDepth := 20) [k2]
        done)
    | (next e =>
        have k := KeptStore.done (ρ := ρ) (by simp +zetaDelta (maxDischargeDepth := 20) [hK]) e
        simp +zetaDelta (maxDischargeDepth := 20) [k]
        done)
    | (next e =>
        have k := KeptStore.refused (ρ := ρ) (by simp +zetaDelta (maxDischargeDepth := 20) [hK]) e
        simp +zetaDelta (maxDischargeDepth := 20) [k]
        done)
    | (next e =>
        have k := KeptChk.get (ρ := ρ) (by simp +zetaDelta (maxDischargeDepth := 20) [hK]) e
        simp +zetaDelta (maxDischargeDepth := 20) [k]
        done)

@[simp] theorem slotLrecv_keeps (l : LSlot) : (slotLrecv l).Keeps := by
  unfold slotLrecv
  try dsimp only
  apply lCmd_keeps
  intro ρ s n x hK
  extract_lets
  (repeat' first | split | extract_lets) <;> first
    | (simp only [keptRes_status, keptRes_wait, keptOut_fault, keptOpt_none]; done)
    | (simp +zetaDelta (maxDischargeDepth := 20) [hK, hK.mem, hK.host]; done)
    | (next e =>
        have k := KeptOpt.get (r := ρ) (by simp +zetaDelta (maxDischargeDepth := 20) [hK]) e
        simp +zetaDelta (maxDischargeDepth := 20) [k]
        done)
    | (next e1 e2 =>
        have k1 := KeptOpt.get (r := ρ) (by simp +zetaDelta (maxDischargeDepth := 20) [hK]) e1
        have k2 := KeptOpt.get (r := ρ) (by simp +zetaDelta (maxDischargeDepth := 20) [k1]) e2
        simp +zetaDelta (maxDischargeDepth := 20) [k2]
        done)
    | (next e =>
        have k := KeptStore.done (ρ := ρ) (by simp +zetaDelta (maxDischargeDepth := 20) [hK]) e
        simp +zetaDelta (maxDischargeDepth := 20) [k]
        done)
    | (next e =>
        have k := KeptStore.refused (ρ := ρ) (by simp +zetaDelta (maxDischargeDepth := 20) [hK]) e
        simp +zetaDelta (maxDischargeDepth := 20) [k]
        done)
    | (next e =>
        have k := KeptChk.get (ρ := ρ) (by simp +zetaDelta (maxDischargeDepth := 20) [hK]) e
        simp +zetaDelta (maxDischargeDepth := 20) [k]
        done)

@[simp] theorem slotLcoll_keeps (l : LSlot) : (slotLcoll l).Keeps := by
  unfold slotLcoll
  try dsimp only
  apply lCmd_keeps
  intro ρ s n x hK
  extract_lets
  (repeat' first | split | extract_lets) <;> first
    | (simp only [keptRes_status, keptRes_wait, keptOut_fault, keptOpt_none]; done)
    | (simp +zetaDelta (maxDischargeDepth := 20) [hK, hK.mem, hK.host]; done)
    | (next e =>
        have k := KeptOpt.get (r := ρ) (by simp +zetaDelta (maxDischargeDepth := 20) [hK]) e
        simp +zetaDelta (maxDischargeDepth := 20) [k]
        done)
    | (next e1 e2 =>
        have k1 := KeptOpt.get (r := ρ) (by simp +zetaDelta (maxDischargeDepth := 20) [hK]) e1
        have k2 := KeptOpt.get (r := ρ) (by simp +zetaDelta (maxDischargeDepth := 20) [k1]) e2
        simp +zetaDelta (maxDischargeDepth := 20) [k2]
        done)
    | (next e =>
        have k := KeptStore.done (ρ := ρ) (by simp +zetaDelta (maxDischargeDepth := 20) [hK]) e
        simp +zetaDelta (maxDischargeDepth := 20) [k]
        done)
    | (next e =>
        have k := KeptStore.refused (ρ := ρ) (by simp +zetaDelta (maxDischargeDepth := 20) [hK]) e
        simp +zetaDelta (maxDischargeDepth := 20) [k]
        done)
    | (next e =>
        have k := KeptChk.get (ρ := ρ) (by simp +zetaDelta (maxDischargeDepth := 20) [hK]) e
        simp +zetaDelta (maxDischargeDepth := 20) [k]
        done)

@[simp] theorem slotLfence_keeps (l : LSlot) : (slotLfence l).Keeps := by
  unfold slotLfence
  try dsimp only
  apply lCmd_keeps
  intro ρ s n x hK
  simp (maxDischargeDepth := 20) +contextual [hK, hK.mem, hK.host, Kept.foldl]

@[simp] theorem execLfenceTimeout_kept {ρ : State} (k : CoreId) (s : State) (hK : Kept ρ s) : KeptOut ρ (execLfenceTimeout k s) := by
  unfold execLfenceTimeout
  dsimp only
  (repeat' split) <;> simp (maxDischargeDepth := 20) +contextual [hK, hK.mem, hK.host, Kept.foldl]

end Sys2Proof.Machine
end

