-- ==== Sys2Proof/Laws/Kept/Vector.lean ====
section
/-! SUPPORT. What the operations of Machine/Vector.lean keep (`Kept`). -/

namespace Sys2Proof.Machine

set_option linter.unusedSimpArgs false

theorem v0Cmd_keeps (v : VSlot) (op : Nat) (k : Cls) (legal : Bool) (body : State → Nat → Nat → SlotRes)
    (hb : ∀ (ρ s : State) (n x : Nat), Kept ρ s → KeptRes ρ (body s n x)) : (v0Cmd v op k legal body).Keeps :=
  fun ρ s n x h => hb ρ _ n x (by simp (maxDischargeDepth := 20) [h])

theorem v1Cmd_keeps (v : VSlot) (op : Nat) (legal : Bool) (body : State → Nat → Nat → SlotRes)
    (hb : ∀ (ρ s : State) (n x : Nat), Kept ρ s → KeptRes ρ (body s n x)) : (v1Cmd v op legal body).Keeps :=
  fun ρ s n x h => hb ρ _ n x (by simp (maxDischargeDepth := 20) [h])

@[simp] theorem vBin_keeps (v : VSlot) (op : Nat) (legal : Bool) (f : W32 → W32 → W32) : (vBin v op legal f).Keeps := by
  unfold vBin
  try dsimp only
  apply v0Cmd_keeps
  intro ρ s n x hK
  simp (maxDischargeDepth := 20) +contextual [hK, hK.mem, hK.host, Kept.foldl]

@[simp] theorem slotVadd_keeps (v : VSlot) : (slotVadd v).Keeps := by
  unfold slotVadd
  simp

@[simp] theorem slotVsub_keeps (v : VSlot) : (slotVsub v).Keeps := by
  unfold slotVsub
  simp

@[simp] theorem slotVmul_keeps (v : VSlot) : (slotVmul v).Keeps := by
  unfold slotVmul
  simp

@[simp] theorem slotVfma_keeps (v : VSlot) : (slotVfma v).Keeps := by
  unfold slotVfma
  try dsimp only
  apply v0Cmd_keeps
  intro ρ s n x hK
  simp (maxDischargeDepth := 20) +contextual [hK, hK.mem, hK.host, Kept.foldl]

@[simp] theorem slotVmax_keeps (v : VSlot) : (slotVmax v).Keeps := by
  unfold slotVmax
  simp

@[simp] theorem slotVmin_keeps (v : VSlot) : (slotVmin v).Keeps := by
  unfold slotVmin
  simp

@[simp] theorem vCompare_keeps (v : VSlot) (op : Nat) (f : Nat → W32 → W32 → Bool) : (vCompare v op f).Keeps := by
  unfold vCompare
  try dsimp only
  apply v0Cmd_keeps
  intro ρ s n x hK
  simp (maxDischargeDepth := 20) +contextual [hK, hK.mem, hK.host, Kept.foldl]

@[simp] theorem slotVcmp_keeps (v : VSlot) : (slotVcmp v).Keeps := by
  unfold slotVcmp
  simp

@[simp] theorem slotVsel_keeps (v : VSlot) : (slotVsel v).Keeps := by
  unfold slotVsel
  try dsimp only
  apply v0Cmd_keeps
  intro ρ s n x hK
  simp (maxDischargeDepth := 20) +contextual [hK, hK.mem, hK.host, Kept.foldl]

@[simp] theorem slotViadd_keeps (v : VSlot) : (slotViadd v).Keeps := by
  unfold slotViadd
  simp

@[simp] theorem slotVisub_keeps (v : VSlot) : (slotVisub v).Keeps := by
  unfold slotVisub
  simp

@[simp] theorem slotVimul_keeps (v : VSlot) : (slotVimul v).Keeps := by
  unfold slotVimul
  simp

@[simp] theorem slotVand_keeps (v : VSlot) : (slotVand v).Keeps := by
  unfold slotVand
  simp

@[simp] theorem slotVor_keeps (v : VSlot) : (slotVor v).Keeps := by
  unfold slotVor
  simp

@[simp] theorem slotVxor_keeps (v : VSlot) : (slotVxor v).Keeps := by
  unfold slotVxor
  simp

@[simp] theorem slotVshl_keeps (v : VSlot) : (slotVshl v).Keeps := by
  unfold slotVshl
  simp

@[simp] theorem slotVshr_keeps (v : VSlot) : (slotVshr v).Keeps := by
  unfold slotVshr
  simp

@[simp] theorem slotVsar_keeps (v : VSlot) : (slotVsar v).Keeps := by
  unfold slotVsar
  simp

@[simp] theorem slotVicmp_keeps (v : VSlot) : (slotVicmp v).Keeps := by
  unfold slotVicmp
  simp

@[simp] theorem slotViota_keeps (v : VSlot) : (slotViota v).Keeps := by
  unfold slotViota
  try dsimp only
  apply v0Cmd_keeps
  intro ρ s n x hK
  simp (maxDischargeDepth := 20) +contextual [hK, hK.mem, hK.host, Kept.foldl]

@[simp] theorem slotVbcast_keeps (v : VSlot) : (slotVbcast v).Keeps := by
  unfold slotVbcast
  try dsimp only
  apply v0Cmd_keeps
  intro ρ s n x hK
  simp (maxDischargeDepth := 20) +contextual [hK, hK.mem, hK.host, Kept.foldl]

@[simp] theorem slotVcvt_keeps (v : VSlot) : (slotVcvt v).Keeps := by
  unfold slotVcvt
  try dsimp only
  apply v0Cmd_keeps
  intro ρ s n x hK
  simp (maxDischargeDepth := 20) +contextual [hK, hK.mem, hK.host, Kept.foldl]

@[simp] theorem slotVld_keeps (v : VSlot) : (slotVld v).Keeps := by
  unfold slotVld
  try dsimp only
  apply v0Cmd_keeps
  intro ρ s n x hK
  simp (maxDischargeDepth := 20) +contextual [hK, hK.mem, hK.host, Kept.foldl]

@[simp] theorem slotVst_keeps (v : VSlot) : (slotVst v).Keeps := by
  unfold slotVst
  try dsimp only
  apply v0Cmd_keeps
  intro ρ s n x hK
  simp (maxDischargeDepth := 20) +contextual [hK, hK.mem, hK.host, Kept.foldl]

@[simp] theorem slotVext_keeps (v : VSlot) : (slotVext v).Keeps := by
  unfold slotVext
  try dsimp only
  apply v0Cmd_keeps
  intro ρ s n x hK
  simp (maxDischargeDepth := 20) +contextual [hK, hK.mem, hK.host, Kept.foldl]

@[simp] theorem slotVins_keeps (v : VSlot) : (slotVins v).Keeps := by
  unfold slotVins
  try dsimp only
  apply v0Cmd_keeps
  intro ρ s n x hK
  simp (maxDischargeDepth := 20) +contextual [hK, hK.mem, hK.host, Kept.foldl]

@[simp] theorem vFun_keeps (v : VSlot) (op u : Nat) (ab : Option Int) (f : FV → FV) : (vFun v op u ab f).Keeps := by
  unfold vFun
  try dsimp only
  apply v1Cmd_keeps
  intro ρ s n x hK
  simp (maxDischargeDepth := 20) +contextual [hK, hK.mem, hK.host, Kept.foldl]

@[simp] theorem slotVexp_keeps (v : VSlot) : (slotVexp v).Keeps := by
  unfold slotVexp
  simp

@[simp] theorem slotVexp2_keeps (v : VSlot) : (slotVexp2 v).Keeps := by
  unfold slotVexp2
  simp

@[simp] theorem slotVlog_keeps (v : VSlot) : (slotVlog v).Keeps := by
  unfold slotVlog
  simp

@[simp] theorem slotVlog2_keeps (v : VSlot) : (slotVlog2 v).Keeps := by
  unfold slotVlog2
  simp

@[simp] theorem slotVrcp_keeps (v : VSlot) : (slotVrcp v).Keeps := by
  unfold slotVrcp
  simp

@[simp] theorem slotVrsq_keeps (v : VSlot) : (slotVrsq v).Keeps := by
  unfold slotVrsq
  simp

@[simp] theorem slotVsqrt_keeps (v : VSlot) : (slotVsqrt v).Keeps := by
  unfold slotVsqrt
  try dsimp only
  apply v1Cmd_keeps
  intro ρ s n x hK
  simp (maxDischargeDepth := 20) +contextual [hK, hK.mem, hK.host, Kept.foldl]

@[simp] theorem slotVdiv_keeps (v : VSlot) : (slotVdiv v).Keeps := by
  unfold slotVdiv
  try dsimp only
  apply v1Cmd_keeps
  intro ρ s n x hK
  simp (maxDischargeDepth := 20) +contextual [hK, hK.mem, hK.host, Kept.foldl]

@[simp] theorem slotVcos_keeps (v : VSlot) : (slotVcos v).Keeps := by
  unfold slotVcos
  simp

@[simp] theorem slotVsin_keeps (v : VSlot) : (slotVsin v).Keeps := by
  unfold slotVsin
  simp

@[simp] theorem slotVact_keeps (v : VSlot) : (slotVact v).Keeps := by
  unfold slotVact
  try dsimp only
  apply v1Cmd_keeps
  intro ρ s n x hK
  simp (maxDischargeDepth := 20) +contextual [hK, hK.mem, hK.host, Kept.foldl]

@[simp] theorem actProduct_keeps (v : VSlot) (op : Nat) (legal : Bool) (der : Bool → Nat → W32 → W32 → W32) : (actProduct v op legal der).Keeps := by
  unfold actProduct
  try dsimp only
  apply v1Cmd_keeps
  intro ρ s n x hK
  simp (maxDischargeDepth := 20) +contextual [hK, hK.mem, hK.host, Kept.foldl]

@[simp] theorem slotVactD_keeps (v : VSlot) : (slotVactD v).Keeps := by
  unfold slotVactD
  simp

@[simp] theorem slotVactDi_keeps (v : VSlot) : (slotVactDi v).Keeps := by
  unfold slotVactDi
  simp

@[simp] theorem slotVred_keeps (v : VSlot) : (slotVred v).Keeps := by
  unfold slotVred
  try dsimp only
  apply v1Cmd_keeps
  intro ρ s n x hK
  simp (maxDischargeDepth := 20) +contextual [hK, hK.mem, hK.host, Kept.foldl]

@[simp] theorem slotVrng_keeps (v : VSlot) : (slotVrng v).Keeps := by
  unfold slotVrng
  try dsimp only
  apply v1Cmd_keeps
  intro ρ s n x hK
  simp (maxDischargeDepth := 20) +contextual [hK, hK.mem, hK.host, Kept.foldl]

theorem vosm_keeps (v : VSlot) (op : Nat) (legal : Bool) (body : State → Nat → Nat → SlotRes)
    (hb : ∀ (ρ s : State) (n x : Nat), Kept ρ s → KeptRes ρ (body s n x)) : (vosm v op legal body).Keeps := by
  unfold vosm
  refine v1Cmd_keeps _ _ _ _ (fun ρ s n x h => ?_)
  dsimp only
  split
  · trivial
  · split
    · trivial
    · exact hb _ _ _ _ h

@[simp] theorem slotVosmI_keeps (v : VSlot) : (slotVosmI v).Keeps := by
  unfold slotVosmI
  try dsimp only
  apply vosm_keeps
  intro ρ s n x hK
  simp (maxDischargeDepth := 20) +contextual [hK, hK.mem, hK.host, Kept.foldl]

@[simp] theorem slotVosmM_keeps (v : VSlot) : (slotVosmM v).Keeps := by
  unfold slotVosmM
  try dsimp only
  apply vosm_keeps
  intro ρ s n x hK
  simp (maxDischargeDepth := 20) +contextual [hK, hK.mem, hK.host, Kept.foldl]

@[simp] theorem slotVosmL_keeps (v : VSlot) : (slotVosmL v).Keeps := by
  unfold slotVosmL
  try dsimp only
  apply vosm_keeps
  intro ρ s n x hK
  simp (maxDischargeDepth := 20) +contextual [hK, hK.mem, hK.host, Kept.foldl]

@[simp] theorem slotVosmF_keeps (v : VSlot) : (slotVosmF v).Keeps := by
  unfold slotVosmF
  try dsimp only
  apply vosm_keeps
  intro ρ s n x hK
  simp (maxDischargeDepth := 20) +contextual [hK, hK.mem, hK.host, Kept.foldl]

@[simp] theorem slotVosmS_keeps (v : VSlot) : (slotVosmS v).Keeps := by
  unfold slotVosmS
  try dsimp only
  apply vosm_keeps
  intro ρ s n x hK
  simp (maxDischargeDepth := 20) +contextual [hK, hK.mem, hK.host, Kept.foldl]

end Sys2Proof.Machine
end

