-- ==== Sys2Proof/Laws/Kept/Slots.lean ====
section
/-! SUPPORT. What the operations of Machine/Slots.lean keep (`Kept`). -/

namespace Sys2Proof.Machine

set_option linter.unusedSimpArgs false

theorem slotOf_keeps (c : Instr) (q : Slot) (h : slotOf c = some q) : q.Keeps := by
  cases c <;> first
    | (simp only [slotOf, Option.some.injEq] at h; subst h; simp; done)
    | (simp [slotOf] at h; done)

theorem slotRun_kept {ρ : State} (c : Instr) {q : Slot} (hq : q.Keeps) (s : State) (hK : Kept ρ s) : KeptOut ρ (slotRun c q s) :=
  wideCmd_kept slotOf slotOf_keeps c hq s hK

@[simp] theorem execAdd_kept {ρ : State} (v : CSlot) (s : State) (hK : Kept ρ s) : KeptOut ρ (execAdd v s) := by
  exact slotRun_kept _ (slotAdd_keeps _) s hK

@[simp] theorem execSub_kept {ρ : State} (v : CSlot) (s : State) (hK : Kept ρ s) : KeptOut ρ (execSub v s) := by
  exact slotRun_kept _ (slotSub_keeps _) s hK

@[simp] theorem execAnd_kept {ρ : State} (v : CSlot) (s : State) (hK : Kept ρ s) : KeptOut ρ (execAnd v s) := by
  exact slotRun_kept _ (slotAnd_keeps _) s hK

@[simp] theorem execOr_kept {ρ : State} (v : CSlot) (s : State) (hK : Kept ρ s) : KeptOut ρ (execOr v s) := by
  exact slotRun_kept _ (slotOr_keeps _) s hK

@[simp] theorem execXor_kept {ρ : State} (v : CSlot) (s : State) (hK : Kept ρ s) : KeptOut ρ (execXor v s) := by
  exact slotRun_kept _ (slotXor_keeps _) s hK

@[simp] theorem execShl_kept {ρ : State} (v : CSlot) (s : State) (hK : Kept ρ s) : KeptOut ρ (execShl v s) := by
  exact slotRun_kept _ (slotShl_keeps _) s hK

@[simp] theorem execShr_kept {ρ : State} (v : CSlot) (s : State) (hK : Kept ρ s) : KeptOut ρ (execShr v s) := by
  exact slotRun_kept _ (slotShr_keeps _) s hK

@[simp] theorem execSar_kept {ρ : State} (v : CSlot) (s : State) (hK : Kept ρ s) : KeptOut ρ (execSar v s) := by
  exact slotRun_kept _ (slotSar_keeps _) s hK

@[simp] theorem execMul_kept {ρ : State} (v : CSlot) (s : State) (hK : Kept ρ s) : KeptOut ρ (execMul v s) := by
  exact slotRun_kept _ (slotMul_keeps _) s hK

@[simp] theorem execMulhu_kept {ρ : State} (v : CSlot) (s : State) (hK : Kept ρ s) : KeptOut ρ (execMulhu v s) := by
  exact slotRun_kept _ (slotMulhu_keeps _) s hK

@[simp] theorem execMin_kept {ρ : State} (v : CSlot) (s : State) (hK : Kept ρ s) : KeptOut ρ (execMin v s) := by
  exact slotRun_kept _ (slotMin_keeps _) s hK

@[simp] theorem execMax_kept {ρ : State} (v : CSlot) (s : State) (hK : Kept ρ s) : KeptOut ρ (execMax v s) := by
  exact slotRun_kept _ (slotMax_keeps _) s hK

@[simp] theorem execAddi_kept {ρ : State} (v : CSlot) (s : State) (hK : Kept ρ s) : KeptOut ρ (execAddi v s) := by
  exact slotRun_kept _ (slotAddi_keeps _) s hK

@[simp] theorem execAndi_kept {ρ : State} (v : CSlot) (s : State) (hK : Kept ρ s) : KeptOut ρ (execAndi v s) := by
  exact slotRun_kept _ (slotAndi_keeps _) s hK

@[simp] theorem execOri_kept {ρ : State} (v : CSlot) (s : State) (hK : Kept ρ s) : KeptOut ρ (execOri v s) := by
  exact slotRun_kept _ (slotOri_keeps _) s hK

@[simp] theorem execXori_kept {ρ : State} (v : CSlot) (s : State) (hK : Kept ρ s) : KeptOut ρ (execXori v s) := by
  exact slotRun_kept _ (slotXori_keeps _) s hK

@[simp] theorem execShli_kept {ρ : State} (v : CSlot) (s : State) (hK : Kept ρ s) : KeptOut ρ (execShli v s) := by
  exact slotRun_kept _ (slotShli_keeps _) s hK

@[simp] theorem execShri_kept {ρ : State} (v : CSlot) (s : State) (hK : Kept ρ s) : KeptOut ρ (execShri v s) := by
  exact slotRun_kept _ (slotShri_keeps _) s hK

@[simp] theorem execMovi_kept {ρ : State} (v : CSlot) (s : State) (hK : Kept ρ s) : KeptOut ρ (execMovi v s) := by
  exact slotRun_kept _ (slotMovi_keeps _) s hK

@[simp] theorem execCmpEq_kept {ρ : State} (v : CSlot) (s : State) (hK : Kept ρ s) : KeptOut ρ (execCmpEq v s) := by
  exact slotRun_kept _ (slotCmpEq_keeps _) s hK

@[simp] theorem execCmpNe_kept {ρ : State} (v : CSlot) (s : State) (hK : Kept ρ s) : KeptOut ρ (execCmpNe v s) := by
  exact slotRun_kept _ (slotCmpNe_keeps _) s hK

@[simp] theorem execCmpLt_kept {ρ : State} (v : CSlot) (s : State) (hK : Kept ρ s) : KeptOut ρ (execCmpLt v s) := by
  exact slotRun_kept _ (slotCmpLt_keeps _) s hK

@[simp] theorem execCmpLtu_kept {ρ : State} (v : CSlot) (s : State) (hK : Kept ρ s) : KeptOut ρ (execCmpLtu v s) := by
  exact slotRun_kept _ (slotCmpLtu_keeps _) s hK

@[simp] theorem execCmpiEq_kept {ρ : State} (v : CSlot) (s : State) (hK : Kept ρ s) : KeptOut ρ (execCmpiEq v s) := by
  exact slotRun_kept _ (slotCmpiEq_keeps _) s hK

@[simp] theorem execCmpiLt_kept {ρ : State} (v : CSlot) (s : State) (hK : Kept ρ s) : KeptOut ρ (execCmpiLt v s) := by
  exact slotRun_kept _ (slotCmpiLt_keeps _) s hK

@[simp] theorem execPand_kept {ρ : State} (v : CSlot) (s : State) (hK : Kept ρ s) : KeptOut ρ (execPand v s) := by
  exact slotRun_kept _ (slotPand_keeps _) s hK

@[simp] theorem execPor_kept {ρ : State} (v : CSlot) (s : State) (hK : Kept ρ s) : KeptOut ρ (execPor v s) := by
  exact slotRun_kept _ (slotPor_keeps _) s hK

@[simp] theorem execPxor_kept {ρ : State} (v : CSlot) (s : State) (hK : Kept ρ s) : KeptOut ρ (execPxor v s) := by
  exact slotRun_kept _ (slotPxor_keeps _) s hK

@[simp] theorem execPnot_kept {ρ : State} (v : CSlot) (s : State) (hK : Kept ρ s) : KeptOut ρ (execPnot v s) := by
  exact slotRun_kept _ (slotPnot_keeps _) s hK

@[simp] theorem execPset_kept {ρ : State} (v : CSlot) (s : State) (hK : Kept ρ s) : KeptOut ρ (execPset v s) := by
  exact slotRun_kept _ (slotPset_keeps _) s hK

@[simp] theorem execJmp_kept {ρ : State} (v : CSlot) (s : State) (hK : Kept ρ s) : KeptOut ρ (execJmp v s) := by
  exact slotRun_kept _ (slotJmp_keeps _) s hK

@[simp] theorem execJr_kept {ρ : State} (v : CSlot) (s : State) (hK : Kept ρ s) : KeptOut ρ (execJr v s) := by
  exact slotRun_kept _ (slotJr_keeps _) s hK

@[simp] theorem execCall_kept {ρ : State} (v : CSlot) (s : State) (hK : Kept ρ s) : KeptOut ρ (execCall v s) := by
  exact slotRun_kept _ (slotCall_keeps _) s hK

@[simp] theorem execLoop_kept {ρ : State} (v : CSlot) (s : State) (hK : Kept ρ s) : KeptOut ρ (execLoop v s) := by
  exact slotRun_kept _ (slotLoop_keeps _) s hK

@[simp] theorem execCrd_kept {ρ : State} (v : CSlot) (s : State) (hK : Kept ρ s) : KeptOut ρ (execCrd v s) := by
  exact slotRun_kept _ (slotCrd_keeps _) s hK

@[simp] theorem execCwr_kept {ρ : State} (v : CSlot) (s : State) (hK : Kept ρ s) : KeptOut ρ (execCwr v s) := by
  exact slotRun_kept _ (slotCwr_keeps _) s hK

@[simp] theorem execClvl_kept {ρ : State} (v : CSlot) (s : State) (hK : Kept ρ s) : KeptOut ρ (execClvl v s) := by
  exact slotRun_kept _ (slotClvl_keeps _) s hK

@[simp] theorem execTld_kept {ρ : State} (v : CSlot) (s : State) (hK : Kept ρ s) : KeptOut ρ (execTld v s) := by
  exact slotRun_kept _ (slotTld_keeps _) s hK

@[simp] theorem execTst_kept {ρ : State} (v : CSlot) (s : State) (hK : Kept ρ s) : KeptOut ρ (execTst v s) := by
  exact slotRun_kept _ (slotTst_keeps _) s hK

@[simp] theorem execTaddr_kept {ρ : State} (v : CSlot) (s : State) (hK : Kept ρ s) : KeptOut ρ (execTaddr v s) := by
  exact slotRun_kept _ (slotTaddr_keeps _) s hK

@[simp] theorem execTorg_kept {ρ : State} (v : CSlot) (s : State) (hK : Kept ρ s) : KeptOut ρ (execTorg v s) := by
  exact slotRun_kept _ (slotTorg_keeps _) s hK

@[simp] theorem execLds_kept {ρ : State} (v : CSlot) (s : State) (hK : Kept ρ s) : KeptOut ρ (execLds v s) := by
  exact slotRun_kept _ (slotLds_keeps _) s hK

@[simp] theorem execSts_kept {ρ : State} (v : CSlot) (s : State) (hK : Kept ρ s) : KeptOut ρ (execSts v s) := by
  exact slotRun_kept _ (slotSts_keeps _) s hK

@[simp] theorem execCspec_kept {ρ : State} (v : CSlot) (s : State) (hK : Kept ρ s) : KeptOut ρ (execCspec v s) := by
  exact slotRun_kept _ (slotCspec_keeps _) s hK

@[simp] theorem execCcommit_kept {ρ : State} (v : CSlot) (s : State) (hK : Kept ρ s) : KeptOut ρ (execCcommit v s) := by
  exact slotRun_kept _ (slotCcommit_keeps _) s hK

@[simp] theorem execCcommitStep_kept {ρ : State} (v : CSlot) (s : State) (hK : Kept ρ s) : KeptOut ρ (execCcommitStep v s) := by
  exact slotRun_kept _ (slotCcommitStep_keeps _) s hK

@[simp] theorem execHalt_kept {ρ : State} (v : CSlot) (s : State) (hK : Kept ρ s) : KeptOut ρ (execHalt v s) := by
  exact slotRun_kept _ (slotHalt_keeps _) s hK

@[simp] theorem execVadd_kept {ρ : State} (v : VSlot) (s : State) (hK : Kept ρ s) : KeptOut ρ (execVadd v s) := by
  exact slotRun_kept _ (slotVadd_keeps _) s hK

@[simp] theorem execVsub_kept {ρ : State} (v : VSlot) (s : State) (hK : Kept ρ s) : KeptOut ρ (execVsub v s) := by
  exact slotRun_kept _ (slotVsub_keeps _) s hK

@[simp] theorem execVmul_kept {ρ : State} (v : VSlot) (s : State) (hK : Kept ρ s) : KeptOut ρ (execVmul v s) := by
  exact slotRun_kept _ (slotVmul_keeps _) s hK

@[simp] theorem execVfma_kept {ρ : State} (v : VSlot) (s : State) (hK : Kept ρ s) : KeptOut ρ (execVfma v s) := by
  exact slotRun_kept _ (slotVfma_keeps _) s hK

@[simp] theorem execVmax_kept {ρ : State} (v : VSlot) (s : State) (hK : Kept ρ s) : KeptOut ρ (execVmax v s) := by
  exact slotRun_kept _ (slotVmax_keeps _) s hK

@[simp] theorem execVmin_kept {ρ : State} (v : VSlot) (s : State) (hK : Kept ρ s) : KeptOut ρ (execVmin v s) := by
  exact slotRun_kept _ (slotVmin_keeps _) s hK

@[simp] theorem execVcmp_kept {ρ : State} (v : VSlot) (s : State) (hK : Kept ρ s) : KeptOut ρ (execVcmp v s) := by
  exact slotRun_kept _ (slotVcmp_keeps _) s hK

@[simp] theorem execVsel_kept {ρ : State} (v : VSlot) (s : State) (hK : Kept ρ s) : KeptOut ρ (execVsel v s) := by
  exact slotRun_kept _ (slotVsel_keeps _) s hK

@[simp] theorem execViadd_kept {ρ : State} (v : VSlot) (s : State) (hK : Kept ρ s) : KeptOut ρ (execViadd v s) := by
  exact slotRun_kept _ (slotViadd_keeps _) s hK

@[simp] theorem execVisub_kept {ρ : State} (v : VSlot) (s : State) (hK : Kept ρ s) : KeptOut ρ (execVisub v s) := by
  exact slotRun_kept _ (slotVisub_keeps _) s hK

@[simp] theorem execVimul_kept {ρ : State} (v : VSlot) (s : State) (hK : Kept ρ s) : KeptOut ρ (execVimul v s) := by
  exact slotRun_kept _ (slotVimul_keeps _) s hK

@[simp] theorem execVand_kept {ρ : State} (v : VSlot) (s : State) (hK : Kept ρ s) : KeptOut ρ (execVand v s) := by
  exact slotRun_kept _ (slotVand_keeps _) s hK

@[simp] theorem execVor_kept {ρ : State} (v : VSlot) (s : State) (hK : Kept ρ s) : KeptOut ρ (execVor v s) := by
  exact slotRun_kept _ (slotVor_keeps _) s hK

@[simp] theorem execVxor_kept {ρ : State} (v : VSlot) (s : State) (hK : Kept ρ s) : KeptOut ρ (execVxor v s) := by
  exact slotRun_kept _ (slotVxor_keeps _) s hK

@[simp] theorem execVshl_kept {ρ : State} (v : VSlot) (s : State) (hK : Kept ρ s) : KeptOut ρ (execVshl v s) := by
  exact slotRun_kept _ (slotVshl_keeps _) s hK

@[simp] theorem execVshr_kept {ρ : State} (v : VSlot) (s : State) (hK : Kept ρ s) : KeptOut ρ (execVshr v s) := by
  exact slotRun_kept _ (slotVshr_keeps _) s hK

@[simp] theorem execVsar_kept {ρ : State} (v : VSlot) (s : State) (hK : Kept ρ s) : KeptOut ρ (execVsar v s) := by
  exact slotRun_kept _ (slotVsar_keeps _) s hK

@[simp] theorem execVicmp_kept {ρ : State} (v : VSlot) (s : State) (hK : Kept ρ s) : KeptOut ρ (execVicmp v s) := by
  exact slotRun_kept _ (slotVicmp_keeps _) s hK

@[simp] theorem execViota_kept {ρ : State} (v : VSlot) (s : State) (hK : Kept ρ s) : KeptOut ρ (execViota v s) := by
  exact slotRun_kept _ (slotViota_keeps _) s hK

@[simp] theorem execVbcast_kept {ρ : State} (v : VSlot) (s : State) (hK : Kept ρ s) : KeptOut ρ (execVbcast v s) := by
  exact slotRun_kept _ (slotVbcast_keeps _) s hK

@[simp] theorem execVcvt_kept {ρ : State} (v : VSlot) (s : State) (hK : Kept ρ s) : KeptOut ρ (execVcvt v s) := by
  exact slotRun_kept _ (slotVcvt_keeps _) s hK

@[simp] theorem execVld_kept {ρ : State} (v : VSlot) (s : State) (hK : Kept ρ s) : KeptOut ρ (execVld v s) := by
  exact slotRun_kept _ (slotVld_keeps _) s hK

@[simp] theorem execVst_kept {ρ : State} (v : VSlot) (s : State) (hK : Kept ρ s) : KeptOut ρ (execVst v s) := by
  exact slotRun_kept _ (slotVst_keeps _) s hK

@[simp] theorem execVext_kept {ρ : State} (v : VSlot) (s : State) (hK : Kept ρ s) : KeptOut ρ (execVext v s) := by
  exact slotRun_kept _ (slotVext_keeps _) s hK

@[simp] theorem execVins_kept {ρ : State} (v : VSlot) (s : State) (hK : Kept ρ s) : KeptOut ρ (execVins v s) := by
  exact slotRun_kept _ (slotVins_keeps _) s hK

@[simp] theorem execVexp_kept {ρ : State} (v : VSlot) (s : State) (hK : Kept ρ s) : KeptOut ρ (execVexp v s) := by
  exact slotRun_kept _ (slotVexp_keeps _) s hK

@[simp] theorem execVexp2_kept {ρ : State} (v : VSlot) (s : State) (hK : Kept ρ s) : KeptOut ρ (execVexp2 v s) := by
  exact slotRun_kept _ (slotVexp2_keeps _) s hK

@[simp] theorem execVlog_kept {ρ : State} (v : VSlot) (s : State) (hK : Kept ρ s) : KeptOut ρ (execVlog v s) := by
  exact slotRun_kept _ (slotVlog_keeps _) s hK

@[simp] theorem execVlog2_kept {ρ : State} (v : VSlot) (s : State) (hK : Kept ρ s) : KeptOut ρ (execVlog2 v s) := by
  exact slotRun_kept _ (slotVlog2_keeps _) s hK

@[simp] theorem execVrcp_kept {ρ : State} (v : VSlot) (s : State) (hK : Kept ρ s) : KeptOut ρ (execVrcp v s) := by
  exact slotRun_kept _ (slotVrcp_keeps _) s hK

@[simp] theorem execVrsq_kept {ρ : State} (v : VSlot) (s : State) (hK : Kept ρ s) : KeptOut ρ (execVrsq v s) := by
  exact slotRun_kept _ (slotVrsq_keeps _) s hK

@[simp] theorem execVsqrt_kept {ρ : State} (v : VSlot) (s : State) (hK : Kept ρ s) : KeptOut ρ (execVsqrt v s) := by
  exact slotRun_kept _ (slotVsqrt_keeps _) s hK

@[simp] theorem execVdiv_kept {ρ : State} (v : VSlot) (s : State) (hK : Kept ρ s) : KeptOut ρ (execVdiv v s) := by
  exact slotRun_kept _ (slotVdiv_keeps _) s hK

@[simp] theorem execVcos_kept {ρ : State} (v : VSlot) (s : State) (hK : Kept ρ s) : KeptOut ρ (execVcos v s) := by
  exact slotRun_kept _ (slotVcos_keeps _) s hK

@[simp] theorem execVsin_kept {ρ : State} (v : VSlot) (s : State) (hK : Kept ρ s) : KeptOut ρ (execVsin v s) := by
  exact slotRun_kept _ (slotVsin_keeps _) s hK

@[simp] theorem execVact_kept {ρ : State} (v : VSlot) (s : State) (hK : Kept ρ s) : KeptOut ρ (execVact v s) := by
  exact slotRun_kept _ (slotVact_keeps _) s hK

@[simp] theorem execVactD_kept {ρ : State} (v : VSlot) (s : State) (hK : Kept ρ s) : KeptOut ρ (execVactD v s) := by
  exact slotRun_kept _ (slotVactD_keeps _) s hK

@[simp] theorem execVactDi_kept {ρ : State} (v : VSlot) (s : State) (hK : Kept ρ s) : KeptOut ρ (execVactDi v s) := by
  exact slotRun_kept _ (slotVactDi_keeps _) s hK

@[simp] theorem execVred_kept {ρ : State} (v : VSlot) (s : State) (hK : Kept ρ s) : KeptOut ρ (execVred v s) := by
  exact slotRun_kept _ (slotVred_keeps _) s hK

@[simp] theorem execVrng_kept {ρ : State} (v : VSlot) (s : State) (hK : Kept ρ s) : KeptOut ρ (execVrng v s) := by
  exact slotRun_kept _ (slotVrng_keeps _) s hK

@[simp] theorem execVosmI_kept {ρ : State} (v : VSlot) (s : State) (hK : Kept ρ s) : KeptOut ρ (execVosmI v s) := by
  exact slotRun_kept _ (slotVosmI_keeps _) s hK

@[simp] theorem execVosmM_kept {ρ : State} (v : VSlot) (s : State) (hK : Kept ρ s) : KeptOut ρ (execVosmM v s) := by
  exact slotRun_kept _ (slotVosmM_keeps _) s hK

@[simp] theorem execVosmL_kept {ρ : State} (v : VSlot) (s : State) (hK : Kept ρ s) : KeptOut ρ (execVosmL v s) := by
  exact slotRun_kept _ (slotVosmL_keeps _) s hK

@[simp] theorem execVosmF_kept {ρ : State} (v : VSlot) (s : State) (hK : Kept ρ s) : KeptOut ρ (execVosmF v s) := by
  exact slotRun_kept _ (slotVosmF_keeps _) s hK

@[simp] theorem execVosmS_kept {ρ : State} (v : VSlot) (s : State) (hK : Kept ρ s) : KeptOut ρ (execVosmS v s) := by
  exact slotRun_kept _ (slotVosmS_keeps _) s hK

@[simp] theorem execWld_kept {ρ : State} (v : WSlot) (s : State) (hK : Kept ρ s) : KeptOut ρ (execWld v s) := by
  exact slotRun_kept _ (slotWld_keeps _) s hK

@[simp] theorem execWmm_kept {ρ : State} (v : WSlot) (s : State) (hK : Kept ρ s) : KeptOut ρ (execWmm v s) := by
  exact slotRun_kept _ (slotWmm_keeps _) s hK

@[simp] theorem execWck_kept {ρ : State} (v : WSlot) (s : State) (hK : Kept ρ s) : KeptOut ρ (execWck v s) := by
  exact slotRun_kept _ (slotWck_keeps _) s hK

@[simp] theorem execWfl_kept {ρ : State} (v : WSlot) (s : State) (hK : Kept ρ s) : KeptOut ρ (execWfl v s) := by
  exact slotRun_kept _ (slotWfl_keeps _) s hK

@[simp] theorem execMmm_kept {ρ : State} (v : MSlot) (s : State) (hK : Kept ρ s) : KeptOut ρ (execMmm v s) := by
  exact slotRun_kept _ (slotMmm_keeps _) s hK

@[simp] theorem execMdx_kept {ρ : State} (v : MSlot) (s : State) (hK : Kept ρ s) : KeptOut ρ (execMdx v s) := by
  exact slotRun_kept _ (slotMdx_keeps _) s hK

@[simp] theorem execMdw_kept {ρ : State} (v : MSlot) (s : State) (hK : Kept ρ s) : KeptOut ρ (execMdw v s) := by
  exact slotRun_kept _ (slotMdw_keeps _) s hK

@[simp] theorem execMfl_kept {ρ : State} (v : MSlot) (s : State) (hK : Kept ρ s) : KeptOut ρ (execMfl v s) := by
  exact slotRun_kept _ (slotMfl_keeps _) s hK

@[simp] theorem execMvw_kept {ρ : State} (v : MSlot) (s : State) (hK : Kept ρ s) : KeptOut ρ (execMvw v s) := by
  exact slotRun_kept _ (slotMvw_keeps _) s hK

@[simp] theorem execTqz_kept {ρ : State} (v : TSlot) (s : State) (hK : Kept ρ s) : KeptOut ρ (execTqz v s) := by
  exact slotRun_kept _ (slotTqz_keeps _) s hK

@[simp] theorem execTdq_kept {ρ : State} (v : TSlot) (s : State) (hK : Kept ρ s) : KeptOut ρ (execTdq v s) := by
  exact slotRun_kept _ (slotTdq_keeps _) s hK

@[simp] theorem execTrot_kept {ρ : State} (v : TSlot) (s : State) (hK : Kept ρ s) : KeptOut ρ (execTrot v s) := by
  exact slotRun_kept _ (slotTrot_keeps _) s hK

@[simp] theorem execTcv_kept {ρ : State} (v : TSlot) (s : State) (hK : Kept ρ s) : KeptOut ρ (execTcv v s) := by
  exact slotRun_kept _ (slotTcv_keeps _) s hK

@[simp] theorem execTstatAmax_kept {ρ : State} (v : TSlot) (s : State) (hK : Kept ρ s) : KeptOut ρ (execTstatAmax v s) := by
  exact slotRun_kept _ (slotTstatAmax_keeps _) s hK

@[simp] theorem execTstatChk_kept {ρ : State} (v : TSlot) (s : State) (hK : Kept ρ s) : KeptOut ρ (execTstatChk v s) := by
  exact slotRun_kept _ (slotTstatChk_keeps _) s hK

@[simp] theorem execTstatFin_kept {ρ : State} (v : TSlot) (s : State) (hK : Kept ρ s) : KeptOut ρ (execTstatFin v s) := by
  exact slotRun_kept _ (slotTstatFin_keeps _) s hK

@[simp] theorem execDld_kept {ρ : State} (v : DSlot) (s : State) (hK : Kept ρ s) : KeptOut ρ (execDld v s) := by
  exact slotRun_kept _ (slotDld_keeps _) s hK

@[simp] theorem execDpf_kept {ρ : State} (v : DSlot) (s : State) (hK : Kept ρ s) : KeptOut ρ (execDpf v s) := by
  exact slotRun_kept _ (slotDpf_keeps _) s hK

@[simp] theorem execDldWait_kept {ρ : State} (v : DSlot) (s : State) (hK : Kept ρ s) : KeptOut ρ (execDldWait v s) := by
  exact slotRun_kept _ (slotDldWait_keeps _) s hK

@[simp] theorem execDst_kept {ρ : State} (v : DSlot) (s : State) (hK : Kept ρ s) : KeptOut ρ (execDst v s) := by
  exact slotRun_kept _ (slotDst_keeps _) s hK

@[simp] theorem execDcp_kept {ρ : State} (v : DSlot) (s : State) (hK : Kept ρ s) : KeptOut ρ (execDcp v s) := by
  exact slotRun_kept _ (slotDcp_keeps _) s hK

@[simp] theorem execDstCollector_kept {ρ : State} (v : DSlot) (s : State) (hK : Kept ρ s) : KeptOut ρ (execDstCollector v s) := by
  exact slotRun_kept _ (slotDstCollector_keeps _) s hK

@[simp] theorem execDstWalkRequest_kept {ρ : State} (v : DSlot) (s : State) (hK : Kept ρ s) : KeptOut ρ (execDstWalkRequest v s) := by
  exact slotRun_kept _ (slotDstWalkRequest_keeps _) s hK

@[simp] theorem execDstRelease_kept {ρ : State} (v : DSlot) (s : State) (hK : Kept ρ s) : KeptOut ρ (execDstRelease v s) := by
  exact slotRun_kept _ (slotDstRelease_keeps _) s hK

@[simp] theorem execDstEdit_kept {ρ : State} (v : DSlot) (s : State) (hK : Kept ρ s) : KeptOut ρ (execDstEdit v s) := by
  exact slotRun_kept _ (slotDstEdit_keeps _) s hK

@[simp] theorem execLat_kept {ρ : State} (v : LSlot) (s : State) (hK : Kept ρ s) : KeptOut ρ (execLat v s) := by
  exact slotRun_kept _ (slotLat_keeps _) s hK

@[simp] theorem execLwait_kept {ρ : State} (v : LSlot) (s : State) (hK : Kept ρ s) : KeptOut ρ (execLwait v s) := by
  exact slotRun_kept _ (slotLwait_keeps _) s hK

@[simp] theorem execLsend_kept {ρ : State} (v : LSlot) (s : State) (hK : Kept ρ s) : KeptOut ρ (execLsend v s) := by
  exact slotRun_kept _ (slotLsend_keeps _) s hK

@[simp] theorem execLrecv_kept {ρ : State} (v : LSlot) (s : State) (hK : Kept ρ s) : KeptOut ρ (execLrecv v s) := by
  exact slotRun_kept _ (slotLrecv_keeps _) s hK

@[simp] theorem execLcoll_kept {ρ : State} (v : LSlot) (s : State) (hK : Kept ρ s) : KeptOut ρ (execLcoll v s) := by
  exact slotRun_kept _ (slotLcoll_keeps _) s hK

@[simp] theorem execLfence_kept {ρ : State} (v : LSlot) (s : State) (hK : Kept ρ s) : KeptOut ρ (execLfence v s) := by
  exact slotRun_kept _ (slotLfence_keeps _) s hK

theorem badSlot_keeps (k : CoreId) (n : Nat) (w : BitVec 128) : (badSlot k n w).Keeps := fun _ _ _ _ h => h

theorem slotAt_keeps (k : CoreId) (w : BitVec 1024) (n : Nat) (q : Slot) (h : slotAt k w n = some q) : q.Keeps := by
  unfold slotAt at h
  dsimp only at h
  split at h
  · cases h
  · split at h
    · next e =>
      obtain ⟨c, _, hc⟩ := Option.bind_eq_some_iff.mp e
      injection h with h
      subst h
      exact slotOf_keeps c _ hc
    · injection h with h
      subst h
      exact badSlot_keeps _ _ _

@[simp] theorem issueAt_kept {ρ : State} (k : CoreId) (s : State) (hK : Kept ρ s) : Kept ρ (issueAt k s) := by
  unfold issueAt
  dsimp only
  split
  · exact hK
  · split
    · exact hK
    · refine runWord_kept _ _ _ (fun q hq => ?_) s hK
      obtain ⟨i, _, hi⟩ := List.mem_filterMap.mp hq
      exact slotAt_keeps _ _ i q hi

end Sys2Proof.Machine
end

