-- ==== Sys2Proof/Laws/Kept/Upset.lean ====
section
/-! SUPPORT. What the operations of Machine/Upset.lean keep (`Kept`). -/

namespace Sys2Proof.Machine

set_option linter.unusedSimpArgs false

@[simp] theorem State.poisonMade_kept {ρ : State} (s : State) (n source addr : Nat) (hK : Kept ρ s) : Kept ρ (State.poisonMade s n source addr) := by
  unfold State.poisonMade
  simp (maxDischargeDepth := 20) +contextual [hK, hK.mem, hK.host, Kept.foldl]

@[simp] theorem State.coreUpset_kept {ρ : State} (s : State) (n : Nat) (h : Happening) (hK : Kept ρ s) : Kept ρ (s.coreUpset n h) := by
  cases h <;> simp (maxDischargeDepth := 20) [State.coreUpset, hK]

@[simp] theorem State.happen_kept {ρ : State} (s : State) (h : Happening) (hK : Kept ρ s) : Kept ρ (s.happen h) := by
  cases h <;> simp (maxDischargeDepth := 20) [State.happen, hK, hK.mem]

end Sys2Proof.Machine
end

