-- ==== Sys2Proof/Laws/Kept/Tick.lean ====
section
/-! SUPPORT. What the operations of Machine/Tick.lean keep (`Kept`). -/

namespace Sys2Proof.Machine

set_option linter.unusedSimpArgs false

@[simp] theorem State.advance_kept {ρ : State} (s : State) (hK : Kept ρ s) : Kept ρ (State.advance s) := by
  unfold State.advance
  simp (maxDischargeDepth := 20) +contextual [hK, hK.mem, hK.host, Kept.foldl]

@[simp] theorem tick_kept {ρ : State} (s : State) (hK : Kept ρ s) : Kept ρ (tick s) := by
  unfold tick
  (repeat' split) <;> simp (maxDischargeDepth := 20) [hK, hK.mem, hK.host]

end Sys2Proof.Machine
end

