-- ==== Sys2Proof/Laws/Units.lean ====
section
/-! SUPPORT. What waking a unit on demand does: the unit of the core is awake afterwards, two counters may advance, and nothing else
changes; it does not matter whether the core's wait is cleared before or after. -/

namespace Sys2Proof.Machine

/-- A core with one of its units awake. -/
def Core.wake (c : Core) (u : Nat) : Core := { c with awake := AMap.put false u true c.awake }

/-- What a demand does to a core's unit: nothing to one that is awake, else it wakes and the wake is counted. -/
theorem State.demandUnit_core_eq (s : State) (n u : Nat) :
    s.demandUnit (.core n u) =
      if AMap.get false u (s.core n).awake then s
      else
        let s1 := (s.setCore n ((s.core n).wake u)).wakeCount
        if (s.unitWindows (.core n u)).any (fun w => decide (w.1 ≤ s.tim.now.toNat ∧ s.tim.now.toNat < w.2)) then s1
        else s1.bump .timCnt 0 2 1 := by
  unfold State.demandUnit
  cases h : AMap.get false u (s.core n).awake
  · have h' : s.sleeping (.core n u) = true := by simp [State.sleeping, h]
    simp only [h', State.wakeUnit]
    rfl
  · have h' : s.sleeping (.core n u) = false := by simp [State.sleeping, h]
    simp [h']

/-- The core after a demand of one of its units. -/
theorem State.core_demandUnit (s : State) (n u : Nat) :
    (s.demandUnit (.core n u)).core n = if AMap.get false u (s.core n).awake then s.core n else (s.core n).wake u := by
  rw [State.demandUnit_core_eq]
  split
  · rfl
  · dsimp only
    split <;> simp [State.wakeCount, State.bump]

@[simp] theorem State.pred_demandUnit (s : State) (n u r : Nat) : ((s.demandUnit (.core n u)).core n).preg r = (s.core n).preg r := by
  rw [State.core_demandUnit]; split <;> rfl
@[simp] theorem State.sreg_demandUnit (s : State) (n u r : Nat) : ((s.demandUnit (.core n u)).core n).sreg r = (s.core n).sreg r := by
  rw [State.core_demandUnit]; split <;> rfl
@[simp] theorem State.vreg_demandUnit (s : State) (n u r : Nat) : ((s.demandUnit (.core n u)).core n).vreg r = (s.core n).vreg r := by
  rw [State.core_demandUnit]; split <;> rfl
@[simp] theorem State.lane_demandUnit (s : State) (n u r l : Nat) : ((s.demandUnit (.core n u)).core n).lane r l = (s.core n).lane r l := by
  rw [State.core_demandUnit]; split <;> rfl
@[simp] theorem State.treg_demandUnit (s : State) (n u r : Nat) : ((s.demandUnit (.core n u)).core n).treg r = (s.core n).treg r := by
  rw [State.core_demandUnit]; split <;> rfl
@[simp] theorem State.active_demandUnit (s : State) (n u l : Nat) (i : Issue) :
    ((s.demandUnit (.core n u)).core n).active i l = (s.core n).active i l := by
  rw [State.core_demandUnit]; split <;> rfl
@[simp] theorem State.loc_demandUnit (s : State) (n u : Nat) : ((s.demandUnit (.core n u)).core n).loc = (s.core n).loc := by
  rw [State.core_demandUnit]; split <;> rfl
@[simp] theorem State.stats_demandUnit (s : State) (n u : Nat) : ((s.demandUnit (.core n u)).core n).stats = (s.core n).stats := by
  rw [State.core_demandUnit]; split <;> rfl

theorem State.frame_demandUnit (s : State) (n u : Nat) :
    (s.demandUnit (.core n u)).ctxs = s.ctxs ∧ (s.demandUnit (.core n u)).mem = s.mem ∧ (s.demandUnit (.core n u)).host = s.host ∧
      (s.demandUnit (.core n u)).tim = s.tim ∧ (s.demandUnit (.core n u)).parts = s.parts := by
  rw [State.demandUnit_core_eq]
  split
  · simp
  · dsimp only
    split <;> simp [State.wakeCount, State.setCore, State.setPwr, State.bump, State.setReg]

@[simp] theorem State.ctx_demandUnit (s : State) (n u x : Nat) : (s.demandUnit (.core n u)).ctx x = s.ctx x := by
  unfold State.ctx; rw [(s.frame_demandUnit n u).1]

/-- A demand after the wait is cleared, with the core then replaced. -/
theorem State.demandUnit_woken (s : State) (n u : Nat) (c : Core) :
    ((s.woken n).demandUnit (.core n u)).setCore n c = (s.demandUnit (.core n u)).setCore n c := by
  have e2 : (s.woken n).unitWindows (.core n u) = s.unitWindows (.core n u) := rfl
  have e3 : (s.woken n).tim = s.tim := rfl
  rw [State.demandUnit_core_eq, State.demandUnit_core_eq, e2, e3, State.woken_core]
  dsimp only
  split
  · simp [State.woken]
  · split <;> simp [State.woken, State.setCore, State.wakeCount, State.setPwr, State.bump, State.setReg, State.reg, AMap.put_put]

/-- The core after a demand with the wait cleared. -/
theorem State.core_demandUnit_woken (s : State) (n u : Nat) :
    ((s.woken n).demandUnit (.core n u)).core n = { (s.demandUnit (.core n u)).core n with wait := .none } := by
  rw [State.core_demandUnit, State.core_demandUnit, State.woken_core]
  dsimp only
  split <;> rfl

end Sys2Proof.Machine
end

