-- ==== Sys2Proof/Tests/Slice0.lean ====
section
/-! SUPPORT. Tests of the definitions on small states, and for every statement the states and operands that meet its hypotheses, clause by
clause. -/

namespace Sys2Proof.Tests

set_option Elab.async false

open Sys2Proof Sys2Proof.Machine Sys2Proof.Claim

/-! ## Small states -/

/-- Physical core 0 of partition 0. -/
def k0 : CoreId := ⟨0, 0⟩
/-- The header of its slot, the only one of its wide instruction, with no field set. -/
def h0 : Issue := hdr k0 0 false
/-- The state after a command that answers one. -/
def after (o : Host.Outcome State Fault Refusal) : State := match o with
  | .next t => t
  | _ => {}

/-- A tile descriptor from its fields (R277). -/
def desc (addr : Nat) (space lake : Bool) (fmt : Nat) (trv : Bool) (trec rows cols stride : Nat) : BitVec 256 :=
  BitVec.ofNat 256 (addr + bit space * 2 ^ 48 + bit lake * 2 ^ 49 + fmt * 2 ^ 50 + bit trv * 2 ^ 62 + trec * 2 ^ 104 + (rows - 1) * 2 ^ 136 +
    (cols - 1) * 2 ^ 156 + stride * 2 ^ 216)

/-- A core at the last word of instruction memory: s1 = 5, s2 = −16, s3 = 128, s4 = 0x3FFFE0, s5 = 2,000, s6 = 0 poisoned, s7 = 0, p1 with
every other lane, p2 poisoned. -/
def c0 : Core :=
  { pc := 4095
    s := [(1, (5, false)), (2, (0xFFFFFFFFFFFFFFF0, false)), (3, (128, false)), (4, (0x3FFFE0, false)), (5, (2000, false)), (6, (0, true))]
    p := [(1, (0x5555555555555555, false)), (2, (1, true))]
    v := [(1, (List.range 64).map (fun l => (BitVec.ofNat 32 (l * 0x1000000), false)))] }
/-- A context that runs on partition 0, at step 7. -/
def x0 : Ctx := { st := .running, parts := 1, stepno := 7 }
def s0 : State := { ctxs := [(0, x0)], cores := [(0, c0)] }
/-- The same core in an epoch of layer 3, micro-batch 2. -/
def e0 : Epoch := { tag := 2, run := { layer := 3, mb := 2 }, restart := 9 }
def cE : Core := { c0 with epochs := [e0], cur := some 2, nextTag := 3 }
def sE : State := { s0 with cores := [(0, cE)] }
/-- The device READY at STAGE 3, with every lock open that the tests need and the device out of power-on reset. -/
def up (s : State) : State :=
  ({ s with mgmt := { s.mgmt with powerOn := false, vcoreOn := true } } : State).setReg .hifStatus 0 0 7

/-! ## C slots -/

theorem witness_ScalarPredicateAndBranchSlots :
    runs s0 k0 0 = true ∧ predIs s0 h0 true = true ∧ predIs s0 (hdr k0 1 true) false = true ∧
    (sr s0 k0 1).2 = false ∧ (sr s0 k0 2).2 = false ∧
    (∀ h imm z x y u v, (scalarRows h 63 1 2 imm x y).length = 19 ∧ (predicateRows h 15 1 2 1 2 imm z x y u v).length = 11) ∧
    (∀ h t w x y, (branchRows h 63 1 t w x y).length = 4) :=
  ⟨by decide, by decide, by decide, by decide, by decide, fun _ _ _ _ _ _ _ => ⟨rfl, rfl⟩, fun _ _ _ _ _ => rfl⟩

/-- SAR keeps the sign, and a shift by 64 + 5 is a shift by 5 (R280). -/
theorem test_sar : ((after (exec (.sar { i := h0, rd := 8, ra := 2, rb := 1 }) s0)).core 0).sreg 8 = (0xFFFFFFFFFFFFFFFF, false) := by decide
/-- The PC wraps after word 4,095 (R281). -/
theorem test_pc_wraps : ((after (exec (.add { i := h0, rd := 8, ra := 1, rb := 1 }) s0)).core 0).pc = 0 := by decide
/-- A register that the same slot reads and writes is read before it is written (R244). -/
theorem test_add_same : ((after (exec (.add { i := h0, rd := 1, ra := 1, rb := 1 }) s0)).core 0).sreg 1 = (10, false) := by decide
/-- MULHU of −16 and 128 as unsigned numbers: ⌊(2⁶⁴ − 16) × 128 / 2⁶⁴⌋ = 127. -/
theorem test_mulhu : ((after (exec (.mulhu { i := h0, rd := 8, ra := 2, rb := 3 }) s0)).core 0).sreg 8 = (127, false) := by decide
/-- MIN is signed: −16 < 5. -/
theorem test_min : ((after (exec (.min { i := h0, rd := 8, ra := 2, rb := 1 }) s0)).core 0).sreg 8 = (0xFFFFFFFFFFFFFFF0, false) := by decide
/-- CMP.LTU is unsigned and CMP.LT signed. -/
theorem test_cmp : ((after (exec (.cmpLtu { i := h0, pd := 3, ra := 2, rb := 1 }) s0)).core 0).preg 3 = (0, false) ∧
    ((after (exec (.cmpLt { i := h0, pd := 3, ra := 2, rb := 1 }) s0)).core 0).preg 3 = (0xFFFFFFFFFFFFFFFF, false) := by decide
/-- LOOP to 0 goes on with the next word; CALL saves the next word's address, 0 after 4,095. -/
theorem test_loop_call : ((after (exec (.loop { i := h0, rd := 9, tgt := 7 }) (s0.setCore 0 { c0 with s := [(9, (1, false))] }))).core 0).pc = 0 ∧
    ((after (exec (.call { i := h0, rd := 9, tgt := 7 }) s0)).core 0).pc = 7 ∧ ((after (exec (.call { i := h0, rd := 9, tgt := 7 }) s0)).core 0).sreg 9 = (0, false) := by
  decide

theorem witness_DescriptorAndLocalStoreSlots_DescriptorSlotsMoveTheirFields :
    runs s0 k0 0 = true ∧ ((31 : Fin 64).val < 32) ∧ predIs s0 h0 true = true := by decide

theorem witness_ControlRegisterSlots :
    (runs s0 k0 0 = true ∧ predIs s0 h0 true = true ∧ s0.lcore k0.key = some 0 ∧ (s0.core 0).cur = none ∧ (controlRows s0 k0 0 0).length = 6) ∧
    (runs sE k0 0 = true ∧ predIs sE h0 true = true ∧ sE.lcore k0.key = some 0 ∧ (sE.core 0).cur = some 2 ∧ (sE.core 0).epochs = e0 :: []) ∧
    ((0xFFFF : W64).toNat < 2 ^ 16 ∧ s0.ctxRange 0 (s0.recAddr k0.key 0xFFFF) 64 = true ∧ s0.devPo (s0.recAddr k0.key 0xFFFF) 64 = false) :=
  ⟨by decide, by decide, by decide⟩

/-- In an epoch with tag 2 EPOCH reads the tag and the bit of an open epoch (R280, R247). -/
theorem test_crd_epoch : ((after (exec (.crd { i := h0, rd := 8, imm := 5 }) sE)).core 0).sreg 8 = (6, false) := by decide

theorem witness_DescriptorAndLocalStoreSlots_LocalStoreSlotsMoveTheirBytes :
    (runs s0 k0 0 = true ∧ predIs s0 h0 true = true ∧ localAt s0 k0 4 0 32 0x3FFFE0 = true ∧ localAt s0 k0 4 24 8 0x3FFFF8 = true ∧
      localAt s0 k0 7 0 32 0 = true ∧ ((31 : Fin 64).val < 32) ∧ (s0.core k0.key).epochs = []) ∧
    (runs sE k0 0 = true ∧ predIs sE h0 true = true ∧ localAt sE k0 4 24 8 0x3FFFF8 = true ∧ (sE.core k0.key).cur = some 2 ∧
      (∃ e, e ∈ (sE.core k0.key).epochs ∧ e.tag = 2)) :=
  ⟨by decide, by decide, by decide, by decide, by decide, ⟨e0, by decide, rfl⟩⟩

/-- STS stores the lowest byte first, at the last eight bytes of the operand store. -/
theorem test_sts : let m := ((after (exec (.sts { i := h0, rd := 2, ra := 4, imm := 24 }) s0)).core 0).loc
    m.byte 0x3FFFF8 = 0xF0 ∧ m.byte 0x3FFFFF = 0xFF ∧ m.byte 0x3FFFF7 = 0 := by decide

theorem witness_EpochAndProgramEndSlots :
    (runs s0 k0 0 = true ∧ predIs s0 h0 true = true ∧ ((0xFFFFFF : W64).toNat < 2 ^ 24) ∧
      (s0.core k0.key).epochs.length < 3 ∧ (s0.ctx 0).save = none ∧ (s0.core k0.key).cur = none ∧ (s0.core k0.key).epochs = [] ∧
      (s0.core k0.key).rel = []) ∧
    (∃ n, n ∈ s0.ctxCores 0 ∧ n ≠ k0.key ∧ (s0.core n).halted = false) ∧
    (let t : State := { s0 with cores := (List.range 96).map (fun i => (i, { c0 with halted := decide (i ≠ 0) })) }
     runs t k0 0 = true ∧ predIs t h0 true = true ∧ (t.core k0.key).cur = none ∧ ∀ n, n ∈ t.ctxCores 0 → n ≠ k0.key → (t.core n).halted = true) ∧
    (runs sE k0 0 = true ∧ predIs sE h0 true = true) :=
  ⟨by decide, ⟨95, by decide⟩, by decide +kernel, by decide⟩

/-- The next epoch skips the tag that is open (R254). -/
theorem test_cspec_tag : ((after (exec (.cspec { i := h0, tgt := 9, imm := 0x20003 }) (sE.setCore 0 { cE with nextTag := 2 }))).core 0).cur = some 3 := by
  decide

/-! ## V slots -/

theorem witness_VectorSlotsComputeCompareAndMove :
    runs s0 k0 0 = true ∧ predClean s0 (hdr k0 1 true) = true ∧ ((3 : Fin 8).val < 4) ∧ ((4 : Byte).toNat < 5) ∧
    (∀ k p n r f s, (vectorRows k p n r f s 63 1 2 3).length = 15) ∧ (∀ h, (compareRows h 15 1 2 4).length = 2) :=
  ⟨by decide, by decide, by decide, by decide, fun _ _ _ _ _ _ => rfl, fun _ => rfl⟩

/-- VIADD saturates at 2³¹ − 1 with SAT clear and wraps with SAT set (R283); an inactive lane keeps its value (R276). -/
theorem test_viadd :
    let r := fun (sat : Bool) => (after (exec (.viadd { i := hdrR k0 1 false 0 sat false false false, vd := 8, va := 1, vb := 1 })
      (s0.setCore 0 { c0 with v := [(1, List.replicate 64 (0x7FFFFFFF, false)), (8, List.replicate 64 (7, false))] }))).core 0
    (r false).lane 8 0 = (0x7FFFFFFF, false) ∧ (r true).lane 8 0 = (0xFFFFFFFE, false) ∧ (r true).lane 8 1 = (7, false) := by decide +kernel

/-- 1.5 + 2.5 = 4, and 2²⁴ + 1 rounds to even under RNE and up under RU (R46). -/
theorem test_vadd :
    let s := s0.setCore 0 { c0 with v := [(1, (0x3FC00000, false) :: (0x4B800000, false) :: List.replicate 62 (0, false)),
                                          (2, (0x40200000, false) :: (0x3F800000, false) :: List.replicate 62 (0, false))] }
    let r := fun (m : Fin 8) => (after (exec (.vadd { i := hdrR k0 0 false m false false false false, vd := 8, va := 1, vb := 2 }) s)).core 0
    (r 0).lane 8 0 = (0x40800000, false) ∧ (r 0).lane 8 1 = (0x4B800000, false) := by decide +kernel

theorem witness_VectorMemoryAndConversion :
    (runs s0 k0 0 = true ∧ predClean s0 (hdr k0 1 true) = true ∧ ((4 : Fin 8).val ≤ 4) ∧ (s0.core k0.key).epochs = []) ∧
    laneAddrOk s0 k0 0 0 0 3 = true ∧ laneAddrOk s0 k0 0 3 0xFF80 3 = true ∧ laneAddrOk s0 k0 1 0 0xFFFF 7 = true ∧ laneAddrOk s0 k0 2 2 15 7 = true ∧
    laneAddrOk (s0.setCore 0 { c0 with s := [(3, (0x3FFF00, false))] }) k0 0 0 0 3 = true ∧ ((6 : Fin 16).val < 7) ∧
    (runs sE k0 0 = true ∧ predClean sE (hdr k0 1 true) = true ∧ laneAddrOk sE k0 0 1 0 3 = true ∧ (sE.core k0.key).cur = some 2) ∧
    (∃ e, e ∈ (sE.core k0.key).epochs ∧ e.tag = 2) :=
  ⟨by decide, by decide +kernel, by decide +kernel, by decide +kernel, by decide +kernel, by decide +kernel, by decide, by decide +kernel, ⟨e0, by decide, rfl⟩⟩

theorem witness_FunctionPipeStaysWithinItsBound :
    runs s0 k0 0 = true ∧ predClean s0 (hdr k0 1 true) = true ∧ ((3 : Fin 8).val < 4) ∧ (∀ h, (functionRows h 63 1).length = 8) :=
  ⟨by decide, by decide, by decide, fun _ => rfl⟩

/-- VRCP of 2 is 0.5 and of 0 an infinity; VSQRT of 4 is 2 (R175). -/
theorem test_functions :
    let s := s0.setCore 0 { c0 with v := [(1, (0x40000000, false) :: (0, false) :: (0x40800000, false) :: List.replicate 61 (0x3F800000, false))] }
    let r := (after (exec (.vrcp { i := hdrR k0 0 false 0 false false true false, vd := 8, va := 1 }) s)).core 0
    let q := (after (exec (.vsqrt { i := hdrR k0 0 false 0 false false true false, vd := 8, va := 1 }) s)).core 0
    r.lane 8 0 = (0x3F000000, false) ∧ r.lane 8 1 = (0x7F800000, false) ∧ q.lane 8 2 = (0x40000000, false) := by decide +kernel

theorem witness_ActivationSlots :
    runs s0 k0 0 = true ∧ predClean s0 (hdr k0 1 true) = true ∧ ((3 : Fin 8).val < 4) ∧
    ((8 : Byte).toNat ≤ 8) ∧ (0x10 ≤ (0x12 : Byte).toNat ∧ (0x12 : Byte).toNat ≤ 0x12) := by decide

theorem witness_ReductionAndRandomSlots :
    runs s0 k0 0 = true ∧ predClean s0 (hdr k0 1 true) = true ∧ ((3 : Fin 8).val < 4) ∧ ((2 : Byte).toNat ≤ 2) ∧
    (32 + ((sr s0 k0 5).1.toNat + 63) / 64 ≤ 64) ∧ ((5 : Byte).toNat ≤ 5) ∧ ((3 : Fin 4).val % 2 = 1 → (62 : Fin 64).val % 2 = 0) ∧
    ((sr s0 k0 4).1.toNat / 2 ^ 32 ≠ 0xFFFFFFFF) := by decide

/-- VRED of the maximum over the five lanes 0 to 4 of which lanes 0, 2 and 4 are active. -/
theorem test_vred : ((after (exec (.vred { i := hdr k0 1 false, vd := 8, va := 1, sa := 1, fn := 1 }) s0)).core 0).lane 8 63 = (0x04000000, false) := by
  decide +kernel

theorem witness_StatisticsSlots :
    let s := s0.setCore 0 { c0 with s := [(8, (1984, false))] }
    runs s k0 0 = true ∧ predClean s (hdr k0 1 true) = true ∧ sr s k0 8 = (BitVec.ofNat 64 1984, false) ∧ 1984 % 64 = 0 ∧ 1984 < 2048 ∧
    ((62 : Fin 64).val < 63) := by decide

/-- VOSM.I then VOSM.M on a first value: the maximum is the value and the rescale factor 0. -/
theorem test_vosm : let s := after (exec (.vosmI { i := h0, sa := 7 }) s0)
    ((after (exec (.vosmM { i := h0, vd := 8, va := 1, sa := 7 }) s)).core 0).lane 8 63 = (0x3F000000, false) ∧
    ((after (exec (.vosmM { i := h0, vd := 8, va := 1, sa := 7 }) s)).core 0).lane 9 63 = (0, false) := by decide +kernel

/-! ## W, M and T slots -/

/-- A core with small tiles: t1 to t3 FP32 of 32 × 32 in the operand store, t4 and t5 lakes of E4M3 and INT8, t6 FP32 in device memory, t7 a
plain tile that names record 3, t8 lakes of it. -/
def cT : Core :=
  { c0 with
    t := [(1, (desc 0x1000 false false 0 false 0 32 32 64, false)), (2, (desc 0x2000 false false 0 false 0 32 32 64, false)),
          (3, (desc 0x3000 false false 0 false 0 32 32 64, false)), (4, (desc 0x4000 false true 4 true 3 32 96 2, false)),
          (5, (desc 0x8000 false true 6 true 3 32 96 2, false)), (6, (desc 0x10000 true false 0 false 0 32 32 64, false)),
          (7, (desc 0x9000 false false 0 true 3 32 96 256, false)), (8, (desc 0xF000 false true 4 true 3 32 96 2, false))]
    s := c0.s ++ [(8, (0, false)), (9, (32, false)), (10, (96, false)), (11, (300, false)), (12, (511, false))] }
def sT : State := { s0 with cores := [(0, cT)] }
/-- A product of A = t1 and B = t2 into bank set 1 of array 1. -/
def m0 : MSlot := { i := h0, arr := 1, ta := 1, tb := 2, start := true, sk0 := 8, sklen := 9, bank := 1 }

theorem witness_WoadProductFillsItsBankSet :
    let w : WSlot := { i := h0, td := 5, start := true, shape := 0, bank := 1, g := 1 }
    let c := { cT with bindings := [(0, { primed := true, td := (cT.treg 4).1, k0 := 0, klen := 96 })] }
    let s := sT.setCore 0 c
    runs s k0 0 = true ∧ predIs s h0 true = true ∧ (s.ctx 0).refmode = false ∧ (tr s k0 4).2 = false ∧
    (tdOf (tr s k0 4).1).lakeOk = none ∧ (tdOf (tr s k0 4).1).space = false ∧ [4, 6, 8, 9, 10, 11].contains (tdOf (tr s k0 4).1).fmt = true ∧
    (sr s k0 8).2 = false ∧ (sr s k0 10).2 = false ∧ wmmChk c w { primed := true, td := (cT.treg 4).1, k0 := 0, klen := 96 } (td s k0 5) = none ∧
    (w.start && s.savePauses 0) = false ∧ s.runsOk 0 false ((td s k0 5).lakeSpans 32 96 ++ (td s k0 4).lakeSpans 32 96) = true ∧ cfRoom s k0 = true := by
  decide +kernel

theorem witness_WoadCheckAndFlush :
    let b : BankSet := { arr := 0, shape := 0, fp16 := false, bank := 1 }
    let s := sT.setCore 0 { cT with woaSets := [b] }
    let e := s.setCore 0 { cT with woaSets := [b], epochs := [e0], cur := some 2 }
    (runs s k0 0 = true ∧ predIs s h0 true = true ∧ (s.ctx 0).refmode = false ∧
      (s.core k0.key).woaSets.find? (fun z => z.is 0 0 false 1) = some b ∧ 1 % shapeBanks 0 = 0 ∧ (s.core k0.key).curRun = none) ∧
    (runs e k0 0 = true ∧ (e.core k0.key).curRun = some e0.run ∧ (e.core k0.key).digests.length < 256 ∧ freeBuf (e.core k0.key).samples = some 0 ∧
      freeBuf ((List.range 4).map (fun i => { buf := i, tag := none, elems := [] })) = none) ∧
    ((td s k0 3).fmt = 0 ∧ (tr s k0 3).2 = false ∧ flushDest (td s k0 3) 0 = none ∧
      s.runsOk 0 false ((td s k0 3).spans 32 32) = true ∧ cfRoom s k0 = true) := by
  decide +kernel

/-- With a record of the layer named whose SAMPLE_N code is 0, one of the first 16 tiles of the layer is selected, and no tile outside the layer (R140). -/
theorem test_sampled :
    let s := ({ sT with mem := { bytes := [(64, 3)] } } : State).setCtx 0 { x0 with layers := [1] }
    ((List.range 16).filter (fun n => s.sampleSelects 0 0 e0.run (n, true))).length = 1 ∧
    (List.range 16).all (fun n => !s.sampleSelects 0 0 e0.run (n, false)) = true := by decide +kernel

theorem witness_MadderProductAccumulates :
    (runs sT k0 0 = true ∧ m0.i = hdr k0 m0.i.pred m0.i.pneg ∧ predIs sT m0.i true = true ∧
      m0.vt = false ∧ 32 ≤ chainLimit m0.afmt ∧ mProdOk m0 true false = true ∧ mProdOk m0 false true = true ∧ mProdOk m0 false false = true) ∧
    productRuns sT k0 0 .mmm m0 32 = true ∧ productRuns sT k0 0 .mdx m0 32 = true ∧ productRuns sT k0 0 .mdw m0 32 = true ∧
    (∀ m, (productRows m).length = 3) :=
  ⟨by decide +kernel, by decide +kernel, by decide +kernel, by decide +kernel, fun _ => rfl⟩

theorem witness_MadderSegmentsAndVatTarget :
    let big := (desc 0x100000 false false 0 false 0 300 300 640)
    let c := { cT with t := [(1, (big, false)), (2, (big, false)), (3, (desc 0x40000 false false 0 false 0 32 32 64, false))] }
    let s := sT.setCore 0 c
    let m := { m0 with afmt := true, sklen := 11, pa := true, tc := 3 }
    let v := { m0 with vt := true, sx := 12, start := true, tc := 6 }
    (runs s k0 0 = true ∧ mProdOk m true false = true ∧ productRuns s k0 0 .mmm m 300 = true ∧ chainLimit m.afmt < 300 ∧
      (tdOf (tr s k0 m.tc.val).1).addr + (300 + chainLimit m.afmt - 1) / chainLimit m.afmt * (4096 * shapeBanks 0) ≤ 0x400000) ∧
    (runs sT k0 0 = true ∧ mProdOk v false true = true ∧ productRuns sT k0 0 .mdw v 32 = true ∧ cfRoom sT k0 = true ∧
      (sT.core k0.key).undoFull ((vatTiles 0 (sr sT k0 v.sx).1.toNat).map (fun z => z.1)) = false ∧ (sT.core k0.key).epochs = []) := by
  decide +kernel

theorem witness_MadderFlushAndVatWrite :
    let b : BankSet := { arr := 1, shape := 0, fp16 := false, bank := 3 }
    let s := sT.setCore 0 { cT with madSets := [b] }
    let c1 := { cT with vat := [(511, { valid := true })], s := cT.s ++ [(13, (511 + 512, false))] }
    let v := sT.setCore 0 c1
    let e := sT.setCore 0 { c1 with epochs := [e0], cur := some 2 }
    (runs s k0 0 = true ∧ predIs s h0 true = true ∧ (tr s k0 3).2 = false ∧
      flushDest (tdOf (tr s k0 3).1) 0 = none ∧ bankOpen (s.core k0.key).madSets 1 0 false 3 = true ∧
      s.runsOk 0 false ((td s k0 3).spans 32 32) = true ∧ cfRoom s k0 = true ∧
      (sr s k0 8).2 = false ∧ (s.core k0.key).rel = [] ∧ (s.core k0.key).epochs = [] ∧ ((s.core k0.key).tag 0).valid = false) ∧
    (runs v k0 0 = true ∧ (sr v k0 13).2 = false ∧ ((v.core k0.key).tag ((sr v k0 13).1.toNat % 512)).valid = true ∧ (v.core k0.key).cur = none) ∧
    (runs e k0 0 = true ∧ (e.core k0.key).cur.isSome = true ∧ (sr e k0 13).2 = false) := by
  decide +kernel

/-- Tile registers of small tiles in the operand store: t1 FP32 of 2 × 96, t2 lakes of E4M3 of 2 × 96 that name record 3, t3 FP32 of 2 × 96, t4
lakes of 32 × 32, t5 FP32 of 32 × 32, t6 FP32 of 32 × 32 that rotates by 32 (R277). -/
def cM : Core :=
  { c0 with
    t := [(1, (desc 0x1000 false false 0 false 0 2 96 192, false)), (2, (desc 0x8000 false true 4 true 3 2 96 2, false)),
          (3, (desc 0x10000 false false 0 false 0 2 96 192, false)), (4, (desc 0x14000 false true 4 true 3 32 32 1, false)),
          (5, (desc 0x18000 false false 0 true 3 32 32 64, false)), (6, (desc 0x1A000 false false 0 false 0 32 32 64, false))] }
def sM : State := { s0 with cores := [(0, cM)] }

/-- A quotient of a half under a zero point of 1 goes to code 2, and under one of 2 to code 2 (R51, R130: RNE to the even code). -/
theorem test_uint8z_tie :
    (inBand 7 .rne 0 0 1 (.fin false (Mag.dyadic 1 (-8)))).code = 2 ∧ (inBand 7 .rne 0 0 2 (.fin false (Mag.dyadic 1 (-8)))).code = 2 := by
  decide +kernel

theorem witness_QuantisationWritesItsLakes :
    let a := td sM k0 1
    let b := td sM k0 2
    runs sM k0 0 = true ∧ predIs sM h0 true = true ∧
    tReady sM k0 0 1 2 [a.plainOk, b.lakeOk, need ((a.fmt == 0 || a.fmt == 2 || a.fmt == 3) && b.trv && decide (b.rows ≤ a.rows ∧ b.cols ≤ a.cols) &&
      decide (b.rnd ≤ 4) && b.rnd != 3)] (a.spans b.rows b.cols) (b.lakeSpans b.rows b.cols) = true ∧
    (b.rnd = 4 → recReads sM k0 0 b.trec = true) ∧ recReads sM k0 0 3 = true := by
  decide +kernel

/-- Further tile registers: t7 as t1 rotating by 32, t8 as t2 rotating, t9 plain E4M3 under DELAYED with record 3, t10 as t5 under SR. -/
def cR : Core :=
  { cM with t := cM.t ++ [(7, (desc 0x1000 false false 0 false 0 2 96 192 + 0x80000000000000, false)),
      (8, (desc 0x8000 false true 4 true 3 2 96 2 + 0x80000000000000, false)),
      (9, (desc 0x20000 false false 4 true 3 2 96 192 + 0x2000000000000000, false)),
      (10, (desc 0x28000 false false 1 true 3 2 96 192 + 0x1000000000000000, false))] }
def sR : State := { s0 with cores := [(0, cR)] }

theorem witness_MordantTileConversions :
    let q (i : Fin 32) : TD := td sR k0 i
    (runs sR k0 0 = true ∧ predIs sR h0 true = true ∧ recReads sR k0 0 3 = true) ∧
    (∀ inv, tReady sR k0 0 8 1 [(q 8).lakeOk, (q 1).plainOk, need (decide ((q 1).fmt < 4) && (q 8).trv && decide ((q 1).rows ≤ (q 8).rows) &&
      decide ((q 1).cols ≤ (q 8).cols) && (!inv || (q 8).rot))] ((q 8).lakeSpans (q 1).rows (q 8).cols) ((q 1).spans (q 1).rows (q 1).cols) = true) ∧
    ((q 10).rnd = 4 ∧ (q 10).trv = true ∧
      tReady sR k0 0 4 5 [(q 4).lakeOk, (q 5).plainOk, need (decide ((q 5).fmt < 4) && (q 4).trv && decide ((q 5).cols ≤ (q 4).rows) &&
        decide ((q 5).rows ≤ (q 4).cols))] ((q 4).lakeSpans (q 5).cols (q 4).cols) ((q 5).spans (q 5).rows (q 5).cols) = true) ∧
    tReady sR k0 0 7 7 [(q 7).plainOk, (q 7).plainOk, need ((q 7).fmt == 0 && (q 7).fmt == 0 && (q 7).rot)]
      ((q 7).spans (q 7).rows (q 7).cols) ((q 7).spans (q 7).rows (q 7).cols) = true ∧
    (∀ rnd : Fin 5, ∀ i ∈ [(1 : Fin 32), 10], tReady sR k0 0 1 i [(q 1).plainOk, (q i).plainOk, need (decide ((q i).rows ≤ (q 1).rows) &&
      decide ((q i).cols ≤ (q 1).cols) && (roOk rnd.val (q i).fmt || decide (rnd.val = 3)) && (!(q i).delayed || ((q i).trv && decide (4 ≤ (q i).fmt))))]
      ((q 1).spans (q i).rows (q i).cols) ((q i).spans (q i).rows (q i).cols) = true) ∧
    ((q 9).delayed = true ∧ tReady sR k0 0 1 9 [(q 1).plainOk, (q 9).plainOk, need (roOk 0 (q 9).fmt && (!(q 9).delayed || ((q 9).trv && decide (4 ≤ (q 9).fmt))))]
      ((q 1).spans (q 9).rows (q 9).cols) ((q 9).spans (q 9).rows (q 9).cols) = true) := by
  decide +kernel

/-- A core in an epoch of layer 3 with its totals in order, an empty digest log and one filled sample buffer. -/
theorem witness_StatisticsOfTilesAndTotals :
    let s := sM.setCore 0 { cM with samples := [{ buf := 0, tag := some 2, elems := List.replicate 1024 (0x3F800000, false) }], epochs := [e0], cur := some 2 }
    let a := td s k0 5
    let l := td s k0 2
    (runs s k0 0 = true ∧ predIs s h0 true = true ∧ cfRoom s k0 = true) ∧
    (∀ g : Fin 8, a.trv = true ∧ a.plainOk = none ∧ (sr s k0 3).2 = false ∧ (sr s k0 3).1.toNat % 128 = 0 ∧ s.runsOk 0 a.space (a.spans a.rows a.cols) = true ∧
      (sr s k0 3).1.toNat + 4 * (amaxRuns g a.block (table a.rows a.cols (fun _ _ => (.nan, false)))).length ≤ 0x400000) ∧
    (l.lake = true ∧ l.trv = true ∧ l.lakeOk = none ∧ s.runsOk 0 l.space (l.lakeSpans l.rows l.cols) = true) ∧
    ((s.core k0.key).samples ≠ [] ∧ 32 ≤ a.rows ∧ 32 ≤ a.cols ∧ s.runsOk 0 a.space (a.spans 32 32) = true ∧ recReads s k0 0 3 = true) ∧
    ((s.core k0.key).epochs.find? (fun z => some z.tag == (s.core k0.key).cur) = some e0 ∧ (s.core k0.key).digests = []) := by
  decide +kernel
theorem witness_StatisticsOfTilesAndTotals_cleared :
    let s := (s0.setReg .morRecBaseHi 0 0 0x4000).setCtx 0 { x0 with tActive := true, trecs := [4] }
    (s.ctx 0).tActive = true ∧ locOf (s.recAddr 0 3 + 20) = .store 0 212 ∧ locOf (s.recAddr 0 4 + 20) = .store 0 276 ∧
    (s.ctx 0).trecs.contains 3 = false ∧ (s.ctx 0).trecs.contains 4 = true := by decide +kernel

/-! ## D and L slots -/

/-- Tile registers of BF16 tiles of 2 × 3: t1 in the operand store, t2 in device memory, t3 in the partition store, t4 of one row in tier 3
window 0. s8 an address of the partition store, s9 unit 17; a walk of tag 5 with buffer slot 1 ready, slot 2 not; transfers of each kind. -/
def cD : Core :=
  { c0 with
    t := [(1, (desc 0x1000 false false 2 false 0 2 3 32, false)), (2, (desc 0x2000 true false 2 false 0 2 3 32, false)),
          (3, (desc 0x400000001000 true false 2 false 0 2 3 32, false)), (4, (desc 0x800000000000 true false 2 false 0 1 3 32, false)),
          (5, (desc 0x1000 false false 2 false 0 1 3 32, false))]
    s := c0.s ++ [(8, (0x400000000040, false)), (9, (17, false)), (10, (50, false)), (11, (4096, false))]
    walks := [{ wtag := 5, eng := 0, tag := none, ready := [(1, (true, 9))] }]
    xfers := [{ kind := 2 }, { kind := 1, tok := some 3, ps := [{ addr := 0x1000, data := [1, 2] }] }, { kind := 1, tok := some 5, t3 := [4] }] }
/-- Partition 0 with an Indigo engine that serves the walk, and tier-3 window 0 open. -/
def sD : State :=
  { s0 with cores := [(0, cD)], inds := [(0, { walks := [{ core := 0, slot := 0, req := List.replicate 24 0 ++ [5] }] })] }
def sDE : State := sD.setCore 0 { cD with epochs := [e0], cur := some 2 }
/-- A window of tier 3 that reaches the host. -/
def sD3 : State := (sD.setReg .hifT3Lo 0 0 49).setReg .hifT3Hi 0 0 1

theorem witness_DataSlotsMoveEveryElement_CopiesMoveEveryElement :
    let a := td sD k0 1
    let b := td sD k0 2
    a.lake = false ∧ b.lake = false ∧ fmtBytes a.fmt = fmtBytes b.fmt ∧ 1 < a.rows ∧ 1 < b.rows ∧ 2 < a.cols ∧ 2 < b.cols ∧
    copyRuns a b ≠ [] := by
  decide +kernel

theorem witness_DataSlotsMoveEveryElement_DataSlotsMoveTiles :
    let q (i : Fin 32) : TD := td sD k0 i
    let src (i j : Fin 32) := (copyRuns (q i) (q j)).map (fun r => (r.1, r.2.2))
    let dst (i j : Fin 32) := (copyRuns (q i) (q j)).map (fun r => (r.2.1, r.2.2))
    let mv (s : State) (i j : Fin 32) (toDev : Bool) := s.copyPieces 0 toDev (copyRuns (q i) (q j))
    (runs sD k0 0 = true ∧ predIs sD h0 true = true ∧ ∀ i ∈ [(1 : Fin 32), 2, 3, 4], (tr sD k0 i.val).2 = false) ∧
    (loadChk (q 2) (q 1) = none ∧ sD.devRuns 0 (src 2 1) = true ∧ localRuns (dst 2 1) = true ∧ (flying sD k0 0).length < 16 ∧
      nearRuns (copyRuns (q 2) (q 1)) = true ∧ (flying sD k0 1).all (fun t => t.tok != some 4) = true) ∧
    (firstChk [(q 1).tileOk, (q 3).tileOk, need (!(q 1).space && (q 3).space && copyOk (q 1) (q 3))] = none ∧ localRuns (src 1 3) = true ∧
      sD.devRuns 0 (dst 1 3) = true ∧ ((begun sD k0).core k0.key).epochs = [] ∧
      (mv (begun sD k0) 1 3 false).any (fun p => (begun sD k0).captureHolds p.addr) = false ∧
      ((begun sD k0).performWrite 0 (mv (begun sD k0) 1 3 false)).2 = false) ∧
    (firstChk [(q 2).tileOk, (q 2).tileOk, need ((q 2).space && (q 2).space && copyOk (q 2) (q 2))] = none ∧ sD.devRuns 0 (src 2 2) = true ∧
      sD.devRuns 0 (dst 2 2) = true ∧ nearRuns (copyRuns (q 2) (q 2)) = true ∧
      (sDE.core k0.key).cur.isSome = true ∧ runs sDE k0 0 = true ∧
      ((begun sD k0).core k0.key).cur = none ∧ ((begun sD k0).core k0.key).epochs = [] ∧
      ((begun sD k0).performWrite 0 (mv (begun sD k0) 2 2 true)).2 = false) := by
  decide +kernel
/-- A DLD of a tile of tier 3, of one run. -/
theorem witness_DataSlotsMoveEveryElement_DataSlotsMoveTiles_tier3 :
    let a := td sD3 k0 4
    let b := td sD3 k0 5
    let rs := copyRuns a b
    runs sD3 k0 0 = true ∧ loadChk a b = none ∧ sD3.devRuns 0 (rs.map (fun r => (r.1, r.2.2))) = true ∧ localRuns (rs.map (fun r => (r.2.1, r.2.2))) = true ∧
    rs = [(0x800000000000, 0x1000, 6)] ∧ locOf 0x800000000000 = .tier3 0 0 ∧ (sD3.t3Host 0 0).isSome = true := by
  decide +kernel
theorem test_dld : let c := (after (exec (.dld { i := h0, ts := 2, td := 1 }) ({ sD with mem := { bytes := [(0x2000, 1), (0x2041, 2)] } } : State))).core 0
    (c.loc.read 0x1000 2, c.loc.read 0x1040 2, c.xfers.length) = ([1, 0], [0, 2], 4) := by decide +kernel

theorem witness_TransfersEndAndAreWaitedFor :
    (runs sD k0 0 = true ∧ predIs sD h0 true = true ∧ (sD.core k0.key).xfers.length = 3) ∧
    ((flying sD k0 1).all (fun t => t.tok != some 4) = true ∧ (flying sD k0 1).any (fun t => t.tok == some 3) = true) ∧
    ((sD.core k0.key).walks.find? (fun w => w.wtag == 5) = some { wtag := 5, eng := 0, tag := none, ready := [(1, (true, 9))] } ∧
      AMap.get (false, 0) 1 ([(1, (true, 9))] : AMap (Bool × Nat)) = (true, 9) ∧ (AMap.get (false, 0) 7 ([(1, (true, 9))] : AMap (Bool × Nat))).1 = false) ∧
    ((sD.core k0.key).xfers[1]?.map (fun t => t.t3) = some [] ∧ (sD.core k0.key).xfers[2]?.map (fun t => t.t3) = some [4]) :=
  by decide +kernel

theorem witness_DataSlotsSendToTheirPorts :
    let a := td sD k0 1
    let w : CoreWalk := { wtag := 5, eng := 0, tag := none, ready := [(1, (true, 9))] }
    (runs sD k0 0 = true ∧ predIs sD h0 true = true ∧ outside sD k0 = true ∧ runs sDE k0 0 = true ∧
      (sDE.core k0.key).cur.isSome = true) ∧
    (a.tileOk = none ∧ a.space = false ∧ (tr sD k0 1).2 = false ∧ a.addr + 64 ≤ 0x600000 ∧ (sr sD k0 8).2 = false ∧ (sr sD k0 9).2 = false ∧
      (sr sD k0 8).1.toNat % 64 = 0 ∧ locOf (sr sD k0 8).1.toNat = .store (k0.key / 100) 64) ∧
    (sD.savePauses 0 = false ∧ (sD.core k0.key).loc.readPo a.addr 64 = false) ∧
    ((sD.core k0.key).walks.find? (fun w => w.wtag == 5) = some w ∧ (AMap.get (false, 0) 1 w.ready).1 = true ∧ (AMap.get (false, 0) 0 w.ready).1 = false ∧
      ∃ q, q ∈ (sD.ind w.eng).walks ∧ q.core = k0.key ∧ reqTag q.req = w.wtag) ∧
    ((sr sD k0 9).1.toNat % 64 % 16 < 12) :=
  ⟨by decide +kernel, by decide +kernel, by decide +kernel, ⟨by decide +kernel, by decide +kernel, by decide +kernel,
    ⟨_, List.mem_singleton.mpr rfl, rfl, by decide +kernel⟩⟩, by decide +kernel⟩
theorem test_edit_engine : ((after (exec (.dstEdit { i := h0, sa := 8, sb := 9 }) sD)).ind 13).edits.length = 1 := by decide +kernel

theorem witness_WaitsEndAtTheirTimeOrEvent_LaunchTimesAreWaitedFor :
    let at_ (n : Nat) : State := { sD with tim := { now := BitVec.ofNat 64 n } }
    let l := at_ 4000009
    let e := l.setCore 0 { cD with epochs := [{ e0 with ccommit := some 9 }], cur := some 2 }
    (∀ n ∈ [4095, 4096, 4596, 5097], runs (at_ n) k0 0 = true ∧ predIs (at_ n) h0 true = true ∧
      (sr (at_ n) k0 11) = (4096, false)) ∧
    ((at_ 4095).tim.now < 4096 ∧ (at_ 4096).tim.now = 4096 ∧ 4096 < (at_ 4596).tim.now ∧ 4096 < (at_ 5097).tim.now ∧
      4596 - 4096 ≤ (sD.reg .timLateTol 0 0).toNat ∧ (sD.reg .timLateTol 0 0).toNat < 5097 - 4096) ∧
    (runs e k0 0 = true ∧ (e.core k0.key).epochs = [{ e0 with ccommit := some 9 }] ∧ (e.core k0.key).wait = .none ∧
      (9 : Nat) + 4000000 ≤ e.tim.now.toNat) := by
  decide +kernel

theorem witness_WaitsEndAtTheirTimeOrEvent_WaitsEndByEventOrTimeout :
    let f := sD.setCore 0 { cD with xfers := [{ kind := 0 }, { kind := 1, tok := some 0 }] }
    let d := ({ sD with ctxs := [(0, { x0 with chans := [(15, { posted := true, full := true })] })] } : State)
    (runs sD k0 0 = true ∧ predIs sD h0 true = true ∧ (sr sD k0 10) = (50, false) ∧ outside sD k0 = true ∧
      (sD.core k0.key).wait = .none) ∧
    (d.eventDone 0 15 0 = true ∧ runs d k0 0 = true ∧ sD.eventDone 0 3 0 = false ∧
      (sD.setCore 0 { cD with wait := .lwait 50 3 0 }).coreSlot k0.key = some 0) ∧
    ((sD.core k0.key).fenced = false ∧ (f.core k0.key).fenced = true ∧ runs f k0 0 = true) := by
  decide +kernel

theorem witness_LinkSlotsStartTheirTransfers :
    let a := td sD k0 1
    let g := td sD k0 2
    let busy : Chan := { posted := true }
    let p := ({ sD with ctxs := [(0, { x0 with chans := [(3, busy)], colls := [(3, { live := true })] })] } : State)
    (runs sD k0 0 = true ∧ predIs sD h0 true = true ∧ (tr sD k0 1).2 = false ∧ (sr sD k0 8).2 = false) ∧
    (a.tileOk = none ∧ sD.tileReach 0 a = true ∧ intoVat a = false ∧ (sDE.core k0.key).cur.isSome = true ∧ runs sDE k0 0 = true ∧ outside sD k0 = true) ∧
    ((sD.chan 0 3).posted = false ∧ (sD.chan 0 3).reqs.find? (fun q => q.1 == 5) = none ∧ (p.chan 0 3).posted = true ∧ (p.chan 0 3).full = false ∧
      runs p k0 0 = true) ∧
    (g.plainOk = none ∧ g.space = true ∧ g.fmt = 2 ∧ sD.ctxMem 0 g.addr (2 * (g.rows * g.cols)) = true ∧ (sD.coll 0 3).live = false ∧
      (p.coll 0 3).live = true ∧ (p.coll 0 3).done = false ∧ (sD.ctx 0).redundancy.toNat % 16 < 5 ∧
      ((({ sD with ctxs := [(0, { x0 with cmpDone := false, ckptOk := true, regions := [(0, 64, true)] })] } : State).setReg .sepCkGroup 0 0 16).gateShut 0 = true ∧
        sD.gateShut 0 = false)) := by
  decide +kernel

/-! ## Vat-writes, partials, verdicts and commits -/

/-- Vat-write region 15 of partition 0: armed, 64 KiB at 0x10000, owned by logical core 0 of partition 0 (R341). -/
def regs15 (s : State) : State :=
  ((s.setReg .memVwrCtrl 0 15 1).setReg .memVwrBaseLo 0 15 0x10000).setReg .memVwrBaseHi 0 15 0x100000
def vw0 : VatW := { addr := 0x1FFC0, vals := List.replicate 16 0x3F800000 }
def sV : State := regs15 (s0.setCore 0 { c0 with vwq := [vw0, { vw0 with addr := 0x20000 }] })

theorem witness_VatWritesReachMemory :
    let d := sV.setReg .memVwrCtrl 0 15 4
    let o := sV.setReg .memVwrOwner 0 15 0x40000
    let i := sV.setReg .memVwrCtrl 0 15 3
    ((sV.core k0.key).vwq[0]? = some vw0 ∧ sV.captureHolds vw0.addr = false ∧ vatAllowed sV vw0 0 15 k0.part.val ((sV.lcore k0.key).getD 0x7E) = true ∧
      locOf vw0.addr = .mem 0 0x1FFC0 ∧ sV.retired vw0.addr = false ∧ sV.mem.poAt vw0.addr = false ∧ vw0.addr % 64 = 0 ∧ vw0.vals.length = 16 ∧
      sV.vwDead (sV.stackOf 0 0x1FFC0) = false ∧ AMap.get [] (vw0.addr / 64) sV.mem.errs = [] ∧ ({ vw0 with po := true } : VatW).po = true) ∧
    (let z : State := { sV with mgmt := { sV.mgmt with kat := [448 + sV.stackOf 0 0x1FFC0] } }
     vatAllowed z vw0 0 15 k0.part.val ((z.lcore k0.key).getD 0x7E) = true ∧ z.vwDead (z.stackOf 0 0x1FFC0) = true) ∧
    (sV.vwCheck 0x20000 0 0 = some 0 ∧ ((sV.core k0.key).vwq.take 1).all (fun e => e.addr != 0x20000) = true ∧ d.vwCheck 0x1FFC0 0 0 = some 0 ∧
      o.vwCheck 0x1FFC0 0 0 = some 1 ∧ i.vwCheck 0x1FFC0 0 0 = some 2) := by
  decide +kernel
/-- 1.0 added to 0.0 in the last word of the region. -/
theorem test_vatWrite : let t := after (exec (.vatWrite k0 0) sV)
    (word32 t.mem 0x1FFC0 15, word32 t.mem 0x20000 0, (t.core 0).vwAck) = (0x3F800000, 0, 1) := by decide +kernel

/-- A job of cores 0 and 1 with two units. -/
def job0 : Job := { desc := 0x400000000040, members := [0, 1], units := 2, dest := 0x400000001000, kind := 0, job := 1, slot := 0 }
def part0 : Partial := { desc := 0x400000000040, unit := 1, data := List.replicate 16 0x3F800000, slot := 0 }
/-- The job at partition 0, and the partial of physical core `c` on its way. -/
def sJ (c : Nat) (j : Job) : State := { s0 with parts := [(0, { jobs := [j] })], cores := [(c, { c0 with parts := [part0] })] }

theorem witness_CollectorsTakePartialsDeltasAndDigests_PartialsAreSummedInOrder :
    let k1 : CoreId := ⟨0, 1⟩
    let j1 : Job := { job0 with sums := [(1, (List.replicate 16 0x40000000, false, 1))] }
    let s := sJ 0 job0
    let t := sJ 1 j1
    ((s.core k0.key).parts[0]? = some part0 ∧ (s.part k0.part.val).jobs = [job0] ∧ job0.desc = part0.desc ∧ s.lcore k0.key = some 0 ∧ job0.staged = [] ∧
      s.captureHolds (job0.dest + 64 * part0.unit) = false ∧ job0.members[(job0.sum 1).2.2]? = some 0 ∧ job0.members.Nodup ∧ part0.unit < job0.units ∧
      job0.written.contains 1 = false ∧ (job0.sum 1).2.2 + 1 < job0.members.length) ∧
    ((t.part 0).jobs = [j1] ∧ t.lcore k1.key = some 1 ∧ j1.members[(j1.sum 1).2.2]? = some 1 ∧ (j1.sum 1).2.2 + 1 = j1.members.length ∧
      ((t.setPart 0 { t.part 0 with jobs := [] }).performWrite 0
        (unitPiece (j1.dest + 64) (wordsBytes (List.zipWith add32 (j1.sum 1).1 part0.data)) false)).2 = false) ∧
    ((sJ 2 job0).lcore 2 = some 2 ∧ job0.members.contains 2 = false ∧ ({ job0 with written := [1] } : Job).written.contains 1 = true ∧
      ({ job0 with units := 1 } : Job).units ≤ part0.unit) := by
  decide +kernel

theorem witness_CollectorsTakePartialsDeltasAndDigests_DeltasAndDigestsReachTheVerdictCore :
    let d : DigestEntry := { run := e0.run, tile := 4, digest := 7 }
    let at_ (l : List DigestEntry) : State := { ctxs := [(0, { x0 with digs := l })], cores := [(0, { c0 with fins := [{ run := e0.run, ctxcore := 0 }], digests := [d] })] }
    let same (l : List DigestEntry) := ((at_ l).ctx 0).digs.filter (fun e => e.run == d.run && e.tile == d.tile)
    ((at_ []).coreSlot k0.key = some 0 ∧ ((at_ []).core k0.key).fins = [{ run := e0.run, ctxcore := 0 }] ∧ ((at_ []).core k0.key).digests = [d]) ∧
    ((same [{ d with core := 1 }]).all (fun e => e.core != d.core) = true ∧ (same [{ d with core := 1 }]).length < 2) ∧
    ((same [d]).any (fun e => e.core == d.core) = true ∧ 3 ≤ (same [{ d with core := 1 }, { d with core := 2 }, { d with core := 3 }]).length) := by
  decide +kernel

/-- A layer record: layer 3, level `lv`, base `base`, flags `fl`, 2 clean steps, LOWER_AFTER 3, every limit 0 (R294). -/
def rec0 (lv base fl : Byte) : List Byte := [3, 0, lv, base, fl, 0, 2, 0, 9, 0, 9, 0, 9, 0, 3] ++ List.replicate 49 0

theorem witness_PolicyDecidesVerdicts_DefaultPolicyDecides :
    policyDefault (rec0 0 1 0) { checked := 1, failed := 1 } = .rerun 1 ∧ (rec0 1 1 0).length = 64 ∧
    (natBit (leField (rec0 1 1 4) 4 4) 2 = true ∧ natBit (leField (rec0 1 1 0) 4 4) 2 = false) ∧
    (0 < leField (rec0 1 1 0) 3 3 % 4 ∧ leField (rec0 1 1 0) 14 15 ≤ min (leField (rec0 1 1 0) 6 7 + 1) 0xFFFF) ∧
    leField (rec0 1 0 0) 3 3 % 4 = 0 ∧ natBit (s0.reg .morCtrl 0 0).toNat 0 = false := by
  decide +kernel
theorem test_policy : [{}, { nan := 1 }, { failed := 1, errMax := 0x3F800000 }, { sat := 1, elems := 2 ^ 20 }].map (policyDefault (rec0 0 1 0)) =
    ([.pass, .rerun 2, .rerun 2, .rerun 1] : List Verdict) ∧ policyDefault (rec0 1 1 1) { sat := 1, elems := 2 ^ 20 } = .accept ∧
    policyDefault (rec0 2 1 0) { nan := 1 } = .exhausted := by decide +kernel

/-- A context whose one run waits for its verdict with layer record 1 of core 3, which is the verdict core of layer 3. -/
def sQ (b : List Byte) (d : Delta) : State :=
  { s0 with
    ctxs := [(0, { x0 with fins := [{ run := e0.run, ctxcore := 0, w := d, lrec := 1 }] })]
    mem := { bytes := (b.zipIdx.filter (fun e => e.1 != 0)).map (fun e => (64 + e.2, e.1)) } }

theorem witness_PolicyDecidesVerdicts_VerdictsFollowThePolicy :
    (judged (sQ (rec0 0 1 0) {}) 0 3 1 e0.run = true ∧ policyDefault ((counted (sQ (rec0 0 1 0) {})).devRead ((counted (sQ (rec0 0 1 0) {})).recAddr 3 1) 64) {} = .pass) ∧
    (judged (sQ (rec0 0 1 0) { nan := 1 }) 0 3 1 e0.run = true ∧
      policyDefault ((counted (sQ (rec0 0 1 0) { nan := 1 })).devRead 64 64) (summed (sQ (rec0 0 1 0) { nan := 1 }) 0 e0.run) = .rerun 2) ∧
    (judged (sQ (rec0 2 1 0) { nan := 1 }) 0 3 1 e0.run = true ∧
      policyDefault ((counted (sQ (rec0 2 1 0) { nan := 1 })).devRead 64 64) (summed (sQ (rec0 2 1 0) { nan := 1 }) 0 e0.run) = .exhausted) := by
  decide +kernel
theorem witness_PolicyDecidesVerdicts_VerdictsFollowThePolicy_redye :
    let at_ (d : Delta) : State := (sQ (rec0 0 1 0) {}).setCore 0 { c0 with cf := [{ trec := 9, tag := none, run := e0.run, d := d }] }
    let s := at_ { nan := 1 }
    (s.ctxCores 0).head? = some 0 ∧ (s.ctx 0).st = .running ∧ (s.ctx 0).redyed.contains 1 = false ∧ (s.ctx 0).refmode = false ∧ (s.ctx 0).forward = false ∧
    (s.ctxCores 0).all (fun n => (s.core n).cf.all (fun e => !(e.trec == 8 && e.tag.isNone))) = true ∧
    (s.ctxCores 0).all (fun n => (s.core n).epochs.isEmpty) = true ∧ s.recBad 0 0 1 = none ∧ s.recBad 0 0 9 = none ∧
    leField (s.devRead (s.recAddr 0 1) 64) 8 9 = 9 ∧ natBit (s.reg .morCtrl 3 0).toNat 0 = false ∧
    policyDefault (s.devRead 64 64) { nan := 1 } = .rerun 2 := by
  decide +kernel

theorem witness_EpochsCommitInOrderAndAbortTogether :
    let e := { e0 with ccommit := some 1, verdict := some .accept }
    let f := { e0 with tag := 1, run := { layer := 2, mb := 2 } }
    let s := s0.setCore 0 { c0 with epochs := [e, f] }
    let a := s0.setCore 0 { c0 with epochs := [f, e0], cur := some 2 }
    ((s.core k0.key).epochs = [e, f] ∧ ready e = true ∧ e.held = [] ∧ (s.core k0.key).rel = [] ∧
      (s.core k0.key).cf.all (fun q => q.tag != some e.tag) = true ∧ ready e0 = false) ∧
    (0 ∈ a.ctxCores 0 ∧ (a.core 0).epochs = [f] ++ e0 :: [] ∧ [f].all (fun q => q.run != e0.run) = true) := by
  decide +kernel
theorem test_abort : let a := s0.setCore 0 { c0 with epochs := [{ e0 with tag := 1, run := { layer := 2, mb := 2 } }, e0], cur := some 2 }
    let t := (after (exec (.epochAbort 0 { layer := 3, mb := 2 }) a)).core 0
    (t.pc, t.epochs.length) = (9, 1) := by decide +kernel

theorem witness_StepsCommitAndDrainsEnd :
    let one : AMap Part := [(0, { logical := [0] })]
    let at_ (c : Core) : State := { s0 with parts := one, cores := [(0, c)] }
    let r := at_ { c0 with wait := .step }
    let v := at_ { c0 with wait := .step, vat := [(511, { valid := true, dirty := true })] }
    let q := at_ { c0 with wait := .step, vwq := [vw0] }
    ((r.ctx 0).st = .running ∧ (r.ctx 0).boundary = false ∧ (at_ c0).stepReached 0 = false ∧ r.stepReached 0 = true) ∧
    (v.stepReached 0 = true ∧ (v.ctxCores 0).any (fun n => !(v.core n).vat.isEmpty) = true ∧ 0 ∈ v.ctxCores 0) ∧
    ((r.ctxCores 0).all (fun n => (r.core n).vat.isEmpty) = true ∧ q.vatBusy 0 = true ∧ r.vatBusy 0 = false) ∧
    ((r.setCtx 0 { x0 with tally := 1 }).vatBusy 0 = false ∧ ((r.setCtx 0 { x0 with tally := 1 }).ctx 0).tally ≠ 0 ∧ (r.ctx 0).tally = 0 ∧ (r.ctx 0).layers = [] ∧
      (r.ctx 0).trecs = [] ∧ (r.ctxCores 0).all (fun n => (r.core n).cf.all (fun e => e.tag.isSome)) = true ∧ (r.ctx 0).ckptOk = false ∧ (r.ctx 0).save = none) ∧
    ((q.setCtx 0 { x0 with st := .draining }).vatBusy 0 = true ∧ (r.setCtx 0 { x0 with st := .draining }).vatBusy 0 = false) := by
  decide +kernel

/-! ## Weld, collectives, Indigo -/

/-- A sequencer with an invocation running, registers w1 = 4, w2 = −1, w3 = 4,092, and 7 in the last data word. -/
def ww : Weld := { w := [(1, 4), (2, 0xFFFFFFFF), (3, 4092)], data := [(1023, 7)], pc := 4095 }
def sW (w : WeldId) (g : Weld) : State := (s0.setWeld w.key g).setReg .wldStatus w.key 0 1
def wI : WeldId := .indigo 47
def wL : WeldId := .link 3

theorem witness_WeldArithmeticAndData :
    weldRuns (sW wI ww) wI = true ∧ weldRuns (sW wL ww) wL = true ∧ (weldArith { w := wI } 0 0).length = 14 ∧ (weldImmediate { w := wI } 0).length = 6 ∧
    (let i : WeldI := { w := wI, ra := 1, imm := 4088 }
     (wreg (sW wI ww) wI 1 + BitVec.ofInt 32 i.imm.toInt).toNat = 4092 ∧ (wreg (sW wI ww) wI 2 + BitVec.ofInt 32 (1 : BitVec 14).toInt).toNat = 0) := by
  decide +kernel
theorem test_weld_sar : (after (exec (.weldSar { w := wI, rd := 4, ra := 2, rb := 1 }) (sW wI ww))).weld wI.key =
    { ww with w := ww.w ++ [(4, 0xFFFFFFFF)], pc := 0, count := 1 } := by decide +kernel
theorem test_weld_ld : AMap.get 0 5 ((after (exec (.weldLd { w := wI, rd := 5, ra := 3 }) (sW wI ww))).weld wI.key).w = 7 := by decide +kernel

theorem witness_WeldFlowAndTraps :
    let v : Inv := { slot := 0, ch := 5, ring := 0, ev := 0 }
    let l := (sW wL { ww with w := [] }).setLink 3 { inv := some v }
    let b := sW wI { ww with count := 2048 }
    (weldRuns (sW wI ww) wI = true ∧ plainWeld wI = true ∧ (weldBranches { w := wI } 1 2).map (fun e => e.2) = [false, true, true, false, true] ∧
      (wreg (sW wI ww) wI 3 + BitVec.ofInt 32 (4 : BitVec 14).toInt).toNat = 4096 ∧ (wreg (sW wI ww) wI 3 + BitVec.ofInt 32 (2 : BitVec 14).toInt).toNat % 4 ≠ 0) ∧
    (natBit (b.reg .wldStatus wI.key 0).toNat 0 = true ∧ budgetOf wI ≤ (b.weld wI.key).count ∧
      weldRuns (sW wI { ww with count := 2047 }) wI = true) ∧
    (weldRuns l wL = true ∧ wreg l wL 1 = 0 ∧ (l.link 3).inv = some v ∧ v.queue = [] ∧ v.abandoned = false ∧ plainWeld wL = false) := by
  decide +kernel

theorem witness_WeldInputAndOutput :
    let v : Inv := { slot := 0, ch := 5, ring := 0, ev := 0, r120 := 6 }
    let l := (sW wL { ww with w := [(1, 0x128)] }).setLink 3 { inv := some v }
    (weldRuns l wL = true ∧ (l.link 3).inv = some v ∧ (linkWords l 3 v).length = 10 ∧ (wreg l wL 1 + BitVec.ofInt 32 (0 : BitVec 14).toInt).toNat = 0x128 ∧
      (wreg l wL 0 + BitVec.ofInt 32 (0x100 : BitVec 14).toInt).toNat = 0x100 ∧ (wreg l wL 0 + BitVec.ofInt 32 (0x130 : BitVec 14).toInt).toNat = 0x130 ∧
      (wreg l wL 0 + BitVec.ofInt 32 (0x120 : BitVec 14).toInt).toNat = 0x120 ∧ (wreg l wL 0 + BitVec.ofInt 32 (0x124 : BitVec 14).toInt).toNat = 0x124 ∧
      v.abandoned = false ∧ 1 ≤ v.r120.toNat % 16 ∧ v.r120.toNat % 16 ≤ 6) ∧
    (∀ z ∈ [{ v with abandoned := true }, { v with r120 := 0 }, { v with r120 := 7 }], weldRuns (l.setLink 3 { inv := some z }) wL = true) ∧
    (∀ o ∈ [0, 0x130, 0x134, 0x122], (wreg l wL 0 + BitVec.ofInt 32 (BitVec.ofNat 14 o).toInt).toNat = o) ∧
    (weldRuns (sW (.sepia 3) ww) (.sepia 3) = true ∧ plainWeld (.sepia 3) = true) := by
  decide +kernel

theorem witness_WeldProgramsAreLoaded :
    let w := wI
    let free : State := ((up {}).setReg .wldProgIdx w.key 0 4095)
    let open_ : State := { free with unlocked := [(11, true)] }
    let bound : State := { open_ with ctxs := [(0, { x0 with parts := 8 })] }
    (open_.weldOpen w.key = true ∧ open_.partSlot (weldPart w.key) = none ∧ open_.fld .wldProgIdx w.key 0 11 0 = 4095) ∧
    (bound.weldOpen w.key = true ∧ (bound.partSlot (weldPart w.key)).isSome = true) ∧
    (natBit ((open_.setReg .wldStatus w.key 0 4).reg .wldStatus w.key 0).toNat 2 = true ∧
      natBit ((open_.setReg .wldStatus w.key 0 2).reg .wldStatus w.key 0).toNat 1 = true ∧ natBit (open_.reg .wldStatus w.key 0).toNat 1 = false) ∧
    (open_.blkOpen .wld w.key = true ∧ natBit (open_.reg .wldStatus w.key 0).toNat 2 = false) := by
  decide +kernel

/-- A collective of 64 elements at 0x2000 whose record names a ring of two positions over links 4 and 5, seen by link engine 3. -/
def sC (i : Inv) (chunks : List CollMsg) : State :=
  { s0 with
    ctxs := [(0, { x0 with colls := [(5, { live := true, addr := 0x2000, elems := 64, tag := 9 })] })]
    mem := { bytes := [(0x2000, 1), (0x400000000500, 2), (0x400000000508, 1), (0x400000000510, 0x44), (0x400000000511, 1)] }
    links := [(3, { inv := some i }), (5, { chunks := chunks })] }
def cmd (op : Nat) : StageCmd := { op := op, dim := 0, stage := 0, chunk := 1 }
def inv0 : Inv := { slot := 0, ch := 5, ring := 0, ev := 0 }
def msg0 : CollMsg := { src := 1, slot := 0, ch := 5, tag := 9, first := 32, elems := List.replicate 32 0x3F80, poison := [false] }

theorem witness_StageCommandsMoveTheirChunk :
    let at_ (op : Nat) : State := sC { inv0 with queue := [cmd op, cmd 6] } [msg0]
    let none_ (op : Nat) : State := sC { inv0 with queue := [cmd op] } []
    let p : State := { at_ 1 with mem := { (at_ 1).mem with poison := [(0x2040 / 64, true)] } }
    (∀ op ∈ [1, 2, 3, 4, 5, 6], stands (at_ op) 3 inv0 (cmd op) [cmd 6] op = true ∧ mineClean (at_ op) 3 inv0 (cmd op) = true ∧
      arrived (at_ op) 3 inv0 (cmd op) msg0 = true) ∧
    (stands p 3 inv0 (cmd 1) [cmd 6] 1 = true ∧ mineClean p 3 inv0 (cmd 1) = false) ∧
    ((writesChunk (at_ 4) (taken (at_ 4) 3 inv0 (cmd 4) msg0) 3 inv0 (cmd 4) (msg0.elems.map (fun e => e.toNat))).2 = false ∧
      (writesChunk (at_ 3) ((taken (at_ 3) 3 inv0 (cmd 3) msg0).evalsUp 2 0) 3 inv0 (cmd 3) (sumsAt (at_ 3) 3 inv0 (cmd 3) msg0)).2 = false) ∧
    (((none_ 4).link (before (none_ 4) 3 inv0 (cmd 4))).chunks = [] ∧ (chunkAt (none_ 4) 3 inv0 (cmd 4)).1 < (chunkAt (none_ 4) 3 inv0 (cmd 4)).2 ∧
      stands (none_ 4) 3 inv0 (cmd 4) [] 4 = true ∧ stands (none_ 5) 3 inv0 (cmd 5) [] 5 = true) := by
  decide +kernel

theorem witness_CollectivesReceiveAndCompare :
    let l := (sC inv0 []).setReg .lnkStatus 5 0 2
    let t : State := { s0 with ctxs := [(0, { x0 with colls := [(5, { live := true, twinWait := true, addr := 0x2000, elems := 64 })] })] }
    let r : State := { s0 with ctxs := [(0, { x0 with redundancy := 7, colls := [(5, { live := true, addr := 0x2000, elems := 64 })] })] }
    (l.linkUp 5 = true ∧ l.inSeq 5 { bits := 0x11 } msg0.flits 1 = true ∧ l.inSeq 5 { bits := 0x91 } msg0.flits 1 = false ∧
      credits l 5 { bits := 0x11 } = true ∧ (l.ctx 0).st = .running ∧ (l.coll 0 5).abandoned = false ∧ (l.coll 0 5).live = true ∧
      msg0.poison.all (fun b => !b) = true ∧ (l.coll 0 6).abandoned = false ∧ (l.ctx 1).st = .free ∧ (sC inv0 []).linkUp 5 = false) ∧
    ((t.coll 0 5).live = true ∧ (t.coll 0 5).twinWait = true ∧ (t.ctx 0).twin = [] ∧ ((t.setCtx 0 { t.ctx 0 with twin := [1] }).ctx 0).twin ≠ [] ∧ ([] : List W64).take 2 ≠ (twinWords t 0 (t.coll 0 5)).take 2) ∧
    ((r.ctx 0).colls = [(5, { live := true, addr := 0x2000, elems := 64 })] ∧ (r.ctx 0).redundancy.toNat % 16 = 7) := by
  decide +kernel

/-- Sequence descriptor at 0x10000 of one layer, 130 tokens, table at 0x20000 with three pages at 0x100000, in BF16 of rank 32 (R211). -/
def seqB : List Byte := leBytes 6 0x20000 ++ leBytes 2 0 ++ leBytes 4 130 ++ leBytes 2 4 ++ leBytes 2 1 ++ [0] ++ leBytes 2 32 ++ [0, 2, 0]
/-- A page-table entry: frame, PRESENT, PIN (R213). -/
def pteB (frame pin : Nat) : List Byte := leBytes 8 (frame / 256 + 2 ^ 41 + pin * 2 ^ 50)
/-- A walk request over tokens 0 to 129 with two buffer slots at the top of the operand store (R215). -/
def reqB : List Byte :=
  leBytes 6 0x10000 ++ leBytes 2 0 ++ leBytes 4 0 ++ leBytes 4 130 ++ leBytes 4 0x3FE000 ++ [2, 0, 0, 0, 5] ++ leBytes 6 0x11000 ++ List.replicate 33 0
/-- An edit batch at 0x12000 of one MAP of page 3, with its record at 0x11000 (R221). -/
def editB : List Byte := leBytes 6 0x10000 ++ leBytes 4 200 ++ leBytes 2 1 ++ leBytes 6 0x11000 ++ [7] ++ List.replicate 45 0 ++
  [2, 0, 0, 0, 3, 0, 0, 0] ++ leBytes 5 0x1100 ++ List.replicate 3 0
def wk0 : Walk := { core := 0, slot := 0, req := reqB }
/-- The lists above in memory, and engine 0 enabled with pools of four frames of 4 KiB at 1 MiB. -/
def sI (g : Ind) : State :=
  (((((((s0.rawWrite 0x10000 seqB).rawWrite 0x20000 (pteB 0x100000 0 ++ pteB 0x101000 1 ++ pteB 0x102000 62)).rawWrite 0x12000 editB).setReg .indCtrl 0 0 1).setReg
    .indPool 0 0 1).setReg .indDevFrames 0 0 4).setReg .indPoolCfg 0 0 16).setInd 0 g

theorem witness_WalksPinDeliverAndRelease :
    let r : WalkReq := { core := 0, slot := 0, req := reqB }
    let p (j gen : Nat) : WalkPage := { pte := 0x20000 + 8 * j, frame := 0x100000 + 0x1000 * j, tier3 := false, gen := gen }
    let w1 : Walk := { wk0 with pinned := true, list := [p 0 0, p 1 0, p 2 0] }
    let w2 : Walk := { w1 with delivered := 2, relq := [1], rel := [0] }
    let w3 : Walk := { w1 with delivered := 3, relq := [0], rel := [0, 1] }
    let g : StageEnt := { pte := 0x20000, src := 0x100000, dst := 0x101000, gen := 0 }
    ((sI { waiting := [r] }).ind 0 |>.waiting) = [r] ∧ walkTakes (sI { waiting := [r] }) 0 r = true ∧
    mayPin (sI { walks := [wk0] }) 0 wk0 = true ∧ (walkPtes (sI { walks := [wk0] }) wk0).length = 3 ∧
    (delivers (sI { walks := [w1] }) w1 (p 0 0) = true ∧ delivers (sI { walks := [w2] }) w2 (p 2 0) = true) ∧
    (let q : WalkPage := { p 0 0 with tier3 := true }
     let w := { w1 with list := [q] }
     standsNext w q = true ∧ stagedCopy (sI { walks := [w] }) w q = none ∧ (sI { walks := [w], devFree := [0x103000] }).direct 0 = false ∧
       ((sI {}).retireOf 0 (p 0 9)).any (fun r => r.po) = false ∧
       ((sI { retire := [{ frame := 0x100000, tier3 := false, count := 1, po := true }] }).retireOf 0 (p 0 9)).any (fun r => r.po) = true) ∧
    ((List.range w2.delivered).find? (fun j => j % (walkForm w2.req).slots == 1 && !w2.rel.contains j) = some 1 ∧ w2.rel.length + 1 < w2.list.length ∧
      (List.range w3.delivered).find? (fun j => j % (walkForm w3.req).slots == 0 && !w3.rel.contains j) = some 2 ∧ w3.list.length ≤ w3.rel.length + 1 ∧
      (sI {}).captureHolds (walkForm w3.req).done = false ∧ pteGen ((sI {}).pte 0x20008) = 0 ∧ locOf 0x20008 = .mem 0 0x20008 ∧
      ptePin ((sI {}).pte 0x20008) = 1 ∧ ((sI {}).ind 0).staging = []) ∧
    (((sI { staging := [g] }).ind 0).staging[0]? = some g ∧ g.ready = false ∧ pteGen ((sI {}).pte g.pte) = g.gen) := by
  decide +kernel

theorem witness_PageTablesChangeAsOrdered :
    let inParts := fun a => match locOf a with
      | .mem p _ => natBit 1 p
      | .store p _ => natBit 1 p
      | _ => false
    let q := seqOf seqB
    let op := editOp (editB.drop 64)
    let s := sI { edits := [{ addr := 0x12000 }] }
    let o := up { sI {} with ctxs := [], unlocked := [(8, true)] }
    let z := (((sI { t3Free := [0x800000000000], awake := true }).setReg .hifT3Lo 0 0 49).setReg .indSpill 0 0 1)
    (s.indOn 0 = true ∧ batchFree s 0 { addr := 0x12000 } = true ∧ s.devRead 0x12000 80 = editB ∧ s.editCheck (fun a len => inParts a && inParts (a + len - 1)) 1 0x12000 = 0 ∧ s.sep.save = none ∧
      ((((s.setInd 0 {}).demandUnit (.ind 0)).knowSeq 0 0x10000).editAll 0 q [op]).isSome = true) ∧
    (o.blkOpen .ind 0 = true ∧ o.lockOpen .ind 0 = true ∧ (o.setReg .indCtrl 0 0 0).indOn 0 = false) ∧
    ((z.ind 0).t3Free = [0x800000000000] ∧ (z.ind 0).spill = none ∧ (z.ind 0).devFree.length < z.fld .indSpill 0 0 15 0 ∧ z.indOn 0 = true ∧
      z.frameOk 0 true 0x800000000000 (z.frameBytes 0) = true ∧ natBit (z.reg .indCtrl 0 0).toNat 1 = false ∧ (z.ind 0).awake = true) ∧
    (pteGen (z.pte 0x20000) = 0 ∧ ptePin (z.pte 0x20000) = 0 ∧ ptePin (z.pte 0x20008) = 1) ∧
    (let a := (sI { edits := [{ addr := 0x12000, core := some (0, 0) }] }).rawWrite 0x12040 [1]
     a.editCheck (fun a len => inParts a && inParts (a + len - 1)) 1 0x12000 = 0 ∧
       (((a.setInd 0 {}).demandUnit (.ind 0)).knowSeq 0 0x10000).editAll 0 q [editOp (a.devRead 0x12040 16)] = none ∧
       batchFree a 0 { addr := 0x12000, core := some (0, 0) } = true ∧
       batchFree (a.setCore 0 { c0 with vwq := [vw0] }) 0 { addr := 0x12000, core := some (0, 0) } = false ∧
       s.editCheck (fun a len => inParts a && inParts (a + len - 1)) 1 0x12001 ≠ 0) ∧
    ((s.ind 0).swept ≠ ({ s with tim := { now := 1000000000 } } : State).tim.now.toNat / 1000000000 ∧ (s.ind 0).swept = s.tim.now.toNat / 1000000000) := by
  decide +kernel
/-- Of three pages of which one is unpinned, that one is the first candidate of a spill. -/
theorem witness_PageTablesChangeAsOrdered_candidate :
    ((((s0.rawWrite 0x20000 (pteB 0x100000 0 ++ pteB 0x101000 1 ++ pteB 0x102000 62)).setReg .indPool 0 0 1).setReg .indDevFrames 0 0 4).setReg
      .indPoolCfg 0 0 16).candidates 0 = [0x20000] := by decide +kernel

/-! ## Host commands, saves, admission, sleep, time -/

/-- A host command of queue pair 15 on slot 0, and a READY device whose pair 15 has one command waiting and room for its completion. -/
def hc : HostCmd := { q := 15, slot := 0, cid := 7, addr := 0x10000 }
def sH (x : Ctx) : State :=
  (((up { ctxs := [(0, x)] } : State).setReg .hifQCfg 0 15 0x222).setReg .hifSqDb 0 15 1).setReg .gctCtrl 0 0 0x100
/-- A context descriptor of slot 0 on partition 3 with DEBUG clear and REFMODE set (R250). -/
def descB : List Byte := [0, 8, 1, 5] ++ List.replicate 60 0

/-- Every command of the table of accepted states, in a state that takes it and one that does not. -/
theorem witness_HostCommandsActOnTheirSlot :
    let f := (sH {}).rawWrite 0x10000 descB
    let b := sH { x0 with st := .bound }
    let prog : Prog := { cert := {}, tL := 5000000, p := 6000000, p0 := 6000000 }
    let tk (s : State) : State := (s.takeCmd 15).getD {}
    ((sH {}).setReg .hifSqDb 0 15 0).takeCmd 15 = none ∧ (({ sH {} with hif := { d3hot := true } } : State).takeCmd 15 = none) ∧
    ((sH {}).takeCmd 15).isSome = true ∧ (tk (sH {})).slotBusy 0 = false ∧ ((tk (sH {})).ctx 0).st = .free ∧
    (natBit ((tk f).reg .gctCtrl 0 0).toNat 8 = true ∧ (tk f).cmdAddrOk 0x10000 64 = true ∧ descFields ((tk f).devRead 0x10000 64) 0 = true ∧
      (partsOf (BitVec.ofNat 4 (leField ((tk f).devRead 0x10000 64) 1 1))).all (fun p => (tk f).partFree p) = true ∧
      natBit (leField ((tk f).devRead 0x10000 64) 2 2) 1 = false) ∧
    (((tk b).ctx 0).st = .bound ∧ (tk b).ctxMem 0 0x10000 (128 * 1) = true ∧ (tk b).devPo 0x10000 128 = false ∧ ((tk b).ctx 0).admitted = none ∧
      (tk b).ctxMem 0 0x10000 (128 * 4096) = true) ∧
    (((tk (sH { x0 with st := .halted })).ctx 0).st = .halted) ∧
    ((tk b).tim.now.toNat + (tk b).fld .timWakeLead 0 0 15 0 < prog.tL ∧
      5000000 ≤ ({ tk b with tim := { now := 5000000 } } : State).tim.now.toNat + (tk b).fld .timWakeLead 0 0 15 0) ∧
    ((b.ctx 0).checking = none ∧ (tk b).certAddrOk 0 0x10000 = true) := by
  decide +kernel
theorem test_load : let t := after (exec (.load { hc with arg0 := 128 }) ({ sH { x0 with st := .bound } with mem := { bytes := [(0x10000, 9), (0x1007F, 1)] } } : State))
    (AMap.get 0 0 (t.core 95).imem).toNat = 9 + 2 ^ 1016 := by decide +kernel

theorem witness_SavesAndRestoresOfContexts :
    let b := sH { x0 with st := .bound }
    let u := (b.takeCmd 15).getD {}
    let r : Restore := { q := 0, cid := 0, src := 0x800000000000, todo := [(0x1000, 64, [])] }
    let g := ({ b with ctxs := [(0, { x0 with st := .bound, restore := some { r with peer := some 9 } })] } : State)
    let h := ((g.setReg .sepDescLo 0 0 0x10000).rawWrite 0x10000 [1]).rawWrite 0x10020 (leBytes 8 0x400000 ++ leBytes 8 0x400000)
    ((b.takeCmd 15).isSome = true ∧ u.slotBusy 0 = false ∧ (u.ctx 0).st = .bound ∧ u.cmdAddrOk 0x10000 64 = true ∧ (u.ctx 0).admitted = none) ∧
    (u.imageAt 0x10000 = none ∧ (u.ctx 0).save = none ∧ ({ u with ctxs := [(0, { x0 with st := .halted })] } : State).cmdAddrOk 0x10000 64 = true) ∧
    (u.sep.save = none ∧ u.manifestAt (u.ckDest 0 0) = none) ∧
    (let q : SaveReq := { instr := false, stop := true, buf := 0x10000, q := 15, cid := 7 }
     let z := ({ b with ctxs := [(0, { x0 with st := .bound, save := some q })] } : State)
     (z.ctx 0).save = some q ∧ z.atBoundary 0 q = true ∧ (z.ctx 0).saveq = [] ∧
       (z.setCtx 0 { z.ctx 0 with st := .running }).atBoundary 0 q = false) ∧
    ((g.ctx 0).restore = some { r with peer := some 9 } ∧ (h.descRegions 0)[0]? = some (0x400000, 0x400000, false) ∧ (h.ctx 0).restore = (g.ctx 0).restore) := by
  decide +kernel

/-- A buffer of tier 3 in which the bytes of an image stand, whatever they are, and the command that restores it. -/
theorem witness_SavesAndRestoresOfContexts_image (i : Image) :
    let b := i.header ++ i.body
    let z : State := { ((sH { x0 with st := .bound }).setReg .hifT3Lo 0 0 49).setReg .hifT3Hi 0 0 1 with
      host := ({} : Mem).setBytes 0x100000000 b, images := [i] }
    ∃ u, z.takeCmd 15 = some u ∧ u.slotBusy 0 = false ∧ (u.ctx 0).st = .bound ∧ (u.ctx 0).admitted = none ∧ u.cmdAddrOk 0x800000000000 64 = true ∧
      u.imageAt 0x800000000000 = some i := by
  intro b z
  have hl : locOf 0x800000000000 = .tier3 0 0 := by decide +kernel
  have hm : locOf (0x800000000000 + 64 - 1) = .tier3 0 63 := by decide +kernel
  have hp : ∀ n, z.host.readPo 0x100000000 n = false := fun n => by simp [z, Mem.readPo]
  have hr : z.host.read 0x100000000 b.length = b := Mem.read_setBytes b {} 0x100000000
  let u : State := z.setQueue 15 { z.queue 15 with sqHead := ((z.queue 15).sqHead + 1) % z.sqSize 15 }
  let v : State := ((sH { x0 with st := .bound }).setReg .hifT3Lo 0 0 49).setReg .hifT3Hi 0 0 1
  have hv : v.t3Host 0 0 = some 0x100000000 := by decide +kernel
  have hw : ∀ (a b : State) (w o : Nat), a.regs = b.regs → a.variant = b.variant → a.t3Host w o = b.t3Host w o := fun a b w o h1 h2 => by
    cases a; cases b; cases h1; cases h2; rfl
  have ht : u.t3Host 0 0 = some 0x100000000 := (hw u v 0 0 rfl rfl).trans hv
  have hd : ∀ n, u.devPo 0x800000000000 n = false := fun n => by
    simp only [State.devPo, hl, ht]
    exact hp n
  let stays := fun (a : State) => !natBit (a.reg .hifStatus 0 0).toNat 0 ∨ !natBit (a.reg .hifQCfg 0 15).toNat 9 ∨ a.cqFull 15 ∨
    (a.queue 15).sqHead = a.fld .hifSqDb 0 15 11 0 ∨ a.hif.d3hot
  have hs : ∀ a b : State, a.regs = b.regs → a.variant = b.variant → a.hif = b.hif → (stays a ↔ stays b) := fun a b h1 h2 h3 => by
    cases a; cases b; cases h1; cases h2; cases h3; exact Iff.rfl
  have hc : ¬ stays v := by decide +kernel
  have hk : z.takeCmd 15 = some u := if_neg (fun h => hc ((hs z v rfl rfl rfl).mp h))
  refine ⟨u, hk, rfl, rfl, rfl, ?_, ?_⟩
  · have h63 : u.t3Host 0 63 = some 0x10000003F := (hw u v 0 63 rfl rfl).trans (by decide +kernel)
    simp [State.cmdAddrOk, hl, hm, hd, ht, h63]
  · have hu : u.devRead 0x800000000000 b.length = b := by
      simp only [State.devRead, hl, ht]
      exact hr
    have hq : (u.devRead 0x800000000000 b.length == b && !u.devPo 0x800000000000 b.length) = true := by
      rw [hu, hd, beq_self_eq_true]; rfl
    have hi : u.images = [i] := rfl
    have hh : u.headless.contains 0x800000000000 = false := rfl
    exact (if_neg (by rw [hh]; exact Bool.false_ne_true)).trans ((congrArg (List.find? _) hi).trans (List.find?_cons_of_pos hq))

/-- Slot 0 bound with a descriptor at 0x10000 of one region of 4 MiB that saves to tier 3 (R407, R408). -/
def sS (w : Option Save) : State :=
  (((((({ up { ctxs := [(0, { x0 with st := .bound, savePending := true, ckptOk := true, regions := [(0x400000, 0x400000, false)] })] } with
      sep := { save := w } } : State).rawWrite 0x10000 ([1, 0, 0, 0, 0, 0, 0, 0] ++ leBytes 8 0x800000000000)).rawWrite 0x10020
    (leBytes 8 0x400000 ++ leBytes 8 0x400000)).setReg .sepDescLo 0 0 0x10000).setReg .sepDescHi 0 0 0x10000).setReg .hifT3Lo 0 0 97).setReg .sepCtrl 0 0 0x101

theorem witness_SepiaSavesInOrder :
    let w : Save := { slot := 0, target := 0, dest := 0x800000000000, todo := [((0, 0, 64), 0)] }
    let z : Save := { w with todo := [], agreed := some 1 }
    let v : W32 := 0
    let x : W64 := 60000000000
    (((sS none).ctx 0).st ≠ .free ∧ natBit ((sS none).reg .sepCtrl 0 0).toNat 0 = true ∧
      ((sS none).ctx 0).saveTimer.toNat + (sS none).fld .sepCtrl 0 0 12 8 * 60000000000 ≤ x.toNat) ∧
    ((sS none).blkOpen .sep 0 = true ∧ ((sS none).ctx (v.toNat % 4)).st ≠ .free ∧ (4 : Nat) / 4 % 4 = 1 ∧ (8 : Nat) / 4 % 4 = 2 ∧ (12 : Nat) / 4 % 4 = 3) ∧
    ((sS (some w)).sep.save = some w ∧ w.slot = 0 ∧ (sS (some w)).blkOpen .sep 0 = true) ∧
    ((sS none).saveReady 0 = true ∧ (sS none).descOk 0 = true ∧ ((sS none).ctx 0).boundary = false ∧ ((sS none).ctx 0).savePeer = none ∧
      ((sS none).ckDest 0 0).1.isSome = false) ∧
    (((sS (some w)).ctx w.slot).regions[0]? = some (0x400000, 0x400000, false) ∧ (sS (some w)).devPo 0x400000 64 = false ∧
      ((sS (some w)).toDest w (2 ^ 22) 0x400000 (List.replicate 64 0)).2 = true ∧
      ((sS (some w)).toDest { w with dest := 0 } (2 ^ 22) 0x400000 (List.replicate 64 0)).2 = false) ∧
    (z.todo = [] ∧ z.agreed.isSome = true ∧ ((sS (some z)).toDest z 0 0 ((sS (some z)).manifest z)).2 = true) := by
  decide +kernel
/-- The one piece that is left is the next one, whatever the free value is, and one of two on which a write waits comes before the other. -/
theorem witness_SepiaSavesInOrder_next :
    let w : Save := { slot := 0, target := 0, dest := 0x800000000000, todo := [((0, 0, 64), 0)] }
    let p : Save := { w with todo := [((0, 0, 64), 0), ((0, 64, 64), 1)], wanted := [1] }
    (sS (some w)).nextPiece w = some ((0, 0, 64), 0) ∧ (sS (some p)).pieceWanted p ((0, 64, 64), 1) = true ∧
      ((sS (some w)).draw.demandReads [(0x400000, 64)]).devPo 0x400000 64 = false ∧ w.staged = none ∧
      ({ w with staged := some 0x800000 } : Save).staged = some 0x800000 := by
  refine ⟨?_, by decide +kernel, by decide +kernel, rfl, rfl⟩
  have h : ∀ (s : State) (v : Save) (q : (Nat × Nat × Nat) × Nat), v.todo = [q] → s.pieceWanted v q = false → s.nextPiece v = some q :=
    fun s v q h1 h2 => by simp [State.nextPiece, h1, h2, Nat.mod_one]
  exact h _ _ _ rfl (by decide +kernel)

/-- A save to a peer device starts at once. -/
theorem witness_SepiaSavesInOrder_start :
    let s := (sS none).rawWrite 0x10008 (leBytes 8 (2 ^ 63 + 5))
    s.saveReady 0 = true ∧ s.descOk 0 = true ∧ (s.ckDest 0 (s.saveTarget 0)).1.isSome = true ∧ (s.ctx 0).st = .bound := by
  decide +kernel

/-- A certificate of one partition of 96 cores, D = 1,000 ns, with `nr` records that follow; its CRC computed (R316). -/
def certB (nr : Nat) (body : List Byte) : List Byte :=
  let h := leBytes 4 0x4C584331 ++ leBytes 2 1 ++ [0, 1] ++ leBytes 2 96 ++ [64, 1] ++ leBytes 8 1000 ++ List.replicate 32 5 ++ leBytes 2 nr ++
    List.replicate 66 0
  h ++ leBytes 8 (crc64 (h ++ body)).toNat ++ body
/-- A record of the issue slots of core 96, which a context of 96 cores does not have (R317). -/
def recB : List Byte := [1, 0, 96, 0, 1, 0, 0, 0] ++ leBytes 8 0 ++ leBytes 8 10 ++ List.replicate 8 0
def sub0 : Submission := { q := 15, cid := 7, addr := 0x10000, tL := 0 }
def sA (b : List Byte) : State :=
  ({ ctxs := [(0, { x0 with st := .bound, image := some (List.replicate 32 5, 128), checking := some sub0 })] } : State).rawWrite 0x10000 b

set_option maxRecDepth 20000 in
theorem witness_SubmissionsAreDecidedAndProgramsLaunched :
    let chk (s : State) (n tL : Nat) := (admissionChecks s 0 (s.devRead 0x10000 n) (s.devPo 0x10000 n) tL).find? (fun e => !e.2)
    let s0' (s : State) := s.setCtx 0 { s.ctx 0 with checking := none }
    let a := sA (certB 0 [])
    let r := sA (certB 1 recB)
    let g : Prog := { cert := {}, tL := 500, p := 1500, p0 := 1500 }
    ((a.ctx 0).checking = some sub0 ∧ sub0.post = true ∧ certLen (a.devRead 0x10000 128) = 128 ∧ certLen (r.devRead 0x10000 128) = 160) ∧
    (chk a 128 0 = none ∧ (s0' a).capacityFail 0 64000 (certOf (a.devRead 0x10000 128)) none = none) ∧
    (chk a 128 63999 = some (0x06, false) ∧ chk (sA (certB 0 [] ++ [])) 128 64000 = none ∧ chk (sA (List.replicate 128 0)) 128 0 = some (0x01, false)) ∧
    (chk r 160 0 = none ∧ ((s0' r).capacityFail 0 64000 (certOf (r.devRead 0x10000 160)) none).isSome = true) ∧
    ((({ ctxs := [(0, { x0 with st := .bound, admitted := some g })] } : State).ctx 0).admitted = some g ∧ g.chained = false ∧ 0 < g.tL ∧ g.thr = none ∧
      ({ g with thr := some (600, 1000, 8) } : Prog).thr = some (600, 1000, 8) ∧ g.tL < 600) ∧
    ((({ ctxs := [(0, { x0 with running := some g })], tim := { now := 1501 } } : State).ctx 0).running = some g ∧ g.overrun = false ∧ g.p < 1501) := by
  decide +kernel

theorem witness_UnitsSleepWakeAndAreTested :
    let l : LaunchEnt := { unit := 0, part := 0, index := 0, start := 0, stop := 100 }
    let g : Prog := { cert := { launches := [l] }, tL := 5000, p := 9000, p0 := 9000 }
    let s : State := { s0 with ctxs := [(0, { x0 with running := some g })], tim := { now := 5050 } }
    let o : State := { s with tim := { now := 5100 } }
    let idle : State := { s0 with ctxs := [] }
    (dueUnits s 0 ≠ [] ∧ s.sleeping (.core 0 0) = true ∧ (s.unitWindows (.core 0 0)).any (fun w => decide (w.1 ≤ s.tim.now.toNat ∧ s.tim.now.toNat < w.2)) = true ∧
      (o.unitWindows (.core 0 0)).any (fun w => decide (w.1 ≤ o.tim.now.toNat ∧ o.tim.now.toNat < w.2)) = false ∧
      (s.setSleep (.core 0 0) false).sleeping (.core 0 0) = false) ∧
    (idle.partSlot 0 = none ∧ idle.unitHeld (.core 0 7) = false ∧ o.inGap (.core 0 0) = true ∧ (s.partSlot 0).isSome = true ∧ s.inGap (.core 0 0) = false ∧
      ({ idle with links := [(3, { inv := some inv0 })] } : State).unitHeld (.link 3) = true) ∧
    (idle.coreState 96 = .spare ∧ s.coreState 5 = .inService ∧ s.partSlot 0 = some 0 ∧ (s.ctx 0).running.isSome = true ∧ (s.lcore 5).isSome = true) ∧
    (natBit (idle.reg64 .memRetiredLo .memRetiredHi 19 0) 63 = false) := by
  decide +kernel
/-- A stack that a running program's record names is not free within it, however long a calibration takes, and a link and a stack of a partition that
no context has are. -/
theorem witness_UnitsSleepWakeAndAreTested_taken (len : Nat) :
    let g : Prog := { cert := { recs := [{ cls := 3, part := 0, index := 0, amount := 1, start := 0, stop := 100 },
      { cls := 5, part := 0, index := 0, amount := 1, start := 0, stop := 100 }], parts := 1 }, tL := 0, p := 1000, p0 := 1000 }
    let s : State := { s0 with ctxs := [(0, { x0 with running := some g })] }
    mayCalibrate s 0x03 0 0 len = false ∧ mayCalibrate s 0x05 0 0 len = false ∧ mayCalibrate {} 0x05 3 11 len = true ∧
      mayCalibrate {} 0x03 3 4 len = true := by
  intro g s
  have hs : s.partSlot 0 = some 0 := by decide +kernel
  have hr : (s.ctx 0).running.isNone = false := rfl
  have hm : (s.others none).map (fun r => (r.cls, r.p, r.idx % 64, r.lo, r.hi)) = [(3, 0, 0, 0, 100), (5, 0, 0, 0, 100)] := by decide +kernel
  have ha : ∀ (f : Nat × Nat × Nat × Nat × Nat → Bool),
      (s.others none).all (fun r => f (r.cls, r.p, r.idx % 64, r.lo, r.hi)) = [(3, 0, 0, 0, 100), (5, 0, 0, 0, 100)].all f := fun f => by
    rw [← hm, List.all_map]; rfl
  have hl : 0 < max 1 len := by omega
  have he : (({} : State).partSlot 3) = none := by decide +kernel
  have h : ∀ cls p idx, mayCalibrate s cls p idx len = ((match s.partSlot p with
      | none => true
      | some x => (s.ctx x).running.isNone) || [(3, 0, 0, 0, 100), (5, 0, 0, 0, 100)].all
        (fun r => !(r.1 == cls && r.2.1 == p && r.2.2.1 == idx && decide (r.2.2.2.1 < 0 + max 1 len ∧ 0 < r.2.2.2.2)))) := fun cls p idx => by
    rw [← ha]; rfl
  refine ⟨?_, ?_, ?_, ?_⟩
  · simp [h, hs, hr, hl]
  · simp [h, hs, hr, hl]
  · unfold mayCalibrate; rw [he]; rfl
  · unfold mayCalibrate; rw [he]; rfl

/-- A member of the synchronisation tree with up link 3, in a state of R308, with a count of good measurements. -/
def sT0 (state good now : Nat) : State :=
  ((((up {} : State).setReg .timCtrl 0 0 1).setReg .timSyncCfg 0 0 3).setReg .lnkStatus 3 0 2).setTim
    { state := state, good := good, now := BitVec.ofNat 64 now }
def sync0 (tx rx : Nat) : SyncFlit := { tTx := tx, tRx := rx, seq := 0, master := 9, hops := 15 }

theorem witness_DeviceTimeIsCorrectedSentAndRead_SyncCorrectsDeviceTime :
    (∀ st ∈ [1, 2, 3], (sT0 st 7 0).linkUp 3 = true ∧ memberOn (sT0 st 7 0) 3 = true ∧ (sT0 st 7 0).anyProgram = false) ∧
    ((sT0 1 7 0).linkUp 4 = false ∧ memberOn ((sT0 1 7 0).setReg .timSyncCfg 0 0 4) 3 = false) ∧
    (({ sT0 2 0 0 with ctxs := [(0, { x0 with running := some { cert := {}, tL := 0, p := 9, p0 := 9 } })] } : State).anyProgram = true) ∧
    (sT0 1 7 0).fld .timPath 0 0 23 0 = 0 := by
  decide +kernel
/-- The eighth SYNC whose θ is 4 ns locks; one of 4 ns and 1/256 does not; without a program a SYNC 2,001 ns ahead steps the counter. -/
theorem test_sync : ((after (exec (.sync 3 (sync0 0 1024)) (sT0 1 7 9))).tim.state, (after (exec (.sync 3 (sync0 0 1025)) (sT0 1 7 9))).tim.state,
    (after (exec (.sync 3 (sync0 (2001 * 256) 0)) (sT0 1 7 9))).tim.now, (after (exec (.sync 3 (sync0 0 1024)) (sT0 1 7 9))).fld .timStatus 0 0 11 8) =
    (2, 1, 2010, 15) := by decide +kernel

theorem witness_DeviceTimeIsCorrectedSentAndRead_DeviceTimeIsSentKeptAndRead :
    let cr (s : State) : State := s.setLink 3 { credits := [(0, 1)] }
    let m := cr (((sT0 4 0 1000000).setReg .timDownLo 0 0 8).setReg .timCtrl 0 0 6)
    let d := (cr (sT0 2 0 64000000)).setTim { state := 2, now := 64000000, delayT1 := some 10 }
    let f : DelayResp := { t1 := 10, t2 := 30, t3 := 40, t4 := 80 }
    let w := ({ up {} with unlocked := [(1, true)], tim := { now := 5 } } : State)
    ((sT0 1 0 0).tim.state ≠ 2 ∧ (sT0 1 0 0).tim.state ≠ 4) ∧
    (m.tim.state = 4 ∧ syncDue m = true ∧ syncDue (m.setTim { m.tim with now := 1000002 }) = false ∧ m.downLinks = [3] ∧ timely m 3 = true) ∧
    (memberOn d 3 = true ∧ d.tim.lastDelay.toNat + 64000000 ≤ d.tim.now.toNat ∧ timely d 3 = true ∧ timely (d.recvTime 3 { bits := 6 }) 3 = true) ∧
    (d.linkUp 3 = true ∧ f.crcOk = true ∧ d.tim.delayT1 = some f.t1 ∧ d.reg .lnkAsym 3 0 = 0 ∧ ((f.t4 : Int) - f.t1) - ((f.t3 : Int) - f.t2) = 2 * (30 : Nat)) ∧
    ((sT0 2 0 5000000).tim.lastSync.toNat + 5000000 ≤ (sT0 2 0 5000000).tim.now.toNat ∧
      (sT0 3 0 100000000).tim.holdStart.toNat + 100000000 ≤ (sT0 3 0 100000000).tim.now.toNat) ∧
    (natBit (m.reg .timCtrl 0 0).toNat 2 = true ∧ m.tim.lastPps.toNat + 2500000000 ≤ ({ m.tim with now := 2500000000 } : Tim).now.toNat ∧ m.tim.ppsLost = false) ∧
    (w.blkOpen .tim 0 = true ∧ w.lockOpen .tim 0 = true ∧ w.anyProgram = false ∧ w.tim.now.toNat ≤ (0 : W32).toNat * 2 ^ 32 + 2 ^ 31 ∧
      (w.reg .timSetLo 0 0).toNat < w.tim.now.toNat) ∧
    ((up {}).lockOpen .tim 0 = false) ∧
    (∀ r : LatchPair, r ∈ [.timNow, .timPpsCap, .timPromise 3, .timLaunch 3, .memUeAddr 19, .sepCkDigest 3, .gctCtxTime 3] →
      w.blkOpen (pairOf w r).1.info.blk (pairOf w r).2.2.1 = true) := by
  decide +kernel
/-- d = ((t4 − t1) − (t3 − t2)) / 2 = (70 − 10) / 2. -/
theorem test_delay : (after (exec (.delayResp 3 { t1 := 10, t2 := 30, t3 := 40, t4 := 80 })
    ((sT0 2 0 0).setTim { state := 2, delayT1 := some 10 }))).fld .timPath 0 0 23 0 = 30 := by decide +kernel

/-! ## Memory stacks, host accesses, links, health -/

/-- Symbols in error in the unit at 0x10000000. -/
def sErr (e : List (Nat × Byte)) : State := { up {} with mem := { errs := [(0x400000, e)] } }
theorem witness_StacksAreRepairedAndRegionsArmed_StacksAreScrubbedAndRepaired :
    let m := ((up {}).setReg .memCtrl 19 0 0x80103)
    let c := m.setStack 19 { repairs := [7], rowErr := [(3, 7)] }
    (scrubs ((up {}).setReg .memCtrl 19 0 0) 19 = false ∧ scrubs m 19 = true ∧ unlogged { m with regs := (m.setReg .errCtrl 0 0 0).regs }) ∧
    (rowErrors m 19 3 + 1 < (m.setReg .memCtrl 19 0 0x80103).fld .memCtrl 19 0 23 16 ∧ c.fld .memCtrl 19 0 23 16 ≤ rowErrors c 19 3 + 1 ∧
      natBit (c.reg .memCtrl 19 0).toNat 1 = true) ∧
    ((c.stack 19).repairs.contains 7 = true ∧ (c.stack 19).repairs.contains 8 = false) ∧
    ((sErr []).tim.now.toNat / 1024 * 1024 = ((sErr []).stack 19).frame ∧ (1000000 / 1024 * 1024 ≠ ((sErr []).stack 19).frame)) ∧
    ((({ parts := [(3, { pwr := .ret })], tim := { now := 1000000 } } : State).part (19 / 5)).pwr ≠ .idle ∧ ((c.part (19 / 5)).pwr = .idle)) := by
  unfold unlogged
  decide +kernel
/-- A unit with one symbol in error is corrected, one with six is not, and one with none is as scrub finds it. -/
theorem witness_StacksAreRepairedAndRegionsArmed_StacksAreScrubbedAndRepaired_finding :
    (sErr [(3, 1)]).mem.finding 0x400000 = .fixed [(3, 1)] ∧ (sErr [(0, 1), (1, 2), (2, 3), (3, 4), (4, 5), (5, 6)]).mem.finding 0x400000 = .bad ∧
    finds (sErr []) 0x10000000 .clean .clean := by
  unfold finds
  decide +kernel
/-- Partition 0 READY with entry 15 written but not armed, its context bound. -/
def sP (ctrl : W32) : State := (up (regs15 { ctxs := [(0, { x0 with st := .bound })] })).setReg .memVwrCtrl 0 15 ctrl

theorem witness_StacksAreRepairedAndRegionsArmed_RegionsAreArmedAndDrained :
    (sP 0).partOpen 0 = true ∧ ({} : State).partOpen 0 = false ∧ ((sP 0).region 0 15).draining = false ∧ ((sP 0).region 0 15).armed = false ∧
    ((sP 1).region 0 15).armed = true ∧ ((sP 1).region 0 15).draining = false ∧ ((sP 7).region 0 15).draining = true ∧ ((sP 7).region 0 15).invalid = true ∧
    (natBit (1 : W32).toNat 0 = true ∧ natBit (2 : W32).toNat 0 = false) := by
  decide +kernel
theorem witness_StacksAreRepairedAndRegionsArmed_RegionsAreArmedAndDrained_armable : armable (sP 0) 0 15 :=
  ⟨by decide +kernel, by decide +kernel, by decide +kernel, by decide +kernel, by decide +kernel, by decide +kernel, by decide +kernel, by decide +kernel, 0,
    by decide +kernel, by decide +kernel⟩
/-- An entry of 32 KiB cannot be armed, nor one that an armed entry overlaps. -/
theorem witness_StacksAreRepairedAndRegionsArmed_RegionsAreArmedAndDrained_not : ¬ armable ((sP 0).setReg .memVwrBaseHi 0 15 0xF0000) 0 15 := by
  intro h
  exact absurd h.1 (by decide +kernel)

/-- The windows closed: no access reaches anything. -/
theorem witness_HostAccessesAndCompletions_closed :
    let s : State := { up {} with hif := { linkUp := true } }
    s.hif.linkUp = true ∧ s.hostAddr .hdm 0 64 = none ∧ ({ s with hif := { linkUp := true, d3hot := true } } : State).hif.d3hot = true := by decide +kernel
/-- The windows open, where the config block gives the HDM window a size of 64 bytes or more: an access of one unit reaches the memory under it. -/
theorem witness_HostAccessesAndCompletions_open (h : 64 ≤ Config.hdmBytes) : ∀ e ∈ ([[], [(3, 1)]] : List (List (Nat × Byte))),
    let s : State := ({ sErr e with hif := { linkUp := true } } : State).setReg .hifHdm 0 0 0x80000001
    reaches s .hdm 0 64 0x10000000 ∧ locOf 0x10000000 = .mem 0 0x10000000 ∧ locOf (0x10000000 + 64 - 1) = .mem 0 (0x10000000 + 64 - 1) ∧
    s.captureHolds 0x10000000 = false ∧ s.hostRefuses 0x10000000 = false ∧ s.retired 0x10000000 = false ∧ s.hostReach 0x10000000 = true := by
  intro e he
  have H : ∀ e ∈ ([[], [(3, 1)]] : List (List (Nat × Byte))),
      let s : State := ({ sErr e with hif := { linkUp := true } } : State).setReg .hifHdm 0 0 0x80000001
      s.hif.linkUp = true ∧ s.hif.d3hot = false ∧ s.captureHolds 0x10000000 = false ∧ s.hostRefuses 0x10000000 = false ∧ s.retired 0x10000000 = false ∧
      s.hostReach 0x10000000 = true ∧ natBit (s.reg .hifHdm 0 0).toNat 31 = true ∧ s.fld .hifHdm 0 0 19 0 * 2 ^ 28 + 0 = 0x10000000 := by
    decide +kernel
  obtain ⟨a, b, c, d, f, g, h1, h2⟩ := H e he
  refine ⟨⟨a, b, by decide, ?_, by decide⟩, by decide +kernel, by decide +kernel, c, d, f, g⟩
  simp only [State.hostAddr, h1, Nat.zero_add, h, and_self, if_true, h2]
/-- The same access of memory under an armed region, and of an address that is not mapped. -/
theorem witness_HostAccessesAndCompletions_refused :
    (sP 1).hostRefuses 0x10000 = true ∧ (sP 1).hostReach 0x300000000000 = false ∧ (sP 1).retired 0x10000 = false ∧
    (let r := (up {}).setReg .memRetiredLo 0 0 1
     r.retired 0 = true ∧ r.hostRefuses 0 = false ∧ r.mem.finding 0 = .clean) := by decide +kernel
theorem witness_HostAccessesAndCompletions_awaited :
    let q : T3Req := { tag := 4, host := 0, len := 64, core := 0, dst := [(false, 0x1000, 0, 64)] }
    let s : State := ({ s0 with cores := [(0, { c0 with xfers := [{ kind := 0, t3 := [4] }] })], hif := { t3 := [q] } } : State).setReg .hifCtrl 0 0 1
    awaited s 4 q 0x1000 ∧ q.len = 64 ∧ s.tim.now.toNat < q.time + 1000000 * s.fld .hifCtrl 0 0 7 0 ∧
    q.time + 1000000 * s.fld .hifCtrl 0 0 7 0 ≤ ({ s with tim := { now := 1000000 } } : State).tim.now.toNat := by
  unfold awaited
  decide +kernel

def fl0 : Flit := { typ := 1, tc := 2 }
/-- Link 3 UP with two flits unacknowledged and one credit of class 1. -/
def sL (l : Link) : State := (up (s0.setLink 3 l)).setReg .lnkStatus 3 0 2
def lk0 : Link := { replay := [(0, fl0), (1, fl0)], credits := [(1, 8)] }

theorem witness_LinksRetryTrainAndGoDown_LinksAcknowledgeAndRetry :
    ((sL lk0).linkUp 3 = true ∧ portIdle (sL lk0) 3 = true ∧ (sL lk0).linkUp 4 = false) ∧
    (credits (sL lk0) 3 { bits := 0x28000000 } = true ∧ credits ((sL lk0).setReg .lnkCrdAlloc 3 0 0x100) 3 { bits := 0x28000000 } = false) ∧
    (FlitHead.typ { bits := 0x28000000 } = 0 ∧ FlitHead.typ { bits := 0x28000004 } = 4 ∧ FlitHead.typ { bits := 0x28000001 } ≠ 0 ∧ credits (sL lk0) 3 { bits := 4 } = true ∧
      FlitHead.ack { bits := 4 } = 0) ∧
    (unacked lk0 0 = [(1, fl0)] ∧ unacked lk0 1 = [] ∧ unacked lk0 9 = lk0.replay) ∧
    (resendsAfter { lk0 with resends := 1 } 9 + 1 < retryMax ((sL lk0).setReg .lnkCfg 3 0 3) 3 ∧
      retryMax ((sL lk0).setReg .lnkCfg 3 0 3) 3 ≤ resendsAfter { lk0 with resends := 2 } 9 + 1) ∧
    (((sL lk0).link 3).replay ≠ [] ∧ ((sL lk0).link 3).ackTime.toNat + 100 * ((sL lk0).setReg .lnkCfg 3 0 0).fld .lnkCfg 3 0 15 8 ≤ (sL lk0).tim.now.toNat) := by
  decide +kernel

theorem witness_LinksRetryTrainAndGoDown_LinksTrainAndGoDown :
    let d : State := { up {} with unlocked := [(12, true)] }
    let t (l : Link) (ctrl : W32) : State := ((sL l).setReg .lnkStatus 3 0 1).setReg .lnkCtrl 3 0 ctrl
    let u : State := { t {} 1 with ctxs := [(0, { x0 with colls := [(5, { live := true, links := [3] })] })] }
    let v : W32 := d.reg .lnkCrdAlloc 3 0
    (d.blkOpen .link 3 = true ∧ d.lockOpen .link 3 = true ∧ natBit (d.reg .lnkCtrl 3 0).toNat 0 = false ∧ d.linkState 3 = 0 ∧
      d.mgmt.kat.contains 403 = false ∧ (d.part (3 / 12)).pwr = .idle ∧ (up {}).lockOpen .link 3 = false) ∧
    (crdEntries v 0 + crdEntries v 1 + crdEntries v 2 + crdEntries v 3 = 4096 ∧ crdEntries 0 0 + crdEntries 0 1 + crdEntries 0 2 + crdEntries 0 3 ≠ 4096) ∧
    ((sL lk0).linkUp 3 = true ∧ (sL lk0).blkOpen .link 3 = true ∧ ((sL lk0).setReg .lnkStatus 3 0 4).linkState 3 = 4 ∧
      ((sL lk0).setReg .lnkStatus 3 0 4).blkOpen .link 3 = true) ∧
    (64 < ((sL { lk0 with lostWords := List.replicate 65 1 }).recentLost 3).length ∧ ((sL lk0).recentLost 3).length ≤ 64) ∧
    ((t lk0 1).linkState 3 = 1 ∧ portIdle (t lk0 1) 3 = true ∧ ((12 : BitVec 4).extractLsb' 2 2 == 3#2) = true ∧ natBit ((t lk0 9).reg .lnkCtrl 3 0).toNat 3 = true ∧
      natBit ((t lk0 1).reg .lnkCtrl 3 0).toNat 3 = false) ∧
    (((t { lk0 with fast := true } 1).link 3).fast = true ∧ (u.link 3).fast = false ∧ u.linkUsed 0 3 = true ∧ (u.ctx 0).st = .running) := by
  decide +kernel

/-- Channel 5 of slot 0 with a buffer of one run of 64 bytes posted for device 9. -/
def ch0 : Chan := { posted := true, src := 9, runs := [(0x1000, 64)], mseq := 0xFFFFFFFF }
def sM0 (v : Chan) (l : List Sending) : State := { sL lk0 with ctxs := [(0, { x0 with chans := [(5, v)], sending := l })] }
/-- The header of a PUT message with SEQ 0. -/
def putX : FlitHead := { bits := 0x21 }
def pm0 : PutMsg := { src := 9, slot := 0, ch := 5, mseq := 0xFFFFFFFF, offset := 0, data := List.replicate 64 1 }

theorem witness_MessagesAreDeliveredAndForwarded :
    let q : Sending := { core := 0, slot := 0, ch := 5, dst := 9, data := [1], po := [false] }
    let f : State := ((sM0 ch0 []).setReg .lnkStatus 5 0 2).setLink 5 { credits := [(1, 8)] }
    let r (hops hptr dst : Nat) : RawMsg := { dst := BitVec.ofNat 12 dst, src := 1, hops := hops, hptr := hptr, route := [4, 5], tc := 1, data := [0] }
    let m : OutMsg := { tc := 1, flits := [fl0], fwd := some (2, 0) }
    ((sM0 ch0 []).inSeq 3 putX 1 2 = true ∧ (sM0 ch0 []).inSeq 3 putX 2 2 = true ∧ (sM0 ch0 []).inSeq 3 { bits := 0xA1 } 1 2 = false ∧
      (sM0 ch0 []).inSeq 3 { bits := 0xA1 } 2 2 = false ∧ (sM0 ch0 []).inSeq 3 { bits := 0x11 } 2 1 = true ∧ (sM0 ch0 []).inSeq 3 putX 2 1 = false) ∧
    ((0xFFFFFFFE - ch0.mseq).msb = true ∧ ((pm0.mseq - ch0.mseq).msb || pm0.offset != ch0.got) = false ∧ (64 != ch0.got) = true) ∧
    ((sM0 ch0 []).linkUp 3 = true ∧ (sM0 ch0 []).deaf 0 = false ∧ (sM0 ch0 []).deaf 1 = true ∧ (sM0 ch0 []).linkUp 4 = false) ∧
    (expects (sM0 ch0 []) pm0 = true ∧ expects (sM0 ch0 []) { pm0 with src := 8 } = false ∧ ch0.mseq = pm0.mseq ∧ runsLen ch0.runs < 65 ∧
      expects (sM0 { ch0 with mseq := 0 } []) pm0 = true ∧ ch0.dev = false ∧ pm0.offset + pm0.data.length ≤ 64) ∧
    (((sM0 ch0 [q]).ctx 0).sending.find? (fun e => e.ch == 5 && e.dst == 9 && !e.gone) = some q ∧
      (((sM0 ch0 [q]).recvMsg 3 putX 1 2).ctx 0).sending.find? (fun e => e.ch == 5 && e.dst == 9 && !e.gone) = some q ∧
      ((sM0 ch0 [{ q with gone := true }]).ctx 0).sending.find? (fun e => e.ch == 5 && e.dst == 9 && e.gone) = some { q with gone := true }) ∧
    ((r 2 3 7).hops < (r 2 3 7).hptr ∧ (r 2 1 7).hptr < (r 2 1 7).hops ∧ ((r 2 1 7).route.map (fun e => e.val)).getD 1 63 = 5 ∧ f.linkUp 5 = true ∧
      ((r 2 0 7).route.map (fun e => e.val)).getD 0 63 = 4 ∧ f.linkUp 4 = false ∧ portIdle f 3 = true ∧ portIdle f 5 = true ∧ (f.link 5).replay.length < 1023 ∧
      0 < AMap.get 0 1 (f.link 5).credits ∧ f.devId = 0) ∧
    (((sL { lk0 with queue := [m] }).link 3).queue.find? (fun e => e.tc == 1) = some m ∧
      (sL lk0).tim.now.toNat < (0 : W64).toNat + 1000 * ((sL lk0).setReg .lnkCfg 3 0 0x10000).fld .lnkCfg 3 0 31 16) := by
  decide +kernel
/-- A PUT_DATA in order fills the buffer. -/
theorem test_putData : let t := after (exec (.putData 3 putX pm0) (sM0 ch0 []))
    ((t.core 0).loc.read 0x103F 2, (t.chan 0 5).full, (t.chan 0 5).mseq) = ([1, 0], true, 0) := by decide +kernel

theorem witness_CoresAreTestedAndStepsReplayed :
    let s (c : CoreState) (o : Nat) : State := ({ sL lk0 with ctxs := [(0, { x0 with running := some { cert := {}, tL := 0, p := 9, p0 := 9 } })], cores := [(96, { owed := o })] } : State).setCoreState 96 c
    let h : State := (({ up {} with ctxs := [(0, { x0 with st := .halted, status := stSdc, replayCert := some 0x10000 })] } : State).setReg .errCtxCfg 0 0 16).setCoreState 5 .suspect
    ((s .testing 0).inTest 96 0 = true ∧ (s .spare 0).inTest 96 0 = false ∧ (s .testing 0).partBusy 0 = true ∧ (s .testing 0).coreState 96 = .testing ∧
      (s .suspect 2).inTest 96 0 = true ∧ (s .suspect 2).coreState 96 = .suspect) ∧
    ((h.ctx 0).st = .halted ∧ natBit (h.reg .errCtxCfg 0 0).toNat 4 = true ∧ (h.ctx 0).replayed = false ∧ (h.ctx 0).replayCert = some 0x10000 ∧
      (h.ctx 0).status = stSdc ∧ h.suspects 0 = [5] ∧ h.coreIn 0 .spare = some 96 ∧
      ∀ p, p ∈ partsOf (h.ctx 0).parts → ((h.suspects 0).filter (fun m => m / 100 == p)).length ≤ h.countIn p .spare) ∧
    ((up {}).ctx 0).replayCert = none := by
  decide +kernel

/-- Slot 0 running in a check group of devices 8 and 9, at a comparison for step 7. -/
def sG (c : Ctx) : State :=
  ((({ up {} with ctxs := [(0, c)] } : State).rawWrite 0x400000000000 [8, 0, 9, 0]).setReg .sepCkGroup 0 0 2)
def cg : Ctx := { x0 with cmpDone := false, ownDigest := some (7, 5) }

theorem witness_ReplicasAgreeOrEnd :
    let g : Ctx := { cg with digests := [(8, 7, 5)] }
    let v : Ctx := { cg with digests := [(8, 7, 6), (9, 7, 6)], cmpVote := some [8, 9], shardLists := [(8, [])] }
    ((sG cg).ckGroup 0 = [8, 9] ∧ (cg.st ≠ .free ∧ cg.st ≠ .halted ∧ cg.cmpVote = none) ∧ (sG cg).ckGroup 1 = []) ∧
    (allIn (withDigest (sG cg) 0 8 7 5) 0 = false ∧ allIn (withDigest (sG g) 0 9 7 5) 0 = true ∧
      (((withDigest (sG g) 0 9 7 5).ctx 0).reports).all (fun e => e.2 == 5) = true ∧ (((withDigest (sG g) 0 9 7 6).ctx 0).reports).all (fun e => e.2 == 5) = false) ∧
    (cg.cmpStart.toNat + 1000000 ≤ (1000000 : W64).toNat ∧ (g.reports).all (fun e => e.2 == 5) = true ∧
      (({ cg with digests := [(8, 7, 6)] } : Ctx).reports).all (fun e => e.2 == 5) = false) ∧
    (v.cmpVote = some [8, 9] ∧ [8, 9].contains 9 = true ∧ v.shardLists.any (fun e => e.1 == 9) = false ∧ [8, 9].length ≤ v.shardLists.length + 1 ∧
      ([] : List (Nat × List W64)).length + 1 < [8, 9].length ∧ v.st = .running) ∧
    (strictMajority ((5 : W64) :: (v.reports).map (fun e => e.2)) = some 6 ∧ strictMajority ([5, 5, 6] : List W64) = some 5 ∧
      strictMajority ([5, 6, 7] : List W64) = none) := by
  decide +kernel

theorem witness_HealthIsMonitored :
    let e : SensorReading := { cls := 0, part := 3, inst := 0, raw := 50 }
    let s : State := ((((up { ctxs := [(0, x0)] } : State).setReg .ochDerate 0 0 1).setReg .sepCtrl 0 0 2).setReg .ochCtrl 0 0 0xFFFF0000)
    let w : State := { s with och := { sensors := [(sensorKey 0 3 0, 50)], means := (List.range 30).map (fun i => (65536 * i, 0)) } }
    (s.fld .ochCtrl 0 0 7 0 = 0 ∧ s.och.armed = true ∧ natBit (s.reg .sepCtrl 0 0).toNat 1 = true ∧ (s.ctx 0).st ≠ .free) ∧
    (derates (sensed s [e]) 3 = true ∧ derates (up {}) 3 = false) ∧
    (w.och.means.length = 30 ∧ s.och.means.length < 7 ∧ (w.lifeVals (fun _ => 0)).2 < w.fld .ochCtrl 0 0 31 16) := by
  decide +kernel
/-- With no wear anywhere the risk is 0, below a threshold of 255 by more than a hysteresis of 4, where no used spare row stands for 0 %. -/
theorem witness_HealthIsMonitored_low (h : Config.rowPercent 0 = 0) : riskOf (sensed {} []) = 0 := by
  have hs : ∀ p i, (sensed {} []).rawOf 2 p i = 0 := fun _ _ => h
  have hp : ∀ p, (sensed {} []).partStress 2 p = ((List.range 5).map (fun _ => stressOf 2 0 ((sensed {} []).countIn p .failed))).foldl max 0 := by
    intro p
    simp only [State.partStress, State.instances, State.stressAt, hs]
  have h2 : (sensed {} []).classStress 2 = 0 := by
    simp only [State.classStress, hp]
    decide +kernel
  have h0 : ∀ c ∈ [0, 1, 3, 4, 5, 6], (sensed {} []).classStress c = 0 := by decide +kernel
  have hl : (List.range 7).map (fun c => (sensed {} []).classStress c) = (List.range 7).map (fun _ => 0) := by
    refine List.map_congr_left (fun c hc => ?_)
    rcases Decidable.em (c = 2) with rfl | h2'
    · exact h2
    · refine h0 c ?_
      have : c < 7 := List.mem_range.mp hc
      simp only [List.mem_cons, List.not_mem_nil, or_false]
      omega
  simp only [riskOf, hl]
  decide

/-- A digest of another core for the same pass that is the same, one that is not, and two that decide against it. -/
theorem witness_CoresAreTestedAndStepsReplayed_decided (s : State) (r : TestResult) :
    let q (v : W64) : TestDone := { core := 5, pass := r.pass, digest := v }
    let d := digestOf s r
    ([q d].filter (fun e => e.pass == r.pass && e.core != 96)) = [q d] ∧ [q d].any (fun e => e.digest == d) = true ∧
    ([q (d + 1)].filter (fun e => e.pass == r.pass && e.core != 96)) = [q (d + 1)] ∧ [q (d + 1)].any (fun e => e.digest == d) = false ∧
    ([q (d + 1), q (d + 1)].filter (fun e => e.pass == r.pass && e.core != 96)).length = 2 ∧ [q (d + 1), q (d + 1)].any (fun e => e.digest == d) = false := by
  intro q d
  simp [q]

/-! ## Resets, boot, power, management, BAR0, the whole machine -/

/-- A running device with no error logging: a context with an admitted program, an armed region, a third reset of partition 0 within a second. -/
def sR0 : State :=
  ({ sP 1 with ctxs := [(0, x0)], parts := [(0, { resets := [1, 2] })], tim := { now := 1000000000 } } : State).setReg .errCtrl 0 0 0

theorem witness_ResetsActOnTheirScope_PartitionsAreReset :
    (3 ≤ sR0.stage ∧ sR0.pwr.tripped = false ∧ unlogged sR0 ∧ 2 ≤ ((sR0.part 0).resets.filter (fun t => decide (1000000000 < t.toNat + 1000000000))).length) ∧
    ((sR0.region 0 15).armed = true ∧ (sR0.region 0 15).ownerPart = 0 ∧ sR0.partSlot 0 = some 0 ∧ (sR0.ctx 0).st = .running ∧ sR0.sep.save = none) ∧
    (∀ x, x < 4 → (sR0.ctx x).admitted = none) ∧
    ((({ parts := [(3, { resetting := true })] } : State).part 3).resetting = true ∧ (sR0.part 3).resetting = false ∧
      sR0.blkOpen .umb 0 = true ∧ partsOf 8 = [3] ∧ ({} : State).stage < 3 ∧ ({} : State).blkOpen .umb 0 = false) := by
  unfold unlogged
  decide +kernel
set_option maxRecDepth 20000 in
/-- A partition reset takes partition 0 offline at the third time; the region is INVALID and the context drains. -/
theorem test_partition_reset : let t := after (exec (.partitionReset 0 { source := 3 }) sR0)
    ((t.part 0).offline, (t.region 0 15).armed, (t.region 0 15).invalid, (t.ctx 0).status, t.reg .errLastReset 0 0) = (true, false, true, stReset, 3) := by
  decide +kernel

theorem witness_ResetsActOnTheirScope_DeviceAndHostLinkAreReset :
    mayWarm sR0 = true ∧ unlogged sR0 ∧ mayWarm {} = false ∧ sR0.blkOpen .umb 0 = true ∧ ({} : State).blkOpen .umb 0 = false ∧ (sR0.ctx 1).st = .free ∧
    (sR0.ctx 0).st ≠ .free ∧ locOf 0 = .mem 0 0 ∧ locOf 0x400000000000 = .store 0 0 ∧ ({} : State).stage = 0 ∧ ({} : State).mgmt.recovery = false ∧ (∀ p, p < 4 → sR0.ilv p = true) ∧ sR0.hif.t3 = [] := by
  unfold unlogged
  decide +kernel
/-- A device reset keeps device memory, zeroes the store, keeps device time. -/
theorem test_device_reset : let s : State := { sR0 with mem := { bytes := [(5, 7), (0x400000000003, 9)] } }
    let t := after (exec (.deviceReset { source := 3 }) s)
    (t.mem.byte 5, t.mem.byte 0x400000000003, t.tim.now, t.reg .umbRstCause 0 0 % 8, (t.ctx 0).st, t.reg .errLastReset 0 0) =
      (7, 0, 1000000000, 4, .halted, 259) := by decide +kernel

/-- Bank 0 of the flash with an image of one empty component, its SHA-384 in the header, SVN 255 (R438, R440). -/
def flash0 : List Byte := leBytes 4 0x4C584657 ++ leBytes 4 9 ++ [255, 0, 0, 1, 0, 0, 0, 0] ++ List.replicate 16 0 ++
  leBytes 48 0x5bb99848f1d21ad5fb656fe7bfde4e27dae1f663bfc70c4c4307be1411b7fd216ae3b1b17e32d94c3896ac51a760b038
def pins (s : State) : State := { s with mgmt := { s.mgmt with pins := [(0, true)] } }

/-- The bank boots where the fused keys accept it, whatever else they hold. -/
theorem witness_DeviceBootsAndPartitionsRest_bank (hk : Config.keyHashOk 0 = true) (hr : Config.keyRevoked 0 = false) (hv : ∀ d g, Config.ecdsaVerifies 0 d g = true)
    (hs : Config.fusedMinSvn ≤ 255) :
    let s : State := { mgmt := { flash := (flash0.zipIdx.map (fun e => (e.2, e.1))).filter (fun e => e.2 != 0) } }
    s.bankOk 0 = true := by
  intro s
  have h0 : (leField (s.flashRead 0 1024) 0 3 == 0x4C584657) = true := by decide +kernel
  have h1 : leField (s.flashRead 0 1024) 10 10 = 0 := by decide +kernel
  have h2 : leField (s.flashRead 0 1024) 11 11 = 1 := by decide +kernel
  have h3 : leField (s.flashRead 0 1024) 8 8 = 255 := by decide +kernel
  have h4 : (List.range 1).all (fun i =>
      let c := ((s.flashRead 0 1024).drop (16 + 64 * i)).take 64
      decide (leField c 4 7 + leField c 8 11 ≤ 0x1000000) &&
        sha384 (s.flashRead (0 + leField c 4 7) (leField c 8 11)) == c.drop 16) = true := by decide +kernel
  have h5 : s.minSvn ≤ 255 := Nat.max_le.mpr ⟨hs, by decide⟩
  unfold State.bankOk
  simp only [Nat.zero_mul, h1, h2, h3, hk, hr, hv, h0, h4]
  simp [h5]
theorem witness_DeviceBootsAndPartitionsRest :
    let b : State := up (({} : State).setReg .hifStatus 0 0 5)
    let w : State := ({ up {} with parts := [(3, { pwr := .ret, waking := true })] } : State)
    let refused (s : State) (v : W32) := (List.range 4).any (fun q => decide (2 ≤ asked v q) && !s.mayRest q)
    (({} : State).stage = 0 ∧ ({} : State).mgmt.recovery = false ∧ ({} : State).pwr.tripped = false ∧ (up {}).stage ≠ 0 ∧ ({} : State).bankOk 0 = false ∧
      ({} : State).bankOk (1 - 0) = false ∧ ({} : State).mgmt.active = 0) ∧
    ((({} : State).setReg .hifStatus 0 0 4).stage = 2 ∧ b.stage ≠ 2) ∧
    ((up {}).blkOpen .umb 0 = true ∧ ({} : State).blkOpen .umb 0 = false ∧ refused sR0 2 = true ∧ refused (up {}) 0xFA = false ∧ asked 0xFA 0 = 2 ∧ asked 0xFA 2 = 3 ∧
      refused (up {}) 0xAA = false ∧ (∀ q, q < 4 → 2 ≤ asked 0xAA q) ∧ (up {}).clocksStopped = false ∧ ((up {}).setReg .timCtrl 0 0 1).role = 1) ∧
    ((w.part 3).waking = true ∧ (w.part 3).pwr ≠ .idle ∧ refused w 0x40 = false ∧ asked 0x40 3 = 1 ∧ ((up {}).part 3).waking = false) ∧
    (({ mgmt := { preparing := true } } : State).mgmt.preparing = true) ∧ allAnswer (up {}) ∧
    (let bad : State := { up {} with parts := [(3, { pwr := .ret, waking := true, regBad := true })] }
     (bad.part 3).regBad = true ∧ (w.part 3).regBad = false ∧ (bad.part 3).waking = true ∧ (∀ q, q < 4 → asked 0xC0 q = 2 → (bad.part q).regBad = false)) := by
  unfold allAnswer
  decide +kernel

theorem witness_PowerAndHeatAreLimited :
    let s : State := ((up {}).setReg .umbPwrLimit 0 0 0x050032).setReg .umbTherm 0 0 95
    (overPower s 45001 = true ∧ overPower s 45000 = false ∧ underPower s 30000 = false ∧ underPower s 29999 = true ∧ 8 < s.pwr.k) ∧
    (({ below := 98 } : Pwr).below < 99 ∧ 99 ≤ ({ below := 99 } : Pwr).below ∧ ({ k := 8 } : Pwr).k ≤ 8) ∧
    (s.pwr.tripped = false ∧ s.mgmt.powerOn = false ∧ [109, 110].any (fun c => decide (110 ≤ c)) = true ∧ [109, 96, 95, 89].any (fun c => decide (110 ≤ c)) = false ∧
      s.fld .umbTherm 0 0 7 0 = 95 ∧ AMap.get 0 1 s.pwr.hot = 0 ∧ 8 < (s.part 1).kTherm ∧ 95 ≤ 90 + 5 ∧ 89 + 5 < 95) := by
  decide +kernel
theorem test_heat : let s : State := (up {}).setReg .umbTherm 0 0 95
    let t := after (execThermalSample [96, 95, 90, 89] (s.setPwr { cool := [(3, 9999)] }))
    ((t.part 0).kTherm, (t.part 1).kTherm, (t.part 2).kTherm, (t.part 3).kTherm, (after (execThermalSample [110, 0, 0, 0] s)).pwr.tripped) = (15, 16, 16, 16, true) := by
  decide +kernel

theorem witness_ManagementRequestsAreAnswered :
    let s (m : Mgmt) : State := ({ mgmt := m } : State).setReg .hifStatus 0 0 2
    (updates {} = false ∧ updates { mgmt := { recovery := true } } = true ∧ manages { mgmt := { recovery := true } } = false ∧ manages (s {}) = true) ∧
    ((s {}).mgmt.update = none ∧ (s { update := some 1, updateOk := true }).mgmt.update = some 1 ∧ natBit (leField [1] 0 0) 0 = true ∧
      natBit (leField [0] 0 0) 0 = false ∧ mayWarm (s { powerOn := false, update := some 1 }) = true) ∧
    (leField [5, 0] 0 1 = 5 ∧ ((s {}).sensorValue 5).isSome = true ∧ ((s {}).sensorValue 0xFFFF) = none ∧ ([5, 0, 0] : List Byte).length ≠ 2) ∧
    ((s {}).mgmt.spdm < 3 ∧ 3 ≤ (s { spdm := 3 }).mgmt.spdm ∧ leField [4] 0 0 = 4 ∧ leField [255] 0 0 = 0xFF ∧ 4 < leField [5] 0 0 ∧ leField [0] 0 0 = 0) := by
  decide +kernel
/-- GET_VERSION, GET_CAPABILITIES and NEGOTIATE_ALGORITHMS in order; GET_CAPABILITIES first is an error. -/
theorem test_spdm : let s := ({} : State).setReg .hifStatus 0 0 2
    ((after (execGetVersion [] s)).mgmt.spdm, (after (execGetCapabilities [] (after (execGetVersion [] s)))).mgmt.spdm, (after (execGetCapabilities [] s)).mgmt.spdm) =
      (1, 2, 0) := by decide +kernel

theorem witness_QueuesWindowsAndTokens :
    let s := sH {}
    let off := (up {}).setReg .hifQCfg 0 15 0
    let c : Cpl := { q := 15, cid := 7, result := 0, status := 0, reason := 0, v0 := 0, v1 := 0 }
    let g : State := { s with hif := { held := [c], queues := [(15, { cqTail := 3 })] } }
    (hifOpen s = true ∧ hifOpen {} = false ∧ bitsOf (3 : W32) 11 0 < s.sqSize 15 ∧ s.sqSize 15 ≤ bitsOf (4 : W32) 11 0 ∧ bitsOf (3 : W32) 11 0 < s.cqSize 15 ∧
      s.cqSize 15 ≤ bitsOf (4 : W32) 11 0 ∧ s.hif.held = []) ∧
    (g.hif.held = [c] ∧ natBit (g.reg .hifQCfg 0 15).toNat 9 = true ∧ ((g.queue 15).cqTail + 1) % g.cqSize 15 ≠ bitsOf (1 : W32) 11 0 % g.cqSize 15) ∧
    (natBit (off.reg .hifQCfg 0 15).toNat 9 = false ∧ (2 ≤ bitsOf (0x2CC : W32) 3 0 ∧ bitsOf (0x2CC : W32) 7 4 ≤ 12) ∧ bitsOf (0x221 : W32) 3 0 < 2 ∧
      12 < bitsOf (0x2D2 : W32) 7 4) ∧
    (sR0.anyProgram = false ∧ ({ up {} with ctxs := [(0, { x0 with running := some { cert := {}, tL := 0, p := 9, p0 := 9 } })] } : State).anyProgram = true ∧
      12 ≤ bitsOf (0x31 : W32) 7 2 ∧ bitsOf (0xAD : W32) 7 2 = 43 ∧ bitsOf (0x2D : W32) 7 2 = 11 ∧ bitsOf (0xB1 : W32) 7 2 = 44) ∧
    (8 ≤ (s.setReg .hifDbgStatus 0 0 0x800).fld .hifDbgStatus 0 0 11 8 ∧ s.fld .hifDbgStatus 0 0 11 8 < 8 ∧ s.tokenFails ≠ []) := by
  decide +kernel

theorem witness_RegistersAreWrittenByTheirCodes :
    let s : State := { up {} with unlocked := [(0, true)] }
    let e : State := (((s.setReg .gctEvtPend 0 0 0x200).setReg .gctEvtMask 0 0 0x200).setReg .gctCtrl 0 0 1).setHif { msix := [(25, (0x1000, 7, false))] }
    let b : State := { up {} with ctxs := [(0, { x0 with debug := true })], cores := [(0, { c0 with flight := [0, 2] })] }
    (b.debugCore 0 = true ∧ (b.core 0).flight.contains 0 = true ∧ (b.core 0).flight.contains 1 = false ∧ (b.core 0).flight.contains (2 + 0) = true ∧
      b.blkOpen .core 0 = true) ∧
    ((5 : Nat) % 4 ≠ 0 ∧ Lock.ofOffset 0xFFFFFFC = none ∧ Reg.ofOffset 0xFFFFFFC = none ∧ 0x21400 ≤ 0xFFFFFFC) ∧
    (Reg.ofOffset (Reg.addr .gctDevId 0 0) = some (.gctDevId, 0, 0) ∧ Reg.addr .gctDevId 0 0 % 4 = 0 ∧ Lock.ofOffset (Reg.addr .gctDevId 0 0) = none ∧
      startsMore .gctDevId = false ∧ s.blkOpen (Reg.info .gctDevId).blk 0 = true ∧ s.writeIgnored .gctDevId 0 0 1 = false ∧
      (sL lk0).writeIgnored .gctDevId 0 0 1 = true ∧ Reg.addr .gctDevId 0 0 < 0x21000) ∧
    (Lock.ofOffset 0xFFC = some .gct ∧ Lock.ofOffset 0x600FFC = some .mem ∧ s.lockAnswers .gct = true ∧ ({} : State).lockAnswers .gct = false) ∧
    (natBit (e.reg .gctEvtMask 0 0).toNat 9 = true ∧ natBit (e.reg .gctEvtPend 0 0).toNat 9 = true ∧ natBit (e.reg .gctCtrl 0 0).toNat 0 = true ∧
      (AMap.get (0, 0, true) 25 e.hif.msix).2.2 = false) ∧
    (krmOpen s = true ∧ krmOpen {} = false ∧ (s.ctx 3).st = .free ∧ ((sP 1).ctx 0).st ≠ .free ∧ (sP 1).anyArmed = true ∧ s.anyArmed = false ∧
      s.lockOpen .krm 0 = false ∧ ({ s with unlocked := [(6, true)] } : State).lockOpen .krm 0 = true) ∧
    (natBit (s.reg .krmStatus 0 0).toNat 3 = false ∧ natBit ((s.setReg .krmStatus 0 0 8).reg .krmStatus 0 0).toNat 3 = true) ∧
    (s.blkOpen .core 399 = true ∧ ({} : State).blkOpen .core 399 = false) := by
  decide +kernel

theorem witness_NothingIsRefusedAndStatusesEndContexts :
    let f : State := s0.setCoreState 5 .fused
    let i : Instr := .add { i := { k := ⟨0, 5⟩ } }
    let p : Issue := hdr k0 2 false
    let e : State := s0.setCore 0 { cE with epochs := [e0] }
    safe (.add { i := h0 }) s0 = true ∧ (i.issueOf = some { k := ⟨0, 5⟩ } ∧ f.coreState 5 = .fused) ∧
    (s0.coreState 399 ≠ .fused ∧ s0.issuer 399 = none) ∧ (({ h0 with more := true } : Issue).more = true ∧ h0.more = false) ∧ (runs s0 k0 0 = true ∧ noEpoch s0 k0 = true ∧ ({ h0 with rsv := true } : Issue).rsv = true) ∧
    (runs e k0 0 = true ∧ (e.core 0).epochs = [e0] ∧ (e.core 0).cur = some e0.tag) ∧
    (p.rsv = false ∧ ((s0.core 0).preg p.pred.val).2 = true) ∧
    (lanewise (.add { i := hdr k0 0 true }) = false ∧ predIs s0 (hdr k0 0 true) false = true) := by
  decide +kernel
set_option maxRecDepth 20000 in
/-- A reserved bit ends the context with ILLEGAL_INSTRUCTION at the word of the slot. -/
theorem test_reserved : let t := after (exec (.add { i := { h0 with rsv := true } }) s0)
    ((t.ctx 0).st, (t.ctx 0).status, (t.ctx 0).fault.word) = (.draining, stIllegal, 4095) := by decide +kernel


/-- The first command of a word collected, a word that fetches badly, a wait of LWAIT, an odd VLD address, p2 poisoned; and the WMM of R289 in slot 3. -/
theorem witness_WideInstructionsActAsOne :
    let add := Instr.add { i := { h0 with more := true }, rd := 8, ra := 1, rb := 1 }
    let bad := Instr.add { i := { h0 with more := true, rsv := true }, rd := 8, ra := 1, rb := 1 }
    let jump := Instr.jmp { i := { h0 with more := true }, tgt := 7 }
    let w (l : List Instr) (b : List Nat) : State := { s0 with cores := [(0, { c0 with word := l, badWords := b })] }
    (issues s0 k0 0 = true ∧ issues (w [add] []) k0 0 = true ∧ issues (w [] [4095]) k0 0 = true) ∧
    ((s0.core 0).word = [] ∧ ((w [add] []).core 0).word = [add] ∧ ((w [jump] []).core 0).word = [jump] ∧ ((w [bad] []).core 0).word = [bad]) ∧
    ((!(s0.core 0).badWords.contains (s0.core 0).pc.toNat) = true ∧ (!((w [] [4095]).core 0).badWords.contains ((w [] [4095]).core 0).pc.toNat) = false) ∧
    (noEpoch s0 k0 = true ∧ ((s0.core 0).preg 2).2 = true ∧ (s0.core 0).rel = [] ∧ (s0.core 0).wait = .none ∧ s0.eventDone 0 5 0 = false ∧
      (sr s0 k0 1).2 = false ∧ (sr s0 k0 1).1.toNat % 2 = 1) ∧
    (let q (i : BitVec 1024) : State := { s0 with cores := [(0, { c0 with imem := [(4095, i)] })] }
     AMap.get 0 4095 ((q 0xFF).core 0).imem = 0xFF ∧ (s0.core 0).imem = [] ∧
     AMap.get 0 4095 ((q (BitVec.ofNat 1024 (0x0000000808C00002 * 2 ^ (128 * 3)))).core 0).imem = BitVec.ofNat 1024 (0x0000000808C00002 * 2 ^ (128 * 3))) := by
  decide +kernel
theorem witness_StepRunsTheFrontCommand :
    ({ pending := [.add { i := h0 }] } : State).pending = .add { i := h0 } :: [] ∧ ({} : State).pending = [] ∧ ({} : State).mgmt.powerOn = true ∧
    ((up {}).mgmt.powerOn = false ∧ (up {}).clocksStopped = false ∧ (up {}).tim.rate = 0 ∧ (up {}).tim.frac < 2 ^ 32) ∧
    ((up ({} : State) |>.setPwr { tripped := true }).clocksStopped = true) := by decide +kernel
theorem witness_EveryStepKeepsTheInvariant : canonical State.reset ∧ step State.reset = .next State.reset := ⟨⟨rfl, rfl⟩, rfl⟩
theorem test_decode : decodeTableWord 32 0 = none ∧ State.withFetchWord s0 32 0 = s0 := ⟨rfl, rfl⟩
theorem test_step_queue : (after (step { s0 with pending := [.add { i := h0, rd := 8, ra := 1, rb := 1 }, .bringUpReady] })).pending = [.bringUpReady] ∧
    ((after (step { s0 with pending := [.add { i := h0, rd := 8, ra := 1, rb := 1 }, .bringUpReady] })).core 0).sreg 8 = (10, false) := by decide +kernel

/-! ## Slots of instruction memory -/

/-- The WMM of R289, its first eight bytes 02 00 C0 08 08 00 00 00: opcode 0x02 in slot 3, TD 3, START set, G 1. -/
theorem test_decode_wmm : decodeSlot k0 3 (BitVec.ofNat 128 (leField [0x02, 0x00, 0xC0, 0x08, 0x08, 0x00, 0x00, 0x00] 0 7)) =
    some (.wmm { i := { k := k0 }, td := 3, start := true, g := 1 }) := by decide +kernel

/-! ## WellFormed: an ill-formed term for each check -/

/-- Each check refuses the first operand beyond its range. -/
theorem wf_refuses :
    let fh : FlitHead := { bits := 1 }
    let cm : CollMsg := { src := 0, slot := 0, ch := 0 }
    let pm : PutMsg := { src := 0, slot := 0, ch := 0 }
    let rm : RawMsg := { dst := 0, src := 0, hops := 0, hptr := 0, route := List.replicate 15 0, tc := 0 }
    let bad : List Instr :=
      [.collChunkReceive 0 fh { cm with first := 2 ^ 64 }, .collChunkReceive 0 fh { cm with elems := [0] },
       .calibration (.stack 0 [] [64]), .sync 0 (sync0 (2 ^ 72) 0), .sync 0 (sync0 0 (2 ^ 72)), .delayReq 0 { head := fh, t1 := 2 ^ 72 } true,
       .delayResp 0 { t1 := 2 ^ 72, t2 := 0, t3 := 0, t4 := 0 }, .delayResp 0 { t1 := 0, t2 := 2 ^ 72, t3 := 0, t4 := 0 },
       .delayResp 0 { t1 := 0, t2 := 0, t3 := 2 ^ 72, t4 := 0 }, .delayResp 0 { t1 := 0, t2 := 0, t3 := 0, t4 := 2 ^ 72 },
       .scrub 0 (2 ^ 30) .clean, .rowRepairDone 0 (2 ^ 25), .hostRead .bar2 (2 ^ 64) 1, .hostRead .bar2 0 0, .hostRead .bar2 0 4097,
       .hostWrite .hdm 0 [] false, .hostWrite .hdm 0 (List.replicate 513 0) false, .t3Completion 1024 .error, .t3Completion 0 (.data (List.replicate 4097 0) false),
       .t3CompletionTimeout 1024, .putReq 0 fh { pm with offset := 2 ^ 64 }, .putGo 0 fh { pm with poison := [true] },
       .putData 0 fh { pm with data := List.replicate 65 0, poison := [false] }, .putDone 0 fh { pm with data := List.replicate 4097 0, poison := List.replicate 65 false },
       .messageForward 0 fh { rm with hops := 256 }, .messageForward 0 fh { rm with hptr := 256 }, .messageForward 0 fh { rm with data := List.replicate 4160 0, poison := List.replicate 65 false },
       .messageForward 0 fh { rm with route := [] }, .shardListReceive 0 0 [], .saveStreamReceive 0 0 0 0 [] false, .t3WindowWrite 2 0, .t3WindowWrite (2 ^ 28) 0,
       .boot [2068], .thermalSample [0, 0, 0], .lockWrite 0xFFE 0, .registerWrite (2 ^ 28) { size := 4, v := 0 }, .flitFailed 0 .crc 1024,
       .twinDigestReceive 0 0 (List.replicate 513 0), .cxlSnoop (2 ^ 64)]
    bad.all (fun i => !i.wf) = true ∧ bad.length = 39 := by
  decide +kernel
/-- The same terms within their ranges pass, with the elements of a full chunk message. -/
theorem wf_accepts :
    let fh : FlitHead := { bits := 1 }
    let good : List Instr :=
      [.collChunkReceive 0 fh { src := 0, slot := 0, ch := 0, first := 2 ^ 64 - 1, elems := List.replicate 2048 0, poison := List.replicate 64 false },
       .calibration (.stack 0 [] [63]), .sync 0 (sync0 (2 ^ 72 - 1) (2 ^ 72 - 1)), .hostRead .bar2 (2 ^ 64 - 1) 4096, .scrub 0 (2 ^ 30 - 1) .clean,
       .putData 0 fh { src := 0, slot := 0, ch := 0, data := List.replicate 4096 0, poison := List.replicate 64 false }, .boot [2067], .thermalSample [0, 0, 0, 0],
       .lockWrite 0xFFC 0, .registerWrite 2 { size := 4, v := 0 }, .registerWrite (2 ^ 28 - 1) { size := 1, v := 0 }, .flitFailed 0 .crc 1023, .cxlSnoop (2 ^ 64 - 1), .add { i := h0 }]
    good.all (fun i => i.wf) = true := by
  decide +kernel
/-- The sizes of a chunk message and of the digest list. -/
theorem wf_refuses_long : (CollMsg.ok { src := 0, slot := 0, ch := 0, elems := List.replicate 2049 0, poison := List.replicate 65 false }) = false := by decide +kernel

end Sys2Proof.Tests
end

section
/-! SUPPORT. What the verdict operations of Machine/Verdict.lean do under the default policy (R146 to R152, R204). -/

namespace Sys2Proof.Machine

open Sys2Proof.Claim

/-! ## Fields of little-endian bytes -/

@[simp] theorem length_leBytes (n v : Nat) : (leBytes n v).length = n := by
  induction n generalizing v with
  | zero => rfl
  | succ n ih => simp [leBytes, ih]

theorem ofLeBytes_leBytes (n v : Nat) : ofLeBytes (leBytes n v) = v % 256 ^ n := by
  induction n generalizing v with
  | zero => simp [leBytes, ofLeBytes, Nat.mod_one]
  | succ n ih =>
    simp only [leBytes, ofLeBytes, ih, BitVec.toNat_ofNat]
    rw [Nat.pow_succ' (m := 256), Nat.mod_mul]

/-- A field whose bytes all stand in the first part of a list. -/
theorem leField_append_left (l r : List Byte) (lo hi : Nat) (h : hi < l.length) : leField (l ++ r) lo hi = leField l lo hi := by
  unfold leField
  by_cases hlo : lo ≤ hi
  · rw [List.drop_append_of_le_length (by omega), List.take_append_of_le_length (by simp; omega)]
  · simp [show hi + 1 - lo = 0 by omega]

/-- A field whose bytes are the last part of a list. -/
theorem leField_append_right (l r : List Byte) (lo hi : Nat) (hl : l.length = lo) (hr : r.length = hi + 1 - lo) :
    leField (l ++ r) lo hi = ofLeBytes r := by
  unfold leField
  rw [← hl, List.drop_left, hl, ← hr, List.take_length]

theorem leField_byte (b : List Byte) (i : Nat) : leField b i i = (b.getD i 0).toNat := by
  unfold leField
  rw [show i + 1 - i = 1 by omega, List.getD_eq_getElem?_getD, ← List.head?_drop]
  cases b.drop i <;> rfl

theorem leField_byte_lt (b : List Byte) (i : Nat) : leField b i i < 256 := by
  rw [leField_byte]
  exact (b.getD i 0).isLt

theorem natBit_eq_testBit (n i : Nat) : natBit n i = n.testBit i := by
  rw [Nat.testBit_eq_decide_div_mod_eq]
  rfl

@[simp] theorem State.length_devRead (s : State) (a n : Nat) : (s.devRead a n).length = n := by
  unfold State.devRead
  split
  · split <;> simp [Mem.read]
  · simp [Mem.read]

/-! ## Layer records as a verdict and the end of a step leave them -/

theorem level_withLevel (b : List Byte) (l : Nat) (hb : 2 ≤ b.length) : leField (withLevel b l) 2 2 % 4 = l % 4 := by
  have h := leField_byte_lt b 2
  unfold withLevel
  rw [leField_append_left _ _ _ _ (by simp [hb]), leField_append_right _ _ _ _ (by simp [hb]) (by simp)]
  simp only [ofLeBytes, BitVec.toNat_ofNat]
  omega

theorem level_rerunRecord (b : List Byte) (l : Nat) (hb : 64 ≤ b.length) (hl : l < 4) : leField (rerunRecord b l) 2 2 % 4 = l := by
  have h := leField_byte_lt b 2
  unfold rerunRecord
  simp only
  repeat rw [leField_append_left _ _ _ _ (by simp; omega)]
  rw [leField_append_right _ _ _ _ (by simp; omega) (by simp)]
  simp only [ofLeBytes, BitVec.toNat_ofNat]
  omega

/-- RERUN_USED and FELL_BACK (bits 0 and 2) are set in the record of a re-run, and no flag is cleared. -/
theorem flags_rerunRecord (b : List Byte) (l : Nat) (hb : 64 ≤ b.length) :
    leField (rerunRecord b l) 4 4 = (BitVec.ofNat 8 (leField b 4 4) ||| 5#8).toNat := by
  unfold rerunRecord
  simp only
  repeat rw [leField_append_left _ _ _ _ (by simp; omega)]
  rw [leField_append_right _ _ _ _ (by simp; omega) (by simp)]
  simp [ofLeBytes]

theorem rerunUsed_rerunRecord (b : List Byte) (l : Nat) (hb : 64 ≤ b.length) : natBit (leField (rerunRecord b l) 4 4) 0 = true := by
  rw [flags_rerunRecord b l hb, natBit_eq_testBit, BitVec.testBit_toNat, BitVec.getLsbD_or]
  simp

theorem fellBack_rerunRecord (b : List Byte) (l : Nat) (hb : 64 ≤ b.length) : natBit (leField (rerunRecord b l) 4 4) 2 = true := by
  rw [flags_rerunRecord b l hb, natBit_eq_testBit, BitVec.testBit_toNat, BitVec.getLsbD_or]
  simp

theorem fallbacks_rerunRecord (b : List Byte) (l : Nat) (hb : 64 ≤ b.length) :
    leField (rerunRecord b l) 32 35 = min (leField b 32 35 + 1) (2 ^ 32 - 1) := by
  unfold rerunRecord
  simp only
  rw [leField_append_left _ _ _ _ (by simp; omega), leField_append_right _ _ _ _ (by simp; omega) (by simp), ofLeBytes_leBytes]
  omega

/-- A layer record with the BASE, the clean steps and the flags given, as the end-of-step routine writes it. -/
def withBase (b : List Byte) (base clean flags : Nat) : List Byte :=
  b.take 3 ++ [BitVec.ofNat 8 (leField b 3 3 / 4 * 4 + base), BitVec.ofNat 8 flags] ++ (b.drop 5).take 1 ++ leBytes 2 clean ++ b.drop 8

theorem endOfStepDefault_eq (b : List Byte) :
    endOfStepDefault b =
      if natBit (leField b 4 4) 2 then withBase b (leField b 2 2 % 4) 0 (leField b 4 4 / 4 * 4 + 2 + leField b 4 4 % 2)
      else if 0 < leField b 3 3 % 4 ∧ leField b 14 15 ≤ min (leField b 6 7 + 1) 65535 then
        withBase b (leField b 3 3 % 4 - 1) 0 (leField b 4 4)
      else withBase b (leField b 3 3 % 4) (min (leField b 6 7 + 1) 65535) (leField b 4 4) := rfl

section
variable (b : List Byte) (base clean flags : Nat) (hb : b.length = 64)
include hb

/-- The bytes of a record with a new BASE: only bytes 3, 4, 6 and 7 are written. -/
theorem getD_withBase (j : Nat) :
    (withBase b base clean flags).getD j 0 =
      if j = 3 then BitVec.ofNat 8 (leField b 3 3 / 4 * 4 + base) else if j = 4 then BitVec.ofNat 8 flags
      else if j = 6 then BitVec.ofNat 8 clean else if j = 7 then BitVec.ofNat 8 (clean / 256) else b.getD j 0 := by
  match b, hb with
  | b0 :: b1 :: b2 :: b3 :: b4 :: b5 :: b6 :: b7 :: t, _ =>
    match j with
    | 0 | 1 | 2 | 3 | 4 | 5 | 6 | 7 => rfl
    | j + 8 => simp [withBase, leBytes]

theorem base_withBase (h : base < 4) : leField (withBase b base clean flags) 3 3 % 4 = base := by
  have h3 := leField_byte_lt b 3
  rw [leField_byte, getD_withBase b base clean flags hb, if_pos rfl, BitVec.toNat_ofNat]
  omega

theorem flags_withBase (h : flags < 256) : leField (withBase b base clean flags) 4 4 = flags := by
  rw [leField_byte, getD_withBase b base clean flags hb, if_neg (by omega), if_pos rfl, BitVec.toNat_ofNat, Nat.mod_eq_of_lt h]

theorem clean_withBase (h : clean < 65536) : leField (withBase b base clean flags) 6 7 = clean := by
  unfold withBase
  rw [leField_append_left _ _ _ _ (by simp; omega), leField_append_right _ _ _ _ (by simp; omega) (by simp), ofLeBytes_leBytes]
  exact Nat.mod_eq_of_lt h

end

/-- At the end of a step a layer that fell back starts at its LEVEL, with FELL_BACK turned into bit 1 and no clean step. -/
theorem endOfStepDefault_fellBack (b : List Byte) (hb : b.length = 64) (h : natBit (leField b 4 4) 2 = true) :
    leField (endOfStepDefault b) 3 3 % 4 = leField b 2 2 % 4 ∧ leField (endOfStepDefault b) 6 7 = 0 ∧
      natBit (leField (endOfStepDefault b) 4 4) 1 = true := by
  have h4 := leField_byte_lt b 4
  rw [endOfStepDefault_eq, if_pos h, base_withBase _ _ _ _ hb (by omega), clean_withBase _ _ _ _ hb (by omega), flags_withBase _ _ _ _ hb (by omega)]
  refine ⟨rfl, rfl, ?_⟩
  simp only [natBit, beq_iff_eq]
  omega

theorem endOfStepDefault_narrower (b : List Byte) (hb : b.length = 64) (h : natBit (leField b 4 4) 2 = false) (hbase : 0 < leField b 3 3 % 4)
    (hclean : leField b 14 15 ≤ min (leField b 6 7 + 1) 65535) :
    leField (endOfStepDefault b) 3 3 % 4 = leField b 3 3 % 4 - 1 ∧ leField (endOfStepDefault b) 6 7 = 0 := by
  rw [endOfStepDefault_eq, if_neg (by simp [h]), if_pos ⟨hbase, hclean⟩]
  exact ⟨base_withBase _ _ _ _ hb (by omega), clean_withBase _ _ _ _ hb (by omega)⟩

theorem endOfStepDefault_same (b : List Byte) (hb : b.length = 64) (h : natBit (leField b 4 4) 2 = false)
    (hkeep : leField b 3 3 % 4 = 0 ∨ min (leField b 6 7 + 1) 65535 < leField b 14 15) :
    leField (endOfStepDefault b) 3 3 % 4 = leField b 3 3 % 4 ∧ leField (endOfStepDefault b) 6 7 = min (leField b 6 7 + 1) 65535 := by
  rw [endOfStepDefault_eq, if_neg (by simp [h]), if_neg (by omega)]
  exact ⟨base_withBase _ _ _ _ hb (by omega), clean_withBase _ _ _ _ hb (by omega)⟩

theorem endOfStepDefault_flags (b : List Byte) (hb : b.length = 64) (h : natBit (leField b 4 4) 2 = false) :
    leField (endOfStepDefault b) 4 4 = leField b 4 4 := by
  have h4 := leField_byte_lt b 4
  rw [endOfStepDefault_eq, if_neg (by simp [h])]
  split <;> exact flags_withBase _ _ _ _ hb h4

theorem endOfStepDefault_frame (b : List Byte) (hb : b.length = 64) (j : Nat) (h3 : j ≠ 3) (h4 : j ≠ 4) (h6 : j ≠ 6) (h7 : j ≠ 7) :
    (endOfStepDefault b).getD j 0 = b.getD j 0 := by
  have frame (base clean flags : Nat) : (withBase b base clean flags).getD j 0 = b.getD j 0 := by
    rw [getD_withBase b base clean flags hb, if_neg h3, if_neg h4, if_neg h6, if_neg h7]
  rw [endOfStepDefault_eq]
  split
  · exact frame ..
  · split <;> exact frame ..

/-! ## The default policy -/

/-- RERUN as R149 restricts it: only to a higher level, and only once in a step. -/
theorem rerunAs_eq_rerun {b : List Byte} {k l : Nat} (h : rerunAs b k = .rerun l) :
    leField b 2 2 % 4 < l ∧ l ≤ 2 ∧ natBit (leField b 4 4) 0 = false := by
  unfold rerunAs at h
  dsimp only at h
  split at h
  next => cases h
  next hn =>
    cases h
    simp only [not_or, Bool.not_eq_true] at hn
    obtain ⟨-, hlow, hhigh, hused⟩ := hn
    exact ⟨by omega, by omega, hused⟩

/-- The code of R152: the model reads the fields of the record itself, takes the tolerance of the level as a number, and leaves RERUN to R149. -/
theorem policyDefault_eq_policy152 (b : List Byte) (d : Delta) :
    policyDefault b d = policy152 (leField b 2 2 % 4) (leField b 20 21) (leField b 16 17) (leField b 18 19) (leField b 22 23)
      (natBit (leField b 4 4) 0) (BitVec.ofNat 32 (leField b 24 27)) (BitVec.ofNat 32 (leField b 28 31)) d := by
  have htol : BitVec.ofNat 32 (if leField b 2 2 % 4 = 0 then leField b 24 27 else leField b 28 31) =
      if leField b 2 2 % 4 = 0 then BitVec.ofNat 32 (leField b 24 27) else BitVec.ofNat 32 (leField b 28 31) := by
    split <;> rfl
  simp [policyDefault, policy152, rerunAs, htol, or_assoc, and_assoc]

theorem policyDefault_eq_rerun {b : List Byte} {d : Delta} {l : Nat} (h : policyDefault b d = .rerun l) :
    leField b 2 2 % 4 < l ∧ l ≤ 2 ∧ natBit (leField b 4 4) 0 = false := by
  unfold policyDefault at h
  dsimp only at h
  generalize f32v _ = tol at h
  split at h
  · cases h
  · split at h
    · cases h
    · split at h
      · split at h <;> cases h
      · split at h <;> exact rerunAs_eq_rerun h

theorem policyDefault_withLevel_two_ne_rerun (b : List Byte) (d : Delta) (l : Nat) (hb : 2 ≤ b.length) :
    policyDefault (withLevel b 2) d ≠ .rerun l := by
  intro h
  obtain ⟨hlow, hhigh, -⟩ := policyDefault_eq_rerun h
  rw [level_withLevel b 2 hb] at hlow
  omega

/-- With nothing counted no limit is passed. -/
theorem policyDefault_zero (b : List Byte) : policyDefault b {} = .pass := by
  simp [policyDefault]

section
variable {s : State} {n : Nat} (hpol : natBit (s.reg .morCtrl n 0).toNat 0 = false)
include hpol

theorem State.polDecide_default (b : List Byte) (d : Delta) (redye : Bool) (mb : Nat) :
    s.polDecide n b d redye mb = (s, policyDefault b d, b) := by
  unfold State.polDecide
  rw [if_pos (by simp [hpol])]

theorem State.polDecideEnd_default (b : List Byte) : s.polDecideEnd n b = (s, endOfStepDefault b) := by
  unfold State.polDecideEnd
  rw [if_pos (by simp [hpol])]

/-- In reference mode the default policy decides as at level 2, and the record keeps its LEVEL (R204). -/
theorem State.ctxDecide_default (x : Nat) (b : List Byte) (d : Delta) (mb : Nat) :
    s.ctxDecide x n b d mb =
      (s, policyDefault (if (s.ctx x).refmode then withLevel b 2 else b) d,
        if (s.ctx x).refmode then withLevel (withLevel b 2) (leField b 2 2) else b) := by
  unfold State.ctxDecide
  simp only [State.polDecide_default hpol]
  split <;> rfl

end

/-! ## Verdicts on runs -/

theorem State.recBad_eq_none {s : State} {x n i : Nat} (hr : s.ctxRange x (s.recAddr n i) 64 = true) (hp : s.devPo (s.recAddr n i) 64 = false) :
    s.recBad x n i = none := by
  simp [State.recBad, hr, hp]

/-- Where the verdict core holds no digest of a run, there is nothing to compare. -/
theorem State.compare_of_no_digests {s : State} {x : Nat} {run : Run} (h : tilesOf (s.ctx x).digs run = []) (skip : List Nat) :
    s.compare x run skip = (counted s, []) := by
  simp [State.compare, h, counted]

/-- The device acts on the verdict `v` on a run, the record at `a` standing as `b` after the policy (R148). -/
def State.actOn (u : State) (x a : Nat) (run : Run) (b : List Byte) (v : Verdict) : State :=
  match v with
  | .pass | .accept => (u.rawWrite a b).broadcast x run v
  | .rerun l => ((u.rawWrite a (rerunRecord b l)).abortRun x run).fallback x run l
  | .exhausted => (u.rawWrite a b).endBy x stExhausted 0x04

theorem State.judge_default {s : State} {x n i : Nat} (run : Run) (d : Delta) (hpol : natBit (s.reg .morCtrl n 0).toNat 0 = false)
    (hrec : s.recBad x n i = none) :
    let b := s.devRead (s.recAddr n i) 64
    let v := policyDefault (if (s.ctx x).refmode then withLevel b 2 else b) d
    s.judge x n i run d =
      ((s.noteVerdict n run.layer.toNat (s.runLevel x b) v false).dropRun x run).actOn x (s.recAddr n i) run
        (if (s.ctx x).refmode then withLevel (withLevel b 2) (leField b 2 2) else b) v := by
  simp only [State.judge, hrec, State.ctxDecide_default hpol]
  rfl

/-- VERDICT on a run that can be judged under the default policy, with no digest to compare: the policy's verdict on the summed deltas. -/
theorem execVerdict_judged {s : State} {slot : Fin 4} {n i : Nat} {run : Run} (h : judged s slot.val n i run = true) :
    execVerdict slot run s = .next ((counted s).judge slot.val n i run (summed s slot.val run)) := by
  simp only [judged, Bool.and_eq_true, decide_eq_true_eq, beq_iff_eq, List.isEmpty_iff] at h
  obtain ⟨⟨⟨⟨⟨⟨⟨⟨⟨hrun, hfin⟩, hcore⟩, hready⟩, hdigs⟩, harb⟩, hfirst⟩, -⟩, -⟩, -⟩ := h
  obtain ⟨f, hf, hrec⟩ := Option.map_eq_some_iff.1 hfin
  have hearlier : (s.ctx slot.val).fins.any (fun g => Run.before g.run run && s.verdictCore slot.val g.run.layer.toNat == some n &&
      s.runReady slot.val g.run) = false := by
    rw [List.any_eq_not_all_not, hfirst]
    rfl
  simp [execVerdict, hf, hcore, hrun, hready, hearlier, harb, State.compare_of_no_digests hdigs, hrec, summed]

/-- VERDICT under the default policy acts on the policy's outcome. -/
theorem exec_verdict_judged {s : State} {slot : Fin 4} {n i : Nat} {run : Run} (h : judged s slot.val n i run = true) :
    let x := slot.val
    let a := (counted s).recAddr n i
    let b := (counted s).devRead a 64
    let ref := (s.ctx x).refmode
    let v := policyDefault (if ref then withLevel b 2 else b) (summed s x run)
    exec (.verdict slot run) s = .next ((((counted s).noteVerdict n run.layer.toNat (if ref then 2 else leField b 2 2 % 4) v false).dropRun x
      run).actOn x a run (if ref then withLevel (withLevel b 2) (leField b 2 2) else b) v) := by
  have hjudged := h
  simp only [judged, Bool.and_eq_true, Bool.not_eq_true'] at h
  obtain ⟨⟨⟨-, hrange⟩, hpo⟩, hpol⟩ := h
  have hexec : exec (.verdict slot run) s = execVerdict slot run s := rfl
  rw [hexec, execVerdict_judged hjudged, State.judge_default run _ hpol (State.recBad_eq_none hrange hpo)]
  rfl

/-! ## Re-dye verdicts -/

theorem execRedyeVerdict_not_taken {s : State} {slot : Fin 4} (lrec : BitVec 16)
    (h : (s.ctx slot.val).refmode = true ∨ (s.ctx slot.val).forward = true) : execRedyeVerdict slot lrec s = .next s := by
  unfold execRedyeVerdict
  dsimp only
  split
  next => rfl
  next => rw [if_pos (Or.inr (h.imp_right Or.inl))]

/-- The counts that a context's cores hold outside any epoch for tensor record `w`. -/
def CfEntry.redyeOf (w : Nat) (e : CfEntry) : Bool := e.trec == w && e.tag.isNone

/-- Those counts summed. -/
def State.redyeDelta (s : State) (x w : Nat) : Delta :=
  ((s.ctxCores x).flatMap (fun n => ((s.core n).cf.filter (CfEntry.redyeOf w)).map (fun e => e.d))).foldl Delta.add {}

theorem State.redyeDelta_of_no_counts {s : State} {x w : Nat}
    (h : (s.ctxCores x).all (fun n => (s.core n).cf.all (fun e => !CfEntry.redyeOf w e)) = true) : s.redyeDelta x w = {} := by
  have hnone : (s.ctxCores x).flatMap (fun n => ((s.core n).cf.filter (CfEntry.redyeOf w)).map (fun e => e.d)) = [] := by
    simp only [List.all_eq_true, Bool.not_eq_true'] at h
    simp only [List.flatMap_eq_nil_iff, List.map_eq_nil_iff, List.filter_eq_nil_iff, Bool.not_eq_true]
    exact h
  rw [State.redyeDelta, hnone]
  rfl

/-- The re-dye counts of a layer's weight tensor `w` joined to its totals and taken from the counter files, with the layer's re-dye verdict
noted as taken (R150). -/
def State.redyeTaken (s : State) (x n i w : Nat) : State :=
  let u := ((s.nameLayer x i).addTotals x n w (s.redyeDelta x w)).mapCores (s.ctxCores x)
    (fun c => { c with cf := c.cf.filter (fun e => !CfEntry.redyeOf w e) })
  u.setCtx x { u.ctx x with redyed := (s.ctx x).redyed ++ [i] }

/-- The device acts on the re-dye verdict `v` on a layer, its record at `a` standing as `b` after the policy (R150). -/
def State.actOnRedye (z : State) (x a layer : Nat) (b : List Byte) (v : Verdict) : State :=
  match v with
  | .pass | .accept => z.rawWrite a b
  | .rerun l => (z.rawWrite a (rerunRecord b l)).fallbackRedye x layer l
  | .exhausted => (z.rawWrite a b).endBy x stExhausted 0x04

theorem State.next_actOnRedye (z : State) (x a layer : Nat) (b : List Byte) (v : Verdict) :
    (match v with
      | .pass | .accept => Host.Outcome.next (z.rawWrite a b)
      | .rerun l => .next ((z.rawWrite a (rerunRecord b l)).fallbackRedye x layer l)
      | .exhausted => .next ((z.rawWrite a b).endBy x stExhausted 0x04) : Host.Outcome State Fault Refusal) =
      .next (z.actOnRedye x a layer b v) := by
  cases v <;> rfl

section
variable {s : State} {slot : Fin 4} {lrec : BitVec 16} {n0 : Nat} {rest : List Nat}
  (hcores : s.ctxCores slot.val = n0 :: rest) (hrun : (s.ctx slot.val).st = .running)
  (hfirst : (s.ctx slot.val).redyed.contains lrec.toNat = false) (href : (s.ctx slot.val).refmode = false)
  (hforward : (s.ctx slot.val).forward = false) (hlayer : s.recBad slot.val n0 lrec.toNat = none)
include hcores hrun hfirst href hforward hlayer

/-- REDYE_VERDICT before the first run of a step: the policy decides on the counts of the layer's weight tensor. -/
theorem execRedyeVerdict_taken :
    let x := slot.val
    let i := lrec.toNat
    let b0 := s.devRead (s.recAddr n0 i) 64
    let w := leField b0 8 9
    let n := (s.verdictCore x (leField b0 0 1)).getD n0
    let u := s.redyeTaken x n i w
    let a := u.recAddr n i
    let b := u.devRead a 64
    let r := u.polDecide n b (s.redyeDelta x w) true 0
    s.recBad x n w = none →
      execRedyeVerdict slot lrec s =
        .next ((r.1.noteVerdict n (leField b0 0 1) (leField b 2 2 % 4) r.2.1 true).actOnRedye x a (leField b0 0 1) r.2.2 r.2.1) := by
  intro x i b0 w n u a b r hweight
  have hhead : (s.ctxCores x).head? = some n0 := by rw [hcores, List.head?_cons]
  have hopen : ¬ ((s.ctx x).st ≠ .running ∨ (s.ctx x).refmode = true ∨ (s.ctx x).forward = true ∨
      (s.ctx x).redyed.contains i = true) := by
    simp only [x, i, hrun, href, hforward, hfirst]
    decide
  unfold execRedyeVerdict
  extract_lets
  split
  next h => cases h.symm.trans hhead
  next m h =>
  obtain rfl : m = n0 := Option.some.inj (h.symm.trans hhead)
  rw [if_neg hopen]
  split
  next h => cases h.symm.trans hlayer
  next =>
  extract_lets
  split
  next h => cases h.symm.trans hweight
  next => exact State.next_actOnRedye ..

/-- The same under the default policy. -/
theorem execRedyeVerdict_default :
    let x := slot.val
    let i := lrec.toNat
    let b0 := s.devRead (s.recAddr n0 i) 64
    let w := leField b0 8 9
    let n := (s.verdictCore x (leField b0 0 1)).getD n0
    let u := s.redyeTaken x n i w
    let a := u.recAddr n i
    let b := u.devRead a 64
    let v := policyDefault b (s.redyeDelta x w)
    s.recBad x n w = none → natBit (u.reg .morCtrl n 0).toNat 0 = false →
      execRedyeVerdict slot lrec s =
        .next ((u.noteVerdict n (leField b0 0 1) (leField b 2 2 % 4) v true).actOnRedye x a (leField b0 0 1) b v) := by
  intro x i b0 w n u a b v hweight hpol
  rw [execRedyeVerdict_taken hcores hrun hfirst href hforward hlayer hweight, State.polDecide_default hpol]

end

end Sys2Proof.Machine
end

section

open Sys2Proof Sys2Proof.Machine Sys2Proof.Claim

/-- Settles O26: the default policy case by case, then each verdict from the record and the counts that it is taken on. -/
theorem policyDecidesVerdicts : Obligations.PolicyDecidesVerdicts := by
  refine ⟨⟨fun b d => ⟨policyDefault_eq_policy152 b d, fun l => policyDefault_eq_rerun⟩, ?_, ?_⟩, ?_, ?_⟩
  case refine_1 =>
    intro b hb
    exact ⟨endOfStepDefault_fellBack b hb,
      fun h => ⟨endOfStepDefault_flags b hb h, endOfStepDefault_narrower b hb h, endOfStepDefault_same b hb h⟩,
      endOfStepDefault_frame b hb⟩
  case refine_2 =>
    intro s n mb b d redye hpol
    exact ⟨State.polDecide_default hpol b d redye mb, State.polDecideEnd_default hpol b⟩
  case refine_3 =>
    intro s slot n i run hjudged x a b ref v kept u
    have hexec : exec (.verdict slot run) s = .next (u.actOn x a run kept v) := exec_verdict_judged hjudged
    have hlen : 64 ≤ b.length := Nat.le_of_eq (State.length_devRead ..).symm
    refine ⟨?_, ?_, ?_, ?_⟩
    · rintro (hv | hv) <;> rw [hexec, hv] <;> rfl
    · intro href l
      simp only [v, href, if_true]
      exact policyDefault_withLevel_two_ne_rerun b _ l (by omega)
    · intro l href hv
      have hl : l ≤ 2 := (policyDefault_eq_rerun hv).2.1
      have hkept : kept = b := by simp [kept, href]
      refine ⟨?_, level_rerunRecord b l hlen (by omega), rerunUsed_rerunRecord b l hlen, fellBack_rerunRecord b l hlen,
        fallbacks_rerunRecord b l hlen⟩
      rw [hexec, hkept, hv]
      rfl
    · intro hv
      rw [hexec, hv]
      rfl
  case refine_4 =>
    intro s slot lrec n0 rest x i b0 w n mine d u0 u a b v z
    refine ⟨execRedyeVerdict_not_taken lrec, ?_⟩
    intro hcores hrun hfirst href hforward hlayer hweight hpol
    have hexec : exec (.redyeVerdict slot lrec) s = .next (z.actOnRedye x a (leField b0 0 1) b v) :=
      execRedyeVerdict_default hcores hrun hfirst href hforward hlayer hweight hpol
    refine ⟨?_, ?_, ?_, ?_⟩
    · rintro (hv | hv) <;> rw [hexec, hv] <;> rfl
    · intro l hv
      rw [hexec, hv]
      rfl
    · intro hv
      rw [hexec, hv]
      rfl
    · intro hnone
      have hd : d = {} := State.redyeDelta_of_no_counts hnone
      simp only [v, hd]
      exact policyDefault_zero b

end

section
/-! SUPPORT. Where the registers stand in BAR0: the decoder of offsets finds each register at its address, and no register stands at a lock or in
the MSI-X table (R482, R483). -/

namespace Sys2Proof.Machine

/-- How many units a block has (R482, R483). -/
def Blk.units : Blk → Nat
  | .part => 4
  | .core => 400
  | .ind | .link => 48
  | .wld => 504
  | .stack => 20
  | _ => 1

/-- The local offsets among which the registers of a block stand (R482, R483). -/
def Blk.regSpan (b : Blk) (l : Nat) : Bool :=
  match b with
  | .part => decide (l < 0x800 ∨ 0xA00 ≤ l ∧ l < 0x10000)
  | .core | .ind | .link => decide (l < 0x800)
  | .wld => decide (l < 0x100)
  | .stack => decide (l < 0x2000)
  | _ => decide (l < 0x1000)

/-- The five kinds of WLD sets (R272, R483). -/
theorem wldWindow_cases {w : Nat} (hw : w < 504) :
    (w < 400 ∧ wldWindow w = coreWindow w + 0x800) ∨
    (∃ n, n < 48 ∧ w = 400 + n ∧ wldWindow w = 0x500000 + n * 0x1000 + 0x800) ∨
    (∃ e, e < 48 ∧ w = 448 + e ∧ wldWindow w = indWindow e + 0x800) ∨
    (∃ p, p < 4 ∧ w = 496 + p ∧ wldWindow w = partWindow p + 0x800) ∨
    (∃ p, p < 4 ∧ w = 500 + p ∧ wldWindow w = partWindow p + 0x900) := by
  unfold wldWindow
  split
  next h => exact .inl ⟨h, rfl⟩
  split
  next => exact .inr (.inl ⟨w - 400, by omega, by omega, rfl⟩)
  split
  next => exact .inr (.inr (.inl ⟨w - 448, by omega, by omega, rfl⟩))
  split
  next => exact .inr (.inr (.inr (.inl ⟨w - 496, by omega, by omega, rfl⟩)))
  next => exact .inr (.inr (.inr (.inr ⟨w - 500, by omega, by omega, rfl⟩)))

theorem wldWindow_aligned (w : Nat) : wldWindow w % 4 = 0 ∧ 0x100000 ≤ wldWindow w := by
  unfold wldWindow coreWindow indWindow partWindow
  repeat' split
  all_goals omega

theorem Blk.ofOffset_wldWindow_add {w l : Nat} (hw : w < 504) (hl : l < 0x100) : Blk.ofOffset (wldWindow w + l) = some (.wld, w, l) := by
  generalize ho : wldWindow w + l = o
  obtain ⟨_, h⟩ | ⟨n, _, rfl, h⟩ | ⟨e, _, rfl, h⟩ | ⟨p, _, rfl, h⟩ | ⟨p, _, rfl, h⟩ := wldWindow_cases hw <;>
  · rw [h] at ho
    clear h hw
    simp only [coreWindow, indWindow, partWindow, Blk.ofOffset] at ho ⊢
    simp (disch := omega) only [↓if_pos, ↓if_neg, Option.some.injEq, Prod.mk.injEq, true_and]
    omega

section
variable {b : Blk} {u l : Nat} (hu : u < b.units) (hl : b.regSpan l = true)
include hu hl

theorem Blk.ofOffset_base_add : Blk.ofOffset (b.base u + l) = some (b, u, l) := by
  generalize ho : b.base u + l = o
  cases b <;> simp only [Blk.units, Blk.regSpan, decide_eq_true_eq] at hu hl
  case wld => exact ho ▸ Blk.ofOffset_wldWindow_add hu hl
  all_goals
    simp only [Blk.base, coreWindow, indWindow, partWindow, Blk.ofOffset] at ho ⊢
    simp (disch := omega) only [↓if_pos, ↓if_neg, Option.some.injEq, Prod.mk.injEq, true_and]
    omega

end

/-- The registers are aligned where their offsets are, and stand outside the MSI-X table. -/
theorem Blk.base_add_aligned {b : Blk} {l : Nat} (hl : b.regSpan l = true) (h4 : l % 4 = 0) (u : Nat) :
    (b.base u + l) % 4 = 0 ∧ ¬ (0x21000 ≤ b.base u + l ∧ b.base u + l < 0x21400) := by
  cases b <;> simp only [Blk.regSpan, decide_eq_true_eq] at hl <;> simp only [Blk.base, coreWindow, indWindow, partWindow]
  case wld =>
    have hw := wldWindow_aligned u
    omega
  all_goals omega

/-- What the decoder needs of the table of registers: each element is aligned, stands in the span of its block, and is what its block's list names
at its offset. Each row of the table is a closed fact. -/
theorem Reg.info_decodes (r : Reg) :
    r.info.off % 4 = 0 ∧ r.info.stride % 4 = 0 ∧ ∀ n, n < r.info.count →
      r.info.blk.regSpan (r.info.off + n * r.info.stride) = true ∧
        Reg.find (r.info.off + n * r.info.stride) r.info.blk.regs = some (r, n) := by
  cases r <;> decide +kernel

/-- The offsets of the lock registers (R482). -/
def lockOffsets : List Nat :=
  [0xFFC, 0x10FFC, 0x20FFC, 0x40FFC, 0x50FFC, 0x60FFC, 0x70FFC, 0x80FFC, 0x100FFC, 0x200FFC, 0x300FFC, 0x400FFC, 0x500FFC, 0x600FFC]

theorem mem_lockOffsets {o : Nat} {l : Lock} (h : Lock.ofOffset o = some l) : o ∈ lockOffsets := by
  refine Decidable.byContradiction fun ho => ?_
  simp only [lockOffsets, List.mem_cons, not_or] at ho
  simp only [Lock.ofOffset, ho, if_false] at h
  cases h

/-- Where a lock stands there is no register. -/
theorem Reg.ofOffset_lock : ∀ o ∈ lockOffsets, Reg.ofOffset o = none ∧ o % 4 = 0 := by
  decide +kernel

theorem Reg.addr_aligned {r : Reg} {n : Nat} (hn : n < r.info.count) (u : Nat) :
    r.addr u n % 4 = 0 ∧ ¬ (0x21000 ≤ r.addr u n ∧ r.addr u n < 0x21400) := by
  obtain ⟨hoff, hstride, h⟩ := r.info_decodes
  obtain ⟨hspan, -⟩ := h n hn
  have h4 : (r.info.off + n * r.info.stride) % 4 = 0 := by rw [Nat.add_mod, Nat.mul_mod, hoff, hstride]; omega
  rw [Reg.addr, Nat.add_assoc]
  exact Blk.base_add_aligned hspan h4 u

section
variable {r : Reg} {u n : Nat} (hu : u < r.info.blk.units) (hn : n < r.info.count)
include hu hn

/-- The decoder of offsets finds each register at its address. -/
theorem Reg.ofOffset_addr : Reg.ofOffset (r.addr u n) = some (r, u, n) := by
  obtain ⟨-, -, h⟩ := r.info_decodes
  obtain ⟨hspan, hfind⟩ := h n hn
  rw [Reg.addr, Nat.add_assoc, Reg.ofOffset, Blk.ofOffset_base_add hu hspan]
  simp only [hfind]

theorem Lock.ofOffset_addr : Lock.ofOffset (r.addr u n) = none := by
  cases h : Lock.ofOffset (r.addr u n) with
  | none => rfl
  | some l => cases (Reg.ofOffset_addr hu hn).symm.trans (Reg.ofOffset_lock _ (mem_lockOffsets h)).1

end

end Sys2Proof.Machine
end

section
/-! SUPPORT. Bits of registers, the messages of events, and what writes and debug reads of BAR0 do, branch by branch (R7, R80, R122, R161, R427,
R484 to R489). -/

namespace Sys2Proof.Machine

open Sys2Proof.Claim

/-! ## Bits and fields of a register -/

theorem natBit_eq_bitsOf (w : W32) (i : Nat) : natBit w.toNat i = (bitsOf w i i == 1) := by
  simp [natBit, bitsOf, Nat.shiftRight_eq_div_pow]

theorem bitsOf_putBits_self (w : W32) {hi lo : Nat} (v : Nat) (hhi : hi < 32) :
    bitsOf (putBits w hi lo v) hi lo = v % 2 ^ (hi + 1 - lo) := by
  apply Nat.eq_of_testBit_eq
  intro j
  rw [bitsOf, Nat.testBit_mod_two_pow, Nat.testBit_shiftRight, BitVec.testBit_toNat, Nat.testBit_mod_two_pow]
  by_cases hj : j < hi + 1 - lo
  · have h32 : lo + j < 32 := by omega
    simp only [putBits, BitVec.getLsbD_or, BitVec.getLsbD_and, BitVec.getLsbD_not, BitVec.getLsbD_ofNat, h32, Nat.testBit_mul_two_pow,
      Nat.testBit_two_pow_sub_one, Nat.testBit_mod_two_pow, Nat.add_sub_cancel_left, hj]
    simp
  · simp [hj]

theorem State.fld_setFld_self (s : State) (r : Reg) (u n : Nat) {hi lo : Nat} (v : Nat) (hhi : hi < 32) :
    (s.setFld r u n hi lo v).fld r u n hi lo = v % 2 ^ (hi + 1 - lo) := by
  rw [State.fld, State.setFld, State.reg_setReg_self, bitsOf_putBits_self _ v hhi]

/-- A field of one bit, written and read. -/
theorem State.natBit_setFld_self (s : State) (r : Reg) (u n : Nat) {i : Nat} (b : Bool) (hi : i < 32) :
    natBit ((s.setFld r u n i i (bit b)).reg r u n).toNat i = b := by
  have h := s.fld_setFld_self (lo := i) r u n (bit b) hi
  rw [State.fld, Nat.add_sub_cancel_left] at h
  rw [natBit_eq_bitsOf, h]
  cases b <;> rfl

theorem State.reg_orReg_self (s : State) (r : Reg) (u n : Nat) (m : W32) : (s.orReg r u n m).reg r u n = s.reg r u n ||| m :=
  s.reg_setReg_self r u n _

theorem State.natBit_orReg_self (s : State) (r : Reg) (u n : Nat) {m : W32} {i : Nat} (h : natBit m.toNat i = true) :
    natBit ((s.orReg r u n m).reg r u n).toNat i = true := by
  rw [natBit_eq_testBit] at h ⊢
  rw [State.reg_orReg_self, BitVec.toNat_or, Nat.testBit_or, h, Bool.or_true]

/-! ## Writes of BAR0 -/

theorem State.wrReg_eq_plainWrite {r : Reg} (h : startsMore r = false) (s : State) (u n : Nat) (v : W32) : s.wrReg r u n v = s.plainWrite r u n v := by
  revert h
  cases r <;> simp [startsMore, State.wrReg]

theorem State.plainWrite_ignored {s : State} {r : Reg} {u n : Nat} {v : W32}
    (h : s.blkOpen r.info.blk u = false ∨ s.writeIgnored r u n v = true) : s.plainWrite r u n v = s :=
  if_pos (by simpa using h)

theorem State.plainWrite_taken {s : State} {r : Reg} {u n : Nat} {v : W32} (ho : s.blkOpen r.info.blk u = true)
    (hi : s.writeIgnored r u n v = false) :
    s.plainWrite r u n v =
      s.setReg r u n ((s.reg r u n &&& ~~~s.writeMask r u &&& ~~~(v &&& r.info.w1c)) ||| (legalWrite r (s.reg r u n) v &&& s.writeMask r u)) :=
  if_neg (by simp [ho, hi])

theorem State.writeWord_lock {off : Nat} {l : Lock} (h : Lock.ofOffset off = some l) (s : State) (v : W32) : s.writeWord off v = s.wrLock l v := by
  simp [State.writeWord, h]

theorem State.writeWord_reserved {off : Nat} (hl : Lock.ofOffset off = none) (hm : off < 0x21000 ∨ 0x21400 ≤ off)
    (hr : Reg.ofOffset off = none) (s : State) (v : W32) : s.writeWord off v = s := by
  simp only [State.writeWord, hl, hr]
  exact if_neg (by omega)

theorem State.writeWord_register {off : Nat} {r : Reg} {u n : Nat} (hl : Lock.ofOffset off = none) (hm : off < 0x21000 ∨ 0x21400 ≤ off)
    (hr : Reg.ofOffset off = some (r, u, n)) (s : State) (v : W32) : s.writeWord off v = s.wrReg r u n v := by
  simp only [State.writeWord, hl, hr]
  exact if_neg (by omega)

/-- REGISTER_WRITE of 4 aligned bytes. -/
theorem exec_registerWrite_word {off : Nat} (h : off % 4 = 0) (vv : W64) (s : State) :
    exec (.registerWrite off { size := 4, v := vv }) s = .next (s.writeWord off (vv.extractLsb' 0 32)) := by
  have hexec : exec (.registerWrite off { size := 4, v := vv }) s = execRegisterWrite off { size := 4, v := vv } s := rfl
  rw [hexec, execRegisterWrite]
  exact congrArg _ (if_pos ⟨rfl, h⟩)

/-- REGISTER_WRITE of 8 aligned bytes: the lower half at the offset, then the upper half 4 bytes above it. -/
theorem exec_registerWrite_pair {off : Nat} (h : off % 8 = 0) (vv : W64) (s : State) :
    exec (.registerWrite off { size := 8, v := vv }) s =
      .next ((s.writeWord off (vv.extractLsb' 0 32)).writeWord (off + 4) (vv.extractLsb' 32 32)) := by
  have hexec : exec (.registerWrite off { size := 8, v := vv }) s = execRegisterWrite off { size := 8, v := vv } s := rfl
  rw [hexec, execRegisterWrite]
  simp [h]

theorem exec_registerWrite_badAccess {off size : Nat} (h4 : ¬ (size = 4 ∧ off % 4 = 0)) (h8 : ¬ (size = 8 ∧ off % 8 = 0)) (vv : W64) (s : State) :
    exec (.registerWrite off { size := size, v := vv }) s = .next (s.orReg .gctErr 0 0 1) := by
  have hexec : exec (.registerWrite off { size := size, v := vv }) s = execRegisterWrite off { size := size, v := vv } s := rfl
  rw [hexec, execRegisterWrite]
  simp only [if_neg h4, if_neg h8]

/-- REGISTER_WRITE at the address of a register is a write of the register. -/
theorem exec_registerWrite_addr {r : Reg} {u n : Nat} (hu : u < r.info.blk.units) (hn : n < r.info.count) (vv : W64) (s : State) :
    exec (.registerWrite (r.addr u n) { size := 4, v := vv }) s = .next (s.wrReg r u n (vv.extractLsb' 0 32)) := by
  obtain ⟨h4, hm⟩ := Reg.addr_aligned hn u
  rw [exec_registerWrite_word h4, State.writeWord_register (Lock.ofOffset_addr hu hn) (by omega) (Reg.ofOffset_addr hu hn)]

/-- Where the write of a register is a command of the table, REGISTER_WRITE at its address is that command. -/
theorem exec_registerWrite_command {r : Reg} {u n : Nat} {i : Instr} {vv : W64} {s : State} (hu : u < r.info.blk.units) (hn : n < r.info.count)
    (hi : exec i s = .next (s.wrReg r u n (vv.extractLsb' 0 32))) :
    exec (.registerWrite (r.addr u n) { size := 4, v := vv }) s = exec i s :=
  (exec_registerWrite_addr hu hn vv s).trans hi.symm

theorem exec_t3WindowWrite_lo {w : Nat} (hw : w < 16) (v : W32) (s : State) :
    exec (.t3WindowWrite (Reg.addr .hifT3Lo 0 w) v) s = .next (s.wrT3 false w v) := by
  have hexec : exec (.t3WindowWrite (Reg.addr .hifT3Lo 0 w) v) s = execT3WindowWrite (Reg.addr .hifT3Lo 0 w) v s := rfl
  rw [hexec, execT3WindowWrite, Reg.ofOffset_addr Nat.one_pos hw]

theorem exec_t3WindowWrite_hi {w : Nat} (hw : w < 16) (v : W32) (s : State) :
    exec (.t3WindowWrite (Reg.addr .hifT3Hi 0 w) v) s = .next (s.wrT3 true w v) := by
  have hexec : exec (.t3WindowWrite (Reg.addr .hifT3Hi 0 w) v) s = execT3WindowWrite (Reg.addr .hifT3Hi 0 w) v s := rfl
  rw [hexec, execT3WindowWrite, Reg.ofOffset_addr Nat.one_pos hw]

theorem weldKey_lt (d : WeldId) : d.key < 504 := by
  cases d <;> simp only [WeldId.key, CoreId.key] <;> omega

/-! ## Locks -/

theorem exec_lockWrite {off : Nat} {l : Lock} (hl : Lock.ofOffset off = some l) (v : W32) (s : State) :
    exec (.lockWrite off v) s = .next (s.wrLock l v) := by
  have hexec : exec (.lockWrite off v) s = execLockWrite off v s := rfl
  rw [hexec, execLockWrite, hl]

theorem State.wrLock_closed {s : State} {l : Lock} (h : s.lockAnswers l = false) (v : W32) : s.wrLock l v = s := by
  simp [State.wrLock, h]

@[simp] theorem State.wrLock_mem (s : State) (l : Lock) (v : W32) : (s.wrLock l v).mem = s.mem := by
  unfold State.wrLock
  repeat' split
  all_goals rfl

section
variable {s : State} {l : Lock} {v : W32} (hl : s.lockAnswers l = true)
include hl

theorem State.wrLock_unlock (hv : v = 0x4C590001#32) : AMap.get false l.key (s.wrLock l v).unlocked = true := by
  simp [State.wrLock, hl, hv]

theorem State.wrLock_lock (hv : v = 1#32) : AMap.get false l.key (s.wrLock l v).unlocked = false := by
  simp [State.wrLock, hl, hv]

theorem State.wrLock_badKey (hu : v ≠ 0x4C590001#32) (h1 : v ≠ 1#32) : s.wrLock l v = s.orReg .gctErr 0 0 2 := by
  simp only [State.wrLock, hl, if_neg hu, if_neg h1]
  rfl

end

/-! ## Event masks -/

/-- The messages of the events of a list, sent in order. -/
def State.sendEvents (s : State) (l : List Nat) : State := l.foldl (fun s i => s.msix (16 + i)) s

/-- What a message leaves as it is, and that it keeps what has been sent. -/
theorem State.msix_frame (s : State) (k : Nat) :
    (s.msix k).mem = s.mem ∧ (s.msix k).regs = s.regs ∧ (s.msix k).variant = s.variant ∧ (s.msix k).hif.msix = s.hif.msix ∧
      s.out ⊆ (s.msix k).out := by
  unfold State.msix
  dsimp only
  split
  · split <;> simp
  · simp

theorem State.msix_sent {s : State} {k : Nat} (h : (AMap.get (0, 0, true) k s.hif.msix).2.2 = false) :
    Out.msix k (AMap.get (0, 0, true) k s.hif.msix).1 (AMap.get (0, 0, true) k s.hif.msix).2.1 ∈ (s.msix k).out := by
  simp only [State.msix, h, Bool.false_eq_true, if_false, State.emit_out]
  exact List.mem_append_right _ (List.mem_singleton.2 rfl)

theorem State.sendEvents_frame (s : State) (l : List Nat) :
    (s.sendEvents l).mem = s.mem ∧ (s.sendEvents l).regs = s.regs ∧ (s.sendEvents l).variant = s.variant ∧
      (s.sendEvents l).hif.msix = s.hif.msix ∧ s.out ⊆ (s.sendEvents l).out := by
  induction l generalizing s with
  | nil => exact ⟨rfl, rfl, rfl, rfl, List.Subset.refl _⟩
  | cons i l ih =>
    obtain ⟨hmem, hregs, hvar, hmsix, hout⟩ := s.msix_frame (16 + i)
    obtain ⟨hmem', hregs', hvar', hmsix', hout'⟩ := ih (s.msix (16 + i))
    exact ⟨hmem'.trans hmem, hregs'.trans hregs, hvar'.trans hvar, hmsix'.trans hmsix, List.Subset.trans hout hout'⟩

theorem State.reg_sendEvents (s : State) (l : List Nat) (r : Reg) (u n : Nat) : (s.sendEvents l).reg r u n = s.reg r u n := by
  obtain ⟨-, hregs, hvar, -⟩ := s.sendEvents_frame l
  rw [State.reg, State.reg, hregs, hvar]

/-- Each event of the list whose vector is unmasked sends its message. -/
theorem State.sendEvents_sent {s : State} {l : List Nat} {i : Nat} (hi : i ∈ l) (h : (AMap.get (0, 0, true) (16 + i) s.hif.msix).2.2 = false) :
    Out.msix (16 + i) (AMap.get (0, 0, true) (16 + i) s.hif.msix).1 (AMap.get (0, 0, true) (16 + i) s.hif.msix).2.1 ∈ (s.sendEvents l).out := by
  induction l generalizing s with
  | nil => cases hi
  | cons j l ih =>
    obtain ⟨-, -, -, hmsix, -⟩ := s.msix_frame (16 + j)
    obtain ⟨-, -, -, -, hout⟩ := (s.msix (16 + j)).sendEvents_frame l
    rcases List.mem_cons.1 hi with rfl | hi
    · exact hout (State.msix_sent h)
    · rw [← hmsix] at h ⊢
      exact ih hi h

/-- Whether a write of GCT_EVT_MASK unmasks event `i` while it is pending and messages are enabled (R489). -/
def State.unmasksPending (s : State) (v : W32) (i : Nat) : Bool :=
  natBit (s.reg .gctEvtMask 0 0).toNat i && !natBit v.toNat i && natBit (s.reg .gctEvtPend 0 0).toNat i && natBit (s.reg .gctCtrl 0 0).toNat 0

theorem State.wrEvtMask_closed {s : State} (h : s.blkOpen .gct 0 = false) (v : W32) : s.wrEvtMask v = s := by
  simp [State.wrEvtMask, h]

theorem State.wrEvtMask_open {s : State} (h : s.blkOpen .gct 0 = true) (v : W32) :
    s.wrEvtMask v = (s.setReg .gctEvtMask 0 0 (v &&& 0x3FF#32)).sendEvents ((List.range 10).filter (s.unmasksPending v)) := by
  simp only [State.wrEvtMask, h]
  rfl

/-! ## Seeds -/

theorem State.wrCtxSeed_open {s : State} (h : krmOpen s = true) (r : Reg) (x : Nat) (v : W32) :
    s.wrCtxSeed r x v = if (s.ctx x).st = .free then s.setReg r 0 x v else s.orReg .krmErr 0 0 1 := by
  rw [krmOpen] at h
  simp [State.wrCtxSeed, h]

section
variable {s : State} (h : krmOpen s = true) (hi : Bool) (v : W32)
include h

theorem State.wrVwSeed_armed (ha : s.anyArmed = true) : s.wrVwSeed hi v = s.orReg .krmErr 0 0 2 := by
  rw [krmOpen] at h
  simp [State.wrVwSeed, h, ha]

theorem State.wrVwSeed_unarmed (ha : s.anyArmed = false) :
    s.wrVwSeed hi v = if s.lockOpen .krm 0 then
        (if hi then (s.setReg .krmVwSeedHi 0 0 v).setFld .krmStatus 0 0 3 3 0 else s.setReg .krmVwSeedLo 0 0 v)
      else s := by
  rw [krmOpen] at h
  cases hl : s.lockOpen .krm 0 <;> simp [State.wrVwSeed, h, ha, hl]

end

theorem State.writes_krm_closed {s : State} (h : krmOpen s = false) (r : Reg) (x : Nat) (hi : Bool) (v : W32) :
    s.wrCtxSeed r x v = s ∧ s.wrVwSeed hi v = s := by
  rw [krmOpen] at h
  simp [State.wrCtxSeed, State.wrVwSeed, h]

/-- The copy of the Vat-write seed `v` to the stacks of a list. -/
def State.seedStacks (s : State) (v : W64) (l : List Nat) : State := l.foldl (fun s i => s.setStack i { s.stack i with vwSeed := v }) s

theorem State.vwSeed_seedStacks (s : State) (v : W64) (l : List Nat) (i : Nat) :
    ((s.seedStacks v l).stack i).vwSeed = if i ∈ l then v else (s.stack i).vwSeed := by
  induction l generalizing s with
  | nil => simp [State.seedStacks]
  | cons j l ih =>
    have h := ih (s.setStack j { s.stack j with vwSeed := v })
    rw [State.stack_setStack] at h
    by_cases hl : i ∈ l
    · simpa [State.seedStacks, hl] using h
    · by_cases hj : i = j <;> simpa [State.seedStacks, hl, hj] using h

theorem exec_vwSeedCopyDone_synced {s : State} (h : natBit (s.reg .krmStatus 0 0).toNat 3 = true) : exec .vwSeedCopyDone s = .next s :=
  if_pos h

theorem exec_vwSeedCopyDone_running {s : State} (h : natBit (s.reg .krmStatus 0 0).toNat 3 = false) :
    exec .vwSeedCopyDone s =
      .next ((s.seedStacks (BitVec.ofNat 64 (s.reg64 .krmVwSeedLo .krmVwSeedHi 0 0)) (List.range 20)).setFld .krmStatus 0 0 3 3 1) :=
  if_neg (Bool.eq_false_iff.1 h)

/-! ## Debug reads of accumulators -/

theorem State.readAcc_closed {s : State} {n : Nat} (h : s.blkOpen .core n = false) (idx data err : Reg) (top key busy : Nat) :
    s.readAcc idx data err n top key busy = s.emit (.regRead 0) := by
  simp [State.readAcc, h]

/-- A read in debug mode of an array that has an instruction in flight. -/
def State.accBusy (s : State) (n key : Nat) : Bool := s.debugCore n && (s.core n).flight.contains key

section
variable {s : State} {n : Nat} (h : s.blkOpen .core n = true) (idx data err : Reg) (top key busy : Nat)
include h

theorem State.readAcc_open :
    let s1 := if s.accBusy n key then (s.emit (.regRead 0)).orReg err n 0 (BitVec.ofNat 32 (2 ^ busy)) else s.emit (.regRead (s.readReg data n 0))
    s.readAcc idx data err n top key busy =
      if natBit (s.reg idx n 0).toNat 14 then s1.setFld idx n 0 top 0 (s.fld idx n 0 top 0 + 1) else s1 := by
  simp only [State.readAcc, h]
  rfl

theorem State.readAcc_out :
    (s.readAcc idx data err n top key busy).out = s.out ++ [.regRead (if s.accBusy n key then 0 else s.readReg data n 0)] := by
  rw [State.readAcc_open h]
  split <;> split <;> rfl

theorem State.readAcc_cores : (s.readAcc idx data err n top key busy).cores = s.cores := by
  rw [State.readAcc_open h]
  split <;> split <;> rfl

variable (hne : err.addr n 0 ≠ idx.addr n 0)
include hne

theorem State.readAcc_busy (hb : s.accBusy n key = true) (hbit : natBit (BitVec.ofNat 32 (2 ^ busy)).toNat busy = true) :
    natBit ((s.readAcc idx data err n top key busy).reg err n 0).toNat busy = true := by
  rw [State.readAcc_open h, if_pos hb]
  split
  · rw [State.setFld, State.reg_setReg_ne _ hne]
    exact State.natBit_orReg_self _ _ _ _ hbit
  · exact State.natBit_orReg_self _ _ _ _ hbit

/-- The WORD of the window advances where AUTO_INC (bit 14) is set, modulo its range. -/
theorem State.readAcc_word (htop : top < 32) :
    (s.readAcc idx data err n top key busy).fld idx n 0 top 0 =
      if natBit (s.reg idx n 0).toNat 14 then (bitsOf (s.reg idx n 0) top 0 + 1) % 2 ^ (top + 1) else bitsOf (s.reg idx n 0) top 0 := by
  rw [State.readAcc_open h]
  split
  · exact State.fld_setFld_self _ _ _ _ _ htop
  · split
    · rw [State.fld, State.orReg, State.reg_setReg_ne _ hne.symm]
      rfl
    · rfl

end

theorem State.readReg_woaAccData {s : State} {n : Nat} (h : s.blkOpen .core n = true) :
    s.readReg .woaAccData n 0 = if s.debugCore n then (AMap.get (0, 0) (8192 * bitsOf (s.reg .woaAccIdx n 0) 13 13 +
      bitsOf (s.reg .woaAccIdx n 0) 12 0) (s.core n).woaAcc).1 else 0 :=
  if_pos h

theorem State.readReg_madAccData {s : State} {n : Nat} (h : s.blkOpen .core n = true) :
    s.readReg .madAccData n 0 = if s.debugCore n then (AMap.get (0, 0) (4096 * bitsOf (s.reg .madAccIdx n 0) 13 12 +
      bitsOf (s.reg .madAccIdx n 0) 11 0) (s.core n).madAcc).1 else 0 :=
  if_pos h

end Sys2Proof.Machine
end

section

open Sys2Proof Sys2Proof.Machine Sys2Proof.Claim

/-- Settles O55: a write of BAR0 is decoded to a lock, a command or the access codes of a register; then each command by its cases. -/
theorem registersAreWrittenByTheirCodes : Obligations.RegistersAreWrittenByTheirCodes := by
  intro s off size u n vv r l q p e k x d c check hi v old m seed commands
  refine ⟨?badAccess, ?pair, ?word, ?command, ?lock, ?eventMask, ?seedsClosed, ?seeds, ?seedCopy, ?seedCopyDone, ?accClosed, ?acc⟩
  case badAccess => exact fun h4 h8 => exec_registerWrite_badAccess h4 h8 vv s
  case pair =>
    intro h8
    refine ⟨_, exec_registerWrite_word (by omega) vv s, ?_⟩
    have hupper : (vv >>> 32).extractLsb' 0 32 = vv.extractLsb' 32 32 := by
      ext i hi
      simp
    rw [exec_registerWrite_pair h8, exec_registerWrite_word (by omega), hupper]
  case word =>
    intro h4 hl hm
    rw [exec_registerWrite_word h4]
    refine ⟨fun hr => ?_, fun hr hplain => ?_⟩
    · rw [State.writeWord_reserved hl hm hr]
    · rw [State.writeWord_register hl hm hr, State.wrReg_eq_plainWrite hplain]
      exact ⟨fun h => by rw [State.plainWrite_ignored h], fun ho hi => by rw [State.plainWrite_taken ho hi]; rfl⟩
  case command =>
    have one : 0 < 1 := Nat.one_pos
    simp only [commands, List.forall_mem_cons]
    exact ⟨exec_registerWrite_command one one rfl, exec_registerWrite_command p.isLt q.isLt rfl,
      exec_registerWrite_command one q.isLt rfl, exec_registerWrite_command one q.isLt rfl,
      exec_registerWrite_command one q.isLt rfl,
      exec_registerWrite_command one q.isLt (exec_t3WindowWrite_lo q.isLt v s),
      exec_registerWrite_command one q.isLt (exec_t3WindowWrite_hi q.isLt v s),
      exec_registerWrite_command e.isLt one rfl, exec_registerWrite_command one one rfl,
      exec_registerWrite_command k.isLt one rfl, exec_registerWrite_command (weldKey_lt d) one rfl,
      exec_registerWrite_command one one rfl, exec_registerWrite_command one x.isLt rfl,
      exec_registerWrite_command one x.isLt rfl, exec_registerWrite_command one x.isLt rfl,
      exec_registerWrite_command one x.isLt rfl, exec_registerWrite_command one one rfl,
      List.forall_mem_nil _⟩
  case lock =>
    intro hl
    rw [exec_registerWrite_word (Reg.ofOffset_lock _ (mem_lockOffsets hl)).2, State.writeWord_lock hl, exec_lockWrite hl]
    refine ⟨rfl, fun h => congrArg _ (State.wrLock_closed h v), fun h =>
      ⟨_, rfl, State.wrLock_mem .., State.wrLock_unlock h, State.wrLock_lock h, fun hu h1 => ?_⟩⟩
    rw [State.wrLock_badKey h hu h1]
    exact ⟨rfl, State.natBit_orReg_self _ _ _ _ rfl⟩
  case eventMask =>
    refine ⟨_, rfl, ?_⟩
    cases hopen : s.blkOpen .gct 0 with
    | false => simp [State.wrEvtMask_closed hopen]
    | true =>
      rw [State.wrEvtMask_open hopen]
      obtain ⟨hmem, -⟩ := State.sendEvents_frame (s.setReg .gctEvtMask 0 0 (v &&& 0x3FF#32)) ((List.range 10).filter (s.unmasksPending v))
      refine ⟨hmem, nofun, fun _ => ⟨?_, ?_, ?_⟩⟩
      · rw [State.reg_sendEvents, State.reg_setReg_self]
      · rw [State.reg_sendEvents, State.reg_setReg_ne]
        decide
      · intro i hi hmasked hopened hpend hctrl hvector
        refine State.sendEvents_sent (List.mem_filter.2 ⟨List.mem_range.2 hi, ?_⟩) hvector
        simp [State.unmasksPending, hmasked, hopened, hpend, hctrl]
  case seedsClosed =>
    intro h
    obtain ⟨hctx, hvw⟩ := State.writes_krm_closed h seed x.val true v
    exact ⟨congrArg _ hctx, congrArg _ hvw⟩
  case seeds =>
    intro h
    have hctx : exec (.krmCtxSeedWrite x check hi v) s = .next (s.wrCtxSeed seed x.val v) := rfl
    have hvw : exec (.vwSeedWrite v) s = .next (s.wrVwSeed true v) := rfl
    have hlo := exec_registerWrite_addr (r := .krmVwSeedLo) Nat.one_pos Nat.one_pos vv s
    rw [hctx, hvw, hlo, State.wrCtxSeed_open h]
    refine ⟨fun hfree => congrArg _ (if_pos hfree), fun hbound => congrArg _ (if_neg hbound),
      fun ha => congrArg _ (State.wrVwSeed_armed h true v ha), fun ha hl => ?_, fun ha hl => ⟨_, rfl, ?_⟩,
      fun ha => congrArg _ (State.wrVwSeed_armed h false v ha), fun ha => congrArg _ (State.wrVwSeed_unarmed h false v ha)⟩
    · rw [State.wrVwSeed_unarmed h true v ha, if_neg (by simp [hl])]
    · rw [State.wrVwSeed_unarmed h true v ha, if_pos hl, if_pos rfl]
      refine ⟨?_, State.natBit_setFld_self _ _ _ _ false (by omega)⟩
      rw [State.setFld, State.reg_setReg_ne, State.reg_setReg_self]
      decide
  case seedCopy =>
    intro h
    refine ⟨_, exec_vwSeedCopyDone_running h, State.natBit_setFld_self _ _ _ _ true (by omega), fun i hi => ?_⟩
    rw [State.setFld, State.stack_of_setReg, State.vwSeed_seedStacks, if_pos (List.mem_range.2 hi)]
  case seedCopyDone => exact exec_vwSeedCopyDone_synced
  case accClosed =>
    exact fun h => ⟨congrArg _ (State.readAcc_closed h ..), congrArg _ (State.readAcc_closed h ..)⟩
  case acc =>
    intro h busy wi mi wv mv
    have hwne : Reg.addr .woaErr c.key 0 ≠ Reg.addr .woaAccIdx c.key 0 := by simp [Reg.addr, Reg.info]
    have hmne : Reg.addr .madErr c.key 0 ≠ Reg.addr .madAccIdx c.key 0 := by simp [Reg.addr, Reg.info]
    refine ⟨⟨_, rfl, ?_, State.readAcc_cores h .., ?_, State.readAcc_word h _ _ _ _ _ _ hwne (by omega)⟩,
      ⟨_, rfl, ?_, State.readAcc_cores h .., ?_, State.readAcc_word h _ _ _ _ _ _ hmne (by omega)⟩⟩
    · rw [State.readAcc_out h, State.readReg_woaAccData h]
      rfl
    · exact fun hb => State.readAcc_busy h _ _ _ _ _ _ hwne hb rfl
    · rw [State.readAcc_out h, State.readReg_madAccData h]
      rfl
    · exact fun hb => State.readAcc_busy h _ _ _ _ _ _ hmne hb rfl

end

section
/-! SUPPORT. Registers that stand apart, and what a report to the ERR log or to the Ochre monitor changes: nothing but the registers of the report,
of which the bits of MEM_ERR, MEM_VWR_ERR and OCH_REPLACE are only set, and, where errors are logged, memory (R340, R342, R406, R425, R488). -/

namespace Sys2Proof.Machine

open Sys2Proof.Claim

/-! ## Registers that stand apart -/

/-- Element `n` of the register of unit `u` exists (R482, R483). -/
def Reg.stands (r : Reg) (u n : Nat) : Prop := u < r.info.blk.units ∧ n < r.info.count

theorem Reg.addr_inj {q r : Reg} {i j u n : Nat} (hq : q.stands i j) (hr : r.stands u n) (h : q.addr i j = r.addr u n) : (q, i, j) = (r, u, n) := by
  have hdec := Reg.ofOffset_addr hq.1 hq.2
  rw [h, Reg.ofOffset_addr hr.1 hr.2] at hdec
  exact (Option.some.inj hdec).symm

theorem Reg.addr_ne {q r : Reg} {i j u n : Nat} (hq : q.stands i j) (hr : r.stands u n) (h : (q, i, j) ≠ (r, u, n)) : q.addr i j ≠ r.addr u n :=
  fun ha => h (Reg.addr_inj hq hr ha)

/-- Writing one register leaves another as it is. -/
theorem State.reg_setReg_other {q r : Reg} {i j u n : Nat} (hq : q.stands i j) (hr : r.stands u n) (h : (q, i, j) ≠ (r, u, n)) (s : State) (v : W32) :
    (s.setReg r u n v).reg q i j = s.reg q i j :=
  s.reg_setReg_ne (Reg.addr_ne hq hr h) v

theorem Reg.element_ne {q r : Reg} (h : q ≠ r) (i j u n : Nat) : (q, i, j) ≠ (r, u, n) := fun e => h (congrArg Prod.fst e)

theorem natBit_ofNat_two_pow {b : Nat} (hb : b < 32) : natBit (BitVec.ofNat 32 (2 ^ b)).toNat b = true := by
  have hlt : 2 ^ b < 2 ^ 32 := Nat.pow_lt_pow_right (by omega) hb
  rw [natBit_eq_testBit, BitVec.toNat_ofNat, Nat.mod_eq_of_lt hlt, Nat.testBit_two_pow_self]

/-- A bit once set stands when further bits are set. -/
theorem natBit_or_left {w : W32} {i : Nat} (h : natBit w.toNat i = true) (m : W32) : natBit (w ||| m).toNat i = true := by
  rw [natBit_eq_testBit] at h ⊢
  rw [BitVec.toNat_or, Nat.testBit_or, h, Bool.true_or]

/-! ## What a report changes -/

/-- The registers of which a report sets bits and clears none. -/
def stickyRegs : List Reg := [.memErr, .memVwrErr, .ochReplace]

/-- The registers that a report writes. -/
def reportRegs : List Reg := stickyRegs ++ [.errSrc, .errCnt, .errStatus, .errLogPtr, .gctEvtPend, .ochStatus]

/-- `t` is `s` after reports. -/
structure Reported (s t : State) : Prop where
  stack : ∀ st, t.stack st = s.stack st
  reg : ∀ {r u n}, r.stands u n → r ∉ reportRegs → t.reg r u n = s.reg r u n
  sets : ∀ {r u n i}, r.stands u n → r ∈ stickyRegs → natBit (s.reg r u n).toNat i = true → natBit (t.reg r u n).toNat i = true
  mem : unlogged s → t.mem = s.mem

theorem errCtrl_stands : Reg.errCtrl.stands 0 0 := ⟨Nat.one_pos, Nat.one_pos⟩

namespace Reported

variable {s t u : State}

theorem refl (s : State) : Reported s s := ⟨fun _ => rfl, fun _ _ => rfl, fun _ _ h => h, fun _ => rfl⟩

theorem unlogged_iff (h : Reported s t) : unlogged t ↔ unlogged s := by
  rw [unlogged, unlogged, h.reg errCtrl_stands (by decide)]

theorem trans (h : Reported s t) (k : Reported t u) : Reported s u where
  stack st := (k.stack st).trans (h.stack st)
  reg hr hn := (k.reg hr hn).trans (h.reg hr hn)
  sets hr hm hi := k.sets hr hm (h.sets hr hm hi)
  mem hl := (k.mem (h.unlogged_iff.2 hl)).trans (h.mem hl)

/-- A change of neither registers nor stacks nor memory counts as a report. -/
theorem of_frame (hregs : t.regs = s.regs) (hvar : t.variant = s.variant) (hstacks : t.hbms = s.hbms) (hmem : t.mem = s.mem) : Reported s t where
  stack st := by rw [State.stack, hstacks]; rfl
  reg _ _ := by rw [State.reg, hregs, hvar]; rfl
  sets _ _ h := by rw [State.reg, hregs, hvar]; exact h
  mem _ := hmem

theorem setMem (h : ¬ unlogged s) (m : Mem) : Reported s (s.setMem m) where
  stack _ := rfl
  reg _ _ := rfl
  sets _ _ hi := hi
  mem hl := absurd hl h

/-- A further report, where a condition holds. -/
theorem ite {c : Prop} [Decidable c] (h : Reported s t) (k : Reported t u) : Reported s (if c then u else t) := by
  split
  · exact h.trans k
  · exact h

section
variable {r : Reg} {i j : Nat} (h : Reported s t) (hr : r.stands i j) (hm : r ∈ reportRegs)
include h hr hm

theorem setReg (hs : r ∉ stickyRegs) (v : W32) : Reported s (t.setReg r i j v) := by
  refine h.trans ⟨fun _ => rfl, fun hq hn => ?_, fun hq hsq hi => ?_, fun _ => rfl⟩
  · exact State.reg_setReg_other hq hr (Reg.element_ne (ne_of_mem_of_not_mem hm hn).symm _ _ _ _) t v
  · rwa [State.reg_setReg_other hq hr (Reg.element_ne (ne_of_mem_of_not_mem hsq hs) _ _ _ _) t v]

theorem orReg (m : W32) : Reported s (t.orReg r i j m) := by
  refine h.trans ⟨fun _ => rfl, fun hq hn => ?_, fun {q k l _} hq _ hi => ?_, fun _ => rfl⟩
  · exact State.reg_setReg_other hq hr (Reg.element_ne (ne_of_mem_of_not_mem hm hn).symm _ _ _ _) t _
  · by_cases e : (q, k, l) = (r, i, j)
    · cases e
      rw [State.reg_orReg_self]
      exact natBit_or_left hi m
    · rwa [State.orReg, State.reg_setReg_other hq hr e]

end

theorem emit (h : Reported s t) (o : Out) : Reported s (t.emit o) := h.trans (of_frame rfl rfl rfl rfl)

theorem setMgmt (h : Reported s t) (m : Mgmt) : Reported s (t.setMgmt m) := h.trans (of_frame rfl rfl rfl rfl)

/-- Reports made one after another. -/
theorem foldl {α : Type} {f : State → α → State} (hf : ∀ s a, ¬ unlogged s → Reported s (f s a)) (l : List α) (hl : ¬ unlogged s) :
    Reported s (l.foldl f s) := by
  induction l generalizing s with
  | nil => exact refl s
  | cons a l ih => exact (hf s a hl).trans (ih (fun h => hl ((hf s a hl).unlogged_iff.1 h)))

end Reported

/-! ## The ERR log -/

/-- A bar names a partition or a stack of the device. -/
def Bar.inDevice : Bar → Prop
  | .region p => p < 4
  | .retired st => st < 20

theorem locOf_mem_bound {a p o : Nat} (h : locOf a = .mem p o) : p < 4 ∧ o < 0x5000000000 := by
  unfold locOf at h
  split at h
  · cases h
    omega
  · dsimp only at h
    repeat' split at h
    all_goals cases h

theorem State.stackOf_lt {p o : Nat} (hp : p < 4) (ho : o < 0x5000000000) (s : State) : s.stackOf p o < 20 := by
  unfold State.stackOf
  split <;> omega

theorem State.regionAt_bound {s : State} {a p i : Nat} (h : s.regionAt a = some (p, i)) : p < 4 := by
  unfold State.regionAt at h
  split at h
  next hloc =>
    obtain ⟨_, _, he⟩ := Option.map_eq_some_iff.1 h
    cases he
    exact (locOf_mem_bound hloc).1
  next => cases h

theorem State.bar_inDevice {s : State} {a : Nat} {b : Bar} (h : s.bar a = some b) : b.inDevice := by
  unfold State.bar at h
  split at h
  next hreg =>
    cases h
    exact State.regionAt_bound hreg
  next =>
    split at h
    next hloc =>
      split at h
      next =>
        cases h
        obtain ⟨hp, ho⟩ := locOf_mem_bound hloc
        exact State.stackOf_lt hp ho s
      next => cases h
    next => cases h

theorem State.barBit_reported {b : Bar} (h : b.inDevice) (s : State) (a : Nat) : Reported s (s.barBit a b) := by
  cases b with
  | region p => exact (Reported.refl s).orReg ⟨h, Nat.one_pos⟩ (by decide) 8
  | retired st => exact (Reported.refl s).orReg ⟨h, Nat.one_pos⟩ (by decide) 128

/-- A write of the ERR log, made only where errors are logged. -/
theorem State.logWrite_reported {s : State} (hl : ¬ unlogged s) (a : Nat) (b : List Byte) : Reported s (s.logWrite a b) := by
  unfold State.logWrite State.writeBy
  split
  next => split <;> exact Reported.of_frame rfl rfl rfl rfl
  next => exact Reported.refl s
  next =>
    unfold State.barredWrite
    dsimp only
    split
    · exact Reported.setMem hl _
    · refine Reported.foldl (fun u p hu => ?_) _ hl
      split
      next hbar => exact State.barBit_reported (State.bar_inDevice hbar) u _
      next => exact Reported.setMem hu _

theorem State.msix_reported (s : State) (k : Nat) : Reported s (s.msix k) := by
  unfold State.msix
  dsimp only
  split
  · split <;> exact Reported.of_frame rfl rfl rfl rfl
  · exact Reported.of_frame rfl rfl rfl rfl

theorem State.event_reported (s : State) (n : Nat) : Reported s (s.event n) := by
  have hset := (Reported.refl s).orReg (r := .gctEvtPend) (i := 0) (j := 0) ⟨Nat.one_pos, Nat.one_pos⟩ (by decide) (BitVec.ofNat 32 (2 ^ n))
  unfold State.event
  dsimp only
  split
  · exact Reported.refl s
  · split
    · exact hset
    · exact hset.trans (State.msix_reported _ _)

theorem State.errLog_reported (s : State) (r : ErrRec) : Reported s (s.errLog r) := by
  have hsrc := (Reported.refl s).orReg (r := .errSrc) (i := 0) (j := 0) ⟨Nat.one_pos, Nat.one_pos⟩ (by decide) (BitVec.ofNat 32 (2 ^ r.source))
  unfold State.errLog
  dsimp only
  split
  · exact hsrc
  next hlog =>
    split
    · exact (hsrc.setReg ⟨Nat.one_pos, by decide⟩ (by decide) (by decide) _).orReg ⟨Nat.one_pos, Nat.one_pos⟩ (by decide) _
    · have hwritten (a : Nat) (b : List Byte) := hsrc.trans (State.logWrite_reported (fun hu => hlog (congrArg Bool.not hu)) a b)
      exact (((hwritten _ _).setReg ⟨Nat.one_pos, Nat.one_pos⟩ (by decide) (by decide) _).setReg ⟨Nat.one_pos, Nat.one_pos⟩
        (by decide) (by decide) _).ite (State.event_reported _ 4)

/-! ## Reports of a stack and of its device -/

section
variable {st b : Nat} (hst : st < 20)
include hst

theorem State.memErr_reported (s : State) (b scope addr : Nat) : Reported s (s.memErr st b scope addr) :=
  ((Reported.refl s).orReg ⟨hst, Nat.one_pos⟩ (by decide) _).ite (State.errLog_reported _ _)

theorem State.memErr_sets (s : State) (hb : b < 32) (scope addr : Nat) : natBit ((s.memErr st b scope addr).reg .memErr st 0).toNat b = true := by
  have hlog : Reported (s.orReg .memErr st 0 (BitVec.ofNat 32 (2 ^ b))) (s.memErr st b scope addr) :=
    (Reported.refl _).ite (State.errLog_reported _ _)
  exact hlog.sets ⟨hst, Nat.one_pos⟩ (by decide) (s.natBit_orReg_self _ _ _ (natBit_ofNat_two_pow hb))

end

section
variable {s : State} {b : Nat}

/-- A cause that holds for the first time: what follows its bit is a report. -/
theorem State.replaceCause_new (hnew : natBit (s.reg .ochReplace 0 0).toNat b = false) :
    Reported (s.orReg .ochReplace 0 0 (BitVec.ofNat 32 (2 ^ b))) (s.replaceCause b 0) := by
  unfold State.replaceCause
  simp only [hnew, Bool.false_eq_true, if_false]
  refine .trans ?_ (State.event_reported _ 5)
  exact ((((Reported.refl _).setReg ⟨Nat.one_pos, Nat.one_pos⟩ (by decide) (by decide) _).setMgmt _).emit _).emit _

/-- A cause that held before. -/
theorem State.replaceCause_old (hold : natBit (s.reg .ochReplace 0 0).toNat b = true) : 
    s.replaceCause b 0 = s.orReg .ochReplace 0 0 (BitVec.ofNat 32 (256 * 0)) := by
  unfold State.replaceCause
  exact if_pos hold

theorem State.replaceCause_sets (hb : b < 32) :
    Reported s (s.replaceCause b 0) ∧ natBit ((s.replaceCause b 0).reg .ochReplace 0 0).toNat b = true := by
  have hstands : Reg.ochReplace.stands 0 0 := ⟨Nat.one_pos, Nat.one_pos⟩
  have hor (m : W32) : Reported s (s.orReg .ochReplace 0 0 m) := (Reported.refl s).orReg hstands (by decide) m
  cases h : natBit (s.reg .ochReplace 0 0).toNat b with
  | true =>
    rw [State.replaceCause_old h]
    exact ⟨hor _, (hor _).sets hstands (by decide) h⟩
  | false =>
    have hrest := State.replaceCause_new h
    exact ⟨(hor _).trans hrest, hrest.sets hstands (by decide) (s.natBit_orReg_self _ _ _ (natBit_ofNat_two_pow hb))⟩

end

end Sys2Proof.Machine
end

section
/-! SUPPORT. What the base die of a stack does: the repair of a row, corrections, uncorrectable units and scrub (R336, R338, R339, R425), and the
frames of a stack (R345). -/

namespace Sys2Proof.Machine

open Sys2Proof.Claim

/-! ## The repair of a row -/

/-- The spare rows used in the bank of a row of a stack. -/
def State.sparesIn (s : State) (st row : Nat) : Nat := AMap.get 0 (Config.bankOf row) (s.stack st).sparesUsed

/-- A stack with the repair of a row running, in one spare row more of its bank. -/
def Stack.repairing (v : Stack) (row used : Nat) : Stack :=
  { v with repairs := v.repairs ++ [row], sparesUsed := AMap.put 0 (Config.bankOf row) (used + 1) v.sparesUsed }

theorem Reported.of_same_stack (s : State) (st : Nat) : Reported (s.setStack st (s.stack st)) s where
  stack k := by
    rw [State.stack_setStack]
    split
    next h => rw [h]
    next => rfl
  reg _ _ := rfl
  sets _ _ h := h
  mem _ := rfl

/-- The report of a bank that has no spare row left. -/
def State.reportSpares (s : State) (st used : Nat) : State :=
  if Config.spareRows ≤ used + 1 then (s.memErr st 5 0 0).replaceCause 3 0 else s

section
variable {s : State} {st row : Nat}

theorem State.repairRow_idle (h : (s.stack st).repairs.contains row = true ∨ natBit (s.reg .memCtrl st 0).toNat 1 = false) :
    s.repairRow st row = s :=
  if_pos (by simpa using h)

theorem State.repairRow_runs (hnone : (s.stack st).repairs.contains row = false) (hen : natBit (s.reg .memCtrl st 0).toNat 1 = true) :
    s.repairRow st row = (if Config.spareRows ≤ s.sparesIn st row then s
      else s.setStack st ((s.stack st).repairing row (s.sparesIn st row))).reportSpares st (s.sparesIn st row) := by
  have hrun : s.repairRow st row = if Config.spareRows ≤ s.sparesIn st row then s.reportSpares st (s.sparesIn st row)
      else (s.setStack st ((s.stack st).repairing row (s.sparesIn st row))).reportSpares st (s.sparesIn st row) := if_neg (by rw [hnone, hen]; decide)
  rw [hrun]
  split <;> rfl

variable (hst : st < 20)
include hst

theorem State.reportSpares_reported (s : State) (used : Nat) : Reported s (s.reportSpares st used) :=
  (Reported.refl s).ite ((State.memErr_reported hst s 5 0 0).trans (State.replaceCause_sets (by decide)).1)

/-- REPAIR_EXHAUSTED and the replacement cause of the last spare row. -/
theorem State.reportSpares_sets (s : State) {used : Nat} (hlast : Config.spareRows ≤ used + 1) :
    natBit ((s.reportSpares st used).reg .memErr st 0).toNat 5 = true ∧ natBit ((s.reportSpares st used).reg .ochReplace 0 0).toNat 3 = true := by
  obtain ⟨hrep, hcause⟩ := State.replaceCause_sets (s := s.memErr st 5 0 0) (b := 3) (by decide)
  rw [State.reportSpares, if_pos hlast]
  exact ⟨hrep.sets ⟨hst, Nat.one_pos⟩ (by decide) (State.memErr_sets hst s (by decide) 0 0), hcause⟩

/-- A repair changes the stack's repairs and spare rows, and is else a report. -/
theorem State.repairRow_reported (s : State) (row : Nat) :
    ∃ v, v.rowErr = (s.stack st).rowErr ∧ Reported (s.setStack st v) (s.repairRow st row) := by
  by_cases hidle : (s.stack st).repairs.contains row = true ∨ natBit (s.reg .memCtrl st 0).toNat 1 = false
  · rw [State.repairRow_idle hidle]
    exact ⟨s.stack st, rfl, Reported.of_same_stack s st⟩
  · simp only [not_or, Bool.not_eq_true, Bool.not_eq_false] at hidle
    rw [State.repairRow_runs hidle.1 hidle.2]
    split
    · exact ⟨s.stack st, rfl, (Reported.of_same_stack s st).trans (State.reportSpares_reported hst s _)⟩
    · exact ⟨(s.stack st).repairing row (s.sparesIn st row), rfl, State.reportSpares_reported hst _ _⟩

theorem State.repairRow_starts (hnone : (s.stack st).repairs.contains row = false) (hen : natBit (s.reg .memCtrl st 0).toNat 1 = true) :
    (((s.repairRow st row).stack st).repairs.contains row = true ∨ Config.spareRows ≤ s.sparesIn st row) ∧
      (Config.spareRows ≤ s.sparesIn st row + 1 → natBit ((s.repairRow st row).reg .memErr st 0).toNat 5 = true ∧
        natBit ((s.repairRow st row).reg .ochReplace 0 0).toNat 3 = true) := by
  rw [State.repairRow_runs hnone hen]
  refine ⟨?_, State.reportSpares_sets hst _⟩
  split
  next h => exact .inr h
  next =>
    refine .inl ?_
    rw [(State.reportSpares_reported hst _ _).stack, State.stack_setStack_self]
    simp [Stack.repairing]

end

/-! ## Corrections -/

/-- A correction counted, before the row's repair: CE, MEM_CNT[3], the row's count and the corrections of the last hour. -/
def State.countCorrection (s : State) (st row : Nat) : State :=
  let now := s.tim.now.toNat
  let v := s.stack st
  let fresh := decide (v.period + s.fld .memCtrl st 0 15 8 * 3600000000000 ≤ now)
  ((s.orReg .memErr st 0 1).bump .memCnt st 3 1).setStack st { v with
    rowErr := AMap.put 0 row (rowErrors s st row + 1) (if fresh then [] else v.rowErr)
    period := if fresh then now else v.period
    hour := v.hour.filter (fun t => decide (now < t + 3600000000000)) ++ [now] }

theorem State.corrected_eq (s : State) (st row : Nat) :
    s.corrected st row =
      if s.fld .memCtrl st 0 23 16 ≤ rowErrors s st row + 1 then (s.countCorrection st row).repairRow st row else s.countCorrection st row := by
  have herrs : AMap.get 0 row (if decide ((s.stack st).period + s.fld .memCtrl st 0 15 8 * 3600000000000 ≤ s.tim.now.toNat) then []
      else (s.stack st).rowErr) = rowErrors s st row := by
    simp only [decide_eq_true_eq, rowErrors]
    split <;> rfl
  unfold State.corrected State.countCorrection
  rw [← herrs]
  rfl

theorem unlogged_setStack (s : State) (st : Nat) (v : Stack) : unlogged (s.setStack st v) ↔ unlogged s := Iff.rfl

theorem State.mem_countCorrection (s : State) (st row : Nat) : (s.countCorrection st row).mem = s.mem := rfl

theorem State.corrected_below {s : State} {st row : Nat} (h : rowErrors s st row + 1 < s.fld .memCtrl st 0 23 16) :
    ((s.corrected st row).stack st).repairs = (s.stack st).repairs := by
  rw [State.corrected_eq, if_neg (by omega), State.countCorrection, State.stack_setStack_self]

section
variable {st row : Nat} (hst : st < 20)
include hst

/-- A correction writes MEM_ERR and MEM_CNT[3] of its stack and no other register. -/
theorem State.reg_countCorrection (s : State) (row : Nat) {q : Reg} {i j : Nat} (hq : q.stands i j) (herr : (q, i, j) ≠ (.memErr, st, 0))
    (hcnt : (q, i, j) ≠ (.memCnt, st, 3)) : (s.countCorrection st row).reg q i j = s.reg q i j := by
  rw [State.countCorrection, State.reg_of_setStack, State.bump, State.reg_setReg_other hq ⟨hst, by decide⟩ hcnt, State.orReg,
    State.reg_setReg_other hq ⟨hst, Nat.one_pos⟩ herr]

theorem State.memErr_countCorrection (s : State) (row : Nat) : natBit ((s.countCorrection st row).reg .memErr st 0).toNat 0 = true := by
  rw [State.countCorrection, State.reg_of_setStack, State.bump,
    State.reg_setReg_other ⟨hst, Nat.one_pos⟩ ⟨hst, by decide⟩ (Reg.element_ne (by decide) _ _ _ _)]
  exact s.natBit_orReg_self _ _ _ rfl

theorem State.memCnt_countCorrection (s : State) (row : Nat) : (s.countCorrection st row).reg .memCnt st 3 = s.reg .memCnt st 3 + 1 := by
  rw [State.countCorrection, State.reg_of_setStack, State.bump, State.reg_setReg_self, State.orReg,
    State.reg_setReg_other ⟨hst, by decide⟩ ⟨hst, Nat.one_pos⟩ (Reg.element_ne (by decide) _ _ _ _)]
  rfl

theorem State.unlogged_countCorrection (s : State) (row : Nat) : unlogged (s.countCorrection st row) ↔ unlogged s := by
  rw [unlogged, unlogged, State.reg_countCorrection hst s row errCtrl_stands (Reg.element_ne (by decide) _ _ _ _)
    (Reg.element_ne (by decide) _ _ _ _)]

/-- What is counted stands after the repair of the row too, which is else a report. -/
theorem State.corrected_reported (s : State) (row : Nat) :
    ∃ v, v.rowErr = ((s.countCorrection st row).stack st).rowErr ∧ Reported ((s.countCorrection st row).setStack st v) (s.corrected st row) := by
  rw [State.corrected_eq]
  split
  · exact State.repairRow_reported hst _ row
  · exact ⟨_, rfl, Reported.of_same_stack _ st⟩

theorem State.corrected_counts (s : State) (row : Nat) :
    natBit ((s.corrected st row).reg .memErr st 0).toNat 0 = true ∧ (s.corrected st row).reg .memCnt st 3 = s.reg .memCnt st 3 + 1 ∧
      AMap.get 0 row ((s.corrected st row).stack st).rowErr = rowErrors s st row + 1 ∧ (unlogged s → (s.corrected st row).mem = s.mem) := by
  obtain ⟨v, hrows, hrep⟩ := State.corrected_reported hst s row
  refine ⟨hrep.sets ⟨hst, Nat.one_pos⟩ (by decide) ?_, ?_, ?_, fun hl => ?_⟩
  · rw [State.reg_of_setStack]
    exact State.memErr_countCorrection hst s row
  · rw [hrep.reg ⟨hst, by decide⟩ (by decide), State.reg_of_setStack, State.memCnt_countCorrection hst]
  · rw [hrep.stack, State.stack_setStack_self, hrows, State.countCorrection, State.stack_setStack_self]
    dsimp only
    exact AMap.get_put_self 0 row _ _
  · rw [hrep.mem ((unlogged_setStack _ st v).2 ((State.unlogged_countCorrection hst s row).2 hl)), State.setStack_mem, State.mem_countCorrection]

/-- At REPAIR_TH the row is repaired, where SOFT_REPAIR_EN is set and no repair of it runs (R339). -/
theorem State.corrected_starts (s : State) (hth : s.fld .memCtrl st 0 23 16 ≤ rowErrors s st row + 1)
    (hen : natBit (s.reg .memCtrl st 0).toNat 1 = true) (hnone : (s.stack st).repairs.contains row = false) :
    (((s.corrected st row).stack st).repairs.contains row = true ∨ Config.spareRows ≤ s.sparesIn st row) ∧
      (Config.spareRows ≤ s.sparesIn st row + 1 → natBit ((s.corrected st row).reg .memErr st 0).toNat 5 = true ∧
        natBit ((s.corrected st row).reg .ochReplace 0 0).toNat 3 = true) := by
  have hctrl : (s.countCorrection st row).reg .memCtrl st 0 = s.reg .memCtrl st 0 :=
    State.reg_countCorrection hst s row ⟨hst, Nat.one_pos⟩ (Reg.element_ne (by decide) _ _ _ _) (Reg.element_ne (by decide) _ _ _ _)
  have hrepairs : ((s.countCorrection st row).stack st).repairs = (s.stack st).repairs := by
    rw [State.countCorrection, State.stack_setStack_self]
  have hspares : (s.countCorrection st row).sparesIn st row = s.sparesIn st row := by
    rw [State.sparesIn, State.countCorrection, State.stack_setStack_self]
    rfl
  have hstart := State.repairRow_starts (s := s.countCorrection st row) (row := row) hst (by rw [hrepairs, hnone]) (by rw [hctrl, hen])
  rw [State.corrected_eq, if_pos hth]
  rwa [hspares] at hstart

/-- A correction that is written back first: what patrol scrub leaves where it corrects a unit (R338, R339). -/
theorem State.corrected_setMem (s : State) (m : Mem) (row : Nat) :
    let t := (s.setMem m).corrected st row
    natBit (t.reg .memErr st 0).toNat 0 = true ∧ t.reg .memCnt st 3 = s.reg .memCnt st 3 + 1 ∧
      AMap.get 0 row (t.stack st).rowErr = rowErrors s st row + 1 ∧ (unlogged s → t.mem = m) ∧
      (rowErrors s st row + 1 < s.fld .memCtrl st 0 23 16 → (t.stack st).repairs = (s.stack st).repairs) ∧
      (s.fld .memCtrl st 0 23 16 ≤ rowErrors s st row + 1 → natBit (s.reg .memCtrl st 0).toNat 1 = true →
        (s.stack st).repairs.contains row = false →
        ((t.stack st).repairs.contains row = true ∨ Config.spareRows ≤ s.sparesIn st row) ∧
          (Config.spareRows ≤ s.sparesIn st row + 1 → natBit (t.reg .memErr st 0).toNat 5 = true ∧
            natBit (t.reg .ochReplace 0 0).toNat 3 = true)) := by
  have herrs : rowErrors (s.setMem m) st row = rowErrors s st row := rfl
  have hfld : (s.setMem m).fld .memCtrl st 0 23 16 = s.fld .memCtrl st 0 23 16 := rfl
  have hspares : (s.setMem m).sparesIn st row = s.sparesIn st row := rfl
  have hbelow := State.corrected_below (s := s.setMem m) (st := st) (row := row)
  have hstarts := State.corrected_starts (row := row) hst (s.setMem m)
  obtain ⟨hce, hcnt, hrows, hmem⟩ := State.corrected_counts hst (s.setMem m) row
  rw [herrs] at hrows hbelow hstarts
  rw [hfld, State.stack_of_setMem] at hbelow
  rw [hfld, hspares, State.stack_of_setMem, State.reg_of_setMem] at hstarts
  exact ⟨hce, hcnt, hrows, hmem, hbelow, hstarts⟩

end

/-! ## Uncorrectable units -/

/-- An uncorrectable unit rewritten and recorded, before its error is counted (R336, R344). -/
def State.markUncorrectable (s : State) (st a kind : Nat) : State :=
  let r := (Config.freeValue 2 s.free).toNat
  (s.draw.setMem ((s.mem.settle (a / 64)).setPo (a / 64) true)).noteUe st a kind (if r = 3 then 15 else 3 + r)

/-- An uncorrectable unit counted, before its row's repair. -/
def State.countUncorrectable (s : State) (st a kind : Nat) : State :=
  (((s.markUncorrectable st a kind).memErr st 1 1 a).bump .memCnt st 4 1).bump .errCnt 0 0 1

theorem State.uncorrectable_eq (s : State) (st o kind : Nat) :
    s.uncorrectable st o kind = (s.countUncorrectable st (s.stackAddr st o) kind).repairRow st (o / 2048) := by
  unfold State.uncorrectable State.countUncorrectable State.markUncorrectable
  rfl

/-- What patrol scrub does where it finds an uncorrectable unit: it is counted with KIND 2, its row repaired, and SCRUB_UE set (R338). -/
def State.scrubUncorrectable (s : State) (st a row : Nat) : State := ((s.countUncorrectable st a 2).repairRow st row).memErr st 3 0 a

/-- KIND stands in bits 23 : 20 of MEM_UE_ADDR_HI, above the four bits of the symbols in error. -/
theorem bitsOf_ueAddrHi (a : Nat) {symbols kind : Nat} (hs : symbols < 16) (hk : kind < 16) :
    bitsOf (BitVec.ofNat 32 (a / 2 ^ 32 % 65536 + symbols * 65536 + kind * 2 ^ 20)) 23 20 = kind := by
  simp only [bitsOf, Nat.shiftRight_eq_div_pow, BitVec.toNat_ofNat]
  omega

section
variable {st : Nat} (hst : st < 20)
include hst

/-- Marking a unit writes MEM_UE_ADDR of its stack and no other register. -/
theorem State.reg_markUncorrectable (s : State) (a kind : Nat) {q : Reg} {i j : Nat} (hq : q.stands i j) (hlo : q ≠ .memUeAddrLo)
    (hhi : q ≠ .memUeAddrHi) : (s.markUncorrectable st a kind).reg q i j = s.reg q i j := by
  rw [State.markUncorrectable, State.noteUe, State.reg_setReg_other hq ⟨hst, Nat.one_pos⟩ (Reg.element_ne hhi _ _ _ _),
    State.reg_setReg_other hq ⟨hst, Nat.one_pos⟩ (Reg.element_ne hlo _ _ _ _), State.reg_of_setMem, State.reg_of_draw]

theorem State.ueAddr_markUncorrectable (s : State) (a : Nat) {kind : Nat} (hk : kind < 16) :
    (s.markUncorrectable st a kind).reg .memUeAddrLo st 0 = BitVec.ofNat 32 (a / 64 * 64) ∧
      (s.markUncorrectable st a kind).fld .memUeAddrHi st 0 23 20 = kind := by
  have hr := (Config.freeValue 2 s.free).isLt
  rw [State.markUncorrectable, State.noteUe]
  refine ⟨?_, ?_⟩
  · rw [State.reg_setReg_other ⟨hst, Nat.one_pos⟩ ⟨hst, Nat.one_pos⟩ (Reg.element_ne (by decide) _ _ _ _), State.reg_setReg_self]
  · rw [State.fld, State.reg_setReg_self]
    exact bitsOf_ueAddrHi a (by split <;> omega) hk

/-- Counting an uncorrectable unit writes MEM_CNT[4] of its stack, and is else a report after the unit is marked. -/
theorem State.reg_countUncorrectable (s : State) (a kind : Nat) {q : Reg} {i j : Nat} (hq : q.stands i j) (hn : q ∉ reportRegs)
    (hcnt : q ≠ .memCnt) : (s.countUncorrectable st a kind).reg q i j = (s.markUncorrectable st a kind).reg q i j := by
  have herr : q ≠ .errCnt := fun h => hn (h ▸ by decide)
  rw [State.countUncorrectable, State.bump, State.reg_setReg_other hq ⟨Nat.one_pos, by decide⟩ (Reg.element_ne herr _ _ _ _), State.bump,
    State.reg_setReg_other hq ⟨hst, by decide⟩ (Reg.element_ne hcnt _ _ _ _), (State.memErr_reported hst _ 1 1 a).reg hq hn]

theorem State.memCnt_countUncorrectable (s : State) (a kind : Nat) :
    (s.countUncorrectable st a kind).reg .memCnt st 4 = s.reg .memCnt st 4 + 1 := by
  have hq : Reg.memCnt.stands st 4 := ⟨hst, by decide⟩
  rw [State.countUncorrectable, State.bump, State.reg_setReg_other hq ⟨Nat.one_pos, by decide⟩ (Reg.element_ne (by decide) _ _ _ _), State.bump,
    State.reg_setReg_self, (State.memErr_reported hst _ 1 1 a).reg hq (by decide),
    State.reg_markUncorrectable hst s a kind hq (by decide) (by decide)]
  rfl

theorem State.memErr_countUncorrectable (s : State) (a kind : Nat) :
    natBit ((s.countUncorrectable st a kind).reg .memErr st 0).toNat 1 = true := by
  have hq : Reg.memErr.stands st 0 := ⟨hst, Nat.one_pos⟩
  rw [State.countUncorrectable, State.bump, State.reg_setReg_other hq ⟨Nat.one_pos, by decide⟩ (Reg.element_ne (by decide) _ _ _ _), State.bump,
    State.reg_setReg_other hq ⟨hst, by decide⟩ (Reg.element_ne (by decide) _ _ _ _)]
  exact State.memErr_sets hst _ (by decide) 1 a

theorem State.unlogged_markUncorrectable (s : State) (a kind : Nat) : unlogged (s.markUncorrectable st a kind) ↔ unlogged s := by
  rw [unlogged, unlogged, State.reg_markUncorrectable hst s a kind errCtrl_stands (by decide) (by decide)]

theorem State.unlogged_countUncorrectable (s : State) (a kind : Nat) : unlogged (s.countUncorrectable st a kind) ↔ unlogged s := by
  rw [← State.unlogged_markUncorrectable hst s a kind, unlogged, unlogged,
    State.reg_countUncorrectable hst s a kind errCtrl_stands (by decide) (by decide)]

theorem State.mem_countUncorrectable (s : State) (a kind : Nat) (hl : unlogged s) :
    (s.countUncorrectable st a kind).mem = (s.mem.settle (a / 64)).setPo (a / 64) true := by
  rw [State.countUncorrectable, State.bump, State.setReg_mem, State.bump, State.setReg_mem,
    (State.memErr_reported hst _ 1 1 a).mem ((State.unlogged_markUncorrectable hst s a kind).2 hl), State.markUncorrectable, State.noteUe,
    State.setReg_mem, State.setReg_mem, State.setMem_mem]

/-- UE and SCRUB_UE stand after scrub has found an uncorrectable unit; the rest is a report after the unit's count. -/
theorem State.scrubUncorrectable_reported (s : State) (a row : Nat) :
    ∃ v, Reported ((s.countUncorrectable st a 2).setStack st v) (s.scrubUncorrectable st a row) := by
  obtain ⟨v, -, hrepair⟩ := State.repairRow_reported hst (s.countUncorrectable st a 2) row
  exact ⟨v, hrepair.trans (State.memErr_reported hst _ 3 0 a)⟩

theorem State.memErr_scrubUncorrectable (s : State) (a row : Nat) :
    natBit ((s.scrubUncorrectable st a row).reg .memErr st 0).toNat 1 = true ∧
      natBit ((s.scrubUncorrectable st a row).reg .memErr st 0).toNat 3 = true := by
  obtain ⟨v, hrep⟩ := State.scrubUncorrectable_reported hst s a row
  refine ⟨hrep.sets ⟨hst, Nat.one_pos⟩ (by decide) ?_, ?_⟩
  · rw [State.reg_of_setStack]
    exact State.memErr_countUncorrectable hst s a 2
  · rw [State.scrubUncorrectable]
    exact State.memErr_sets hst _ (by decide) 0 a

theorem State.memCnt_scrubUncorrectable (s : State) (a row : Nat) :
    (s.scrubUncorrectable st a row).reg .memCnt st 4 = s.reg .memCnt st 4 + 1 := by
  obtain ⟨v, hrep⟩ := State.scrubUncorrectable_reported hst s a row
  rw [hrep.reg ⟨hst, by decide⟩ (by decide), State.reg_of_setStack, State.memCnt_countUncorrectable hst]

theorem State.ueAddr_scrubUncorrectable (s : State) (a row : Nat) :
    (s.scrubUncorrectable st a row).reg .memUeAddrLo st 0 = BitVec.ofNat 32 (a / 64 * 64) ∧
      (s.scrubUncorrectable st a row).fld .memUeAddrHi st 0 23 20 = 2 := by
  obtain ⟨v, hrep⟩ := State.scrubUncorrectable_reported hst s a row
  have hreg {q : Reg} (hq : q.stands st 0) (hn : q ∉ reportRegs) (hcnt : q ≠ .memCnt) :
      (s.scrubUncorrectable st a row).reg q st 0 = (s.markUncorrectable st a 2).reg q st 0 := by
    rw [hrep.reg hq hn, State.reg_of_setStack, State.reg_countUncorrectable hst s a 2 hq hn hcnt]
  rw [State.fld, hreg (q := .memUeAddrLo) ⟨hst, Nat.one_pos⟩ (by decide) (by decide),
    hreg (q := .memUeAddrHi) ⟨hst, Nat.one_pos⟩ (by decide) (by decide)]
  exact State.ueAddr_markUncorrectable hst s a (by decide)

theorem State.mem_scrubUncorrectable (s : State) (a row : Nat) (hl : unlogged s) :
    (s.scrubUncorrectable st a row).mem = (s.mem.settle (a / 64)).setPo (a / 64) true := by
  obtain ⟨v, hrep⟩ := State.scrubUncorrectable_reported hst s a row
  rw [hrep.mem ((unlogged_setStack _ st v).2 ((State.unlogged_countUncorrectable hst s a 2).2 hl)), State.setStack_mem,
    State.mem_countUncorrectable hst s a 2 hl]

end

/-! ## Scrub -/

section
variable {s : State} {stack : Fin 20} (unit : Nat)

theorem exec_scrub_off (h : scrubs s stack.val = false) (f : ScrubFinding) : exec (.scrub stack unit f) s = .next s := by
  have hexec : exec (.scrub stack unit f) s = execScrub stack unit f s := rfl
  have hoff : !natBit (s.reg .memCtrl stack.val 0).toNat 0 ∨ s.stage < 2 ∨ (s.stack stack.val).selfRefresh := by
    simp only [scrubs, Bool.and_eq_false_iff, decide_eq_false_iff_not, Bool.not_eq_false', Nat.not_le] at h
    simpa [or_assoc] using h
  rw [hexec, execScrub]
  exact if_pos hoff

theorem exec_scrub_clean (h : s.mem.finding (s.stackAddr stack.val (unit % 2 ^ 30 * 64) / 64) = .clean) :
    exec (.scrub stack unit .clean) s = .next s := by
  have hexec : exec (.scrub stack unit .clean) s = execScrub stack unit .clean s := rfl
  rw [hexec, execScrub]
  simp only [h, ite_self]

variable (hon : scrubs s stack.val = true)
include hon

theorem not_scrubs_off : ¬ (!natBit (s.reg .memCtrl stack.val 0).toNat 0 ∨ s.stage < 2 ∨ (s.stack stack.val).selfRefresh) := by
  simp only [scrubs, Bool.and_eq_true, decide_eq_true_eq, Bool.not_eq_true'] at hon
  obtain ⟨⟨hen, hstage⟩, hself⟩ := hon
  simp [hen, hself, Nat.not_lt.2 hstage]

/-- Scrub corrects a unit: the codeword as it was read is written back where the state held symbols in error. -/
theorem exec_scrub_corrected {f : ScrubFinding} (o : Nat) (ho : o = unit % 2 ^ 30 * 64) :
    let u := s.stackAddr stack.val o / 64
    (finds s (s.stackAddr stack.val o) .corrected f ∨ ∃ k, s.mem.finding u = .fixed k) →
    exec (.scrub stack unit f) s =
      .next ((s.setMem (if s.mem.finding u = .clean then s.mem else s.mem.settle u)).corrected stack.val (o / 2048)) := by
  intro u h
  have hexec : exec (.scrub stack unit f) s = execScrub stack unit f s := rfl
  rw [hexec, execScrub, ← ho]
  simp only [if_neg (not_scrubs_off hon)]
  obtain ⟨hclean, rfl⟩ | ⟨k, hk⟩ := h
  · simp only [u, hclean]
    rfl
  · simp only [u, hk]
    rfl

theorem exec_scrub_uncorrectable {f : ScrubFinding} (o : Nat) (ho : o = unit % 2 ^ 30 * 64)
    (h : finds s (s.stackAddr stack.val o) .uncorrectable f ∨ s.mem.finding (s.stackAddr stack.val o / 64) = .bad) :
    exec (.scrub stack unit f) s = .next (s.scrubUncorrectable stack.val (s.stackAddr stack.val o) (o / 2048)) := by
  have hexec : exec (.scrub stack unit f) s = execScrub stack unit f s := rfl
  rw [hexec, execScrub, ← ho]
  simp only [if_neg (not_scrubs_off hon)]
  obtain ⟨hclean, rfl⟩ | hbad := h
  · simp only [hclean]
    rfl
  · simp only [hbad]
    rfl

end

/-! ## The end of a repair, frames and self-refresh -/

section
variable {s : State} {stack : Fin 20} {row : Nat}

theorem exec_rowRepairDone_none (h : (s.stack stack.val).repairs.contains row = false) : exec (.rowRepairDone stack row) s = .next s := by
  have hexec : exec (.rowRepairDone stack row) s = execRowRepairDone stack row s := rfl
  rw [hexec, execRowRepairDone]
  exact if_pos (by rw [h]; rfl)

/-- A stack whose repair of a row has ended. -/
def Stack.repaired (v : Stack) (row : Nat) : Stack := { v with repairs := v.repairs.erase row, rowErr := AMap.put 0 row 0 v.rowErr }

/-- The end of the repair of a row of a stack, counted, before it goes into the repair log (R339). -/
def State.endRepair (s : State) (st row : Nat) : State :=
  ((s.setStack st ((s.stack st).repaired row)).orReg .memErr st 0 (BitVec.ofNat 32 (2 ^ 4))).setFld .memRepair st 0 11 0
    (min 0xFFF (s.fld .memRepair st 0 11 0 + 1))

theorem exec_rowRepairDone_ends (h : (s.stack stack.val).repairs.contains row = true) :
    exec (.rowRepairDone stack row) s = .next ((s.endRepair stack.val row).setMgmt
      { (s.endRepair stack.val row).mgmt with repairLog := (s.endRepair stack.val row).mgmt.repairLog ++ [(stack.val, row)] }) := by
  have hexec : exec (.rowRepairDone stack row) s = execRowRepairDone stack row s := rfl
  rw [hexec, execRowRepairDone]
  exact if_neg (by rw [h]; decide)

theorem exec_stackIdleRefresh_idles (hpart : (s.part (stack.val / 5)).pwr ≠ .idle)
    (hlast : (s.stack stack.val).lastAccess.toNat + 1000000 ≤ s.tim.now.toNat) :
    exec (.stackIdleRefresh stack) s = .next (s.setStack stack.val { s.stack stack.val with selfRefresh := true }) :=
  if_pos ⟨hpart, hlast⟩

theorem exec_stackIdleRefresh_stays
    (h : (s.part (stack.val / 5)).pwr = .idle ∨ s.tim.now.toNat < (s.stack stack.val).lastAccess.toNat + 1000000) :
    exec (.stackIdleRefresh stack) s = .next s :=
  if_neg (by rintro ⟨hpart, hlast⟩; exact h.elim hpart (by omega))

end

theorem State.memErr_endRepair {st : Nat} (hst : st < 20) (s : State) (row : Nat) :
    natBit ((s.endRepair st row).reg .memErr st 0).toNat 4 = true := by
  rw [State.endRepair, State.setFld, State.reg_setReg_other ⟨hst, Nat.one_pos⟩ ⟨hst, Nat.one_pos⟩ (Reg.element_ne (by decide) _ _ _ _)]
  exact State.natBit_orReg_self _ _ _ _ rfl

theorem State.memRepair_endRepair (s : State) (st row : Nat) :
    (s.endRepair st row).fld .memRepair st 0 11 0 = min 0xFFF (s.fld .memRepair st 0 11 0 + 1) := by
  rw [State.endRepair, State.fld_setFld_self _ _ _ _ _ (by omega)]
  omega

theorem State.stack_endRepair (s : State) (st row : Nat) : (s.endRepair st row).stack st = (s.stack st).repaired row := by
  rw [State.endRepair, State.setFld, State.stack_of_setReg, State.orReg, State.stack_of_setReg, State.stack_setStack_self]

theorem State.mgmt_endRepair (s : State) (st row : Nat) : (s.endRepair st row).mgmt = s.mgmt := by
  rw [State.endRepair, State.setFld, State.setReg_mgmt, State.orReg, State.setReg_mgmt, State.setStack_mgmt]

theorem State.mem_endRepair (s : State) (st row : Nat) : (s.endRepair st row).mem = s.mem := by
  rw [State.endRepair, State.setFld, State.setReg_mem, State.orReg, State.setReg_mem, State.setStack_mem]

/-- The reservations of every requester at an instant, as a frame keeps them. -/
def State.frameReservations (s : State) (cls p idx t : Nat) : AMap Nat :=
  requesters.foldl (fun (m : AMap Nat) q => AMap.put 0 q.code (s.reservation q cls p idx t) m) []

theorem State.get_frameReservations (s : State) (cls p idx t : Nat) {q : Requester} (hq : q ∈ requesters) :
    AMap.get 0 q.code (s.frameReservations cls p idx t) = s.reservation q cls p idx t := by
  simp only [requesters, List.mem_cons, List.not_mem_nil, or_false] at hq
  rcases hq with rfl | rfl | rfl | rfl | rfl | rfl | rfl <;> simp [State.frameReservations, requesters, AMap.get_put, Requester.code]

theorem State.stackFrame_same {s : State} {st : Nat} (h : (s.stack st).frame = s.tim.now.toNat / 1024 * 1024) : s.stackFrame st = s.stack st :=
  if_pos h

theorem State.stackFrame_new {s : State} {st : Nat} (h : (s.stack st).frame ≠ s.tim.now.toNat / 1024 * 1024) :
    s.stackFrame st = { s.stack st with
      frame := s.tim.now.toNat / 1024 * 1024, charged := [], vatCharged := []
      reserved := s.frameReservations 0x03 (st / 5) (st % 5) (s.tim.now.toNat / 1024 * 1024)
      vatReserved := s.frameReservations 0x04 (st / 5) (st % 5) (s.tim.now.toNat / 1024 * 1024) } :=
  if_neg h

end Sys2Proof.Machine
end

section
/-! SUPPORT. The Vat-write region table of a partition: an entry's bits as its register is written, when an entry can be armed, and the writes of the
table branch by branch (R341, R343). -/

namespace Sys2Proof.Machine

open Sys2Proof.Claim

/-! ## One bit of a register -/

theorem natBit_putBits {w : W32} {k j : Nat} (hj : j < 32) (b : Bool) :
    natBit (putBits w k k (bit b)).toNat j = if k = j then b else natBit w.toNat j := by
  have hone : (decide (k ≤ j) && Nat.testBit 1 (j - k)) = decide (k = j) := by
    rw [← Nat.testBit_mul_two_pow, Nat.one_mul, Nat.testBit_two_pow]
  simp only [natBit_eq_testBit, BitVec.testBit_toNat, putBits, BitVec.getLsbD_or, BitVec.getLsbD_and, BitVec.getLsbD_not, BitVec.getLsbD_ofNat,
    Nat.add_sub_cancel_left, Nat.testBit_mul_two_pow]
  by_cases h : k = j
  · cases b <;> simp [h, hj, bit]
  · cases b <;> simp [h, hj, bit, hone]

/-! ## An entry -/

/-- A bit of MEM_VWR_CTRL of an entry written. -/
def State.setVwr (s : State) (p i k : Nat) (b : Bool) : State := s.setFld .memVwrCtrl p i k k (bit b)

section
variable {p i : Nat} (hp : p < 4) (hi : i < 16)
include hp hi

/-- The registers of an entry but for its MEM_VWR_CTRL are not written with the latter. -/
theorem State.region_setVwr (s : State) (k : Nat) (b : Bool) :
    (s.setVwr p i k b).region p i = { s.region p i with
      armed := if k = 0 then b else (s.region p i).armed
      invalid := if k = 1 then b else (s.region p i).invalid
      draining := if k = 2 then b else (s.region p i).draining } := by
  have hother {q : Reg} (hq : q.stands p i) (h : q ≠ .memVwrCtrl) : (s.setVwr p i k b).reg q p i = s.reg q p i :=
    State.reg_setReg_other hq ⟨hp, hi⟩ (Reg.element_ne h _ _ _ _) s _
  have hctrl : (s.setVwr p i k b).reg .memVwrCtrl p i = putBits (s.reg .memVwrCtrl p i) k k (bit b) := s.reg_setReg_self _ _ _ _
  simp (disch := omega) only [State.region, State.fld, hctrl, hother (q := .memVwrBaseHi) ⟨hp, hi⟩ (by decide),
    hother (q := .memVwrBaseLo) ⟨hp, hi⟩ (by decide), hother (q := .memVwrOwner) ⟨hp, hi⟩ (by decide), natBit_putBits]

/-- Another entry, of this partition or another, is left as it is. -/
theorem State.region_setVwr_other (s : State) (k : Nat) (b : Bool) {q j : Nat} (hq : q < 4) (hj : j < 16) (h : (q, j) ≠ (p, i)) :
    (s.setVwr p i k b).region q j = s.region q j := by
  have hother {r : Reg} (hr : r.stands q j) : (s.setVwr p i k b).reg r q j = s.reg r q j :=
    State.reg_setReg_other hr ⟨hp, hi⟩ (fun e => h (congrArg Prod.snd e)) s _
  simp only [State.region, State.fld, hother (r := .memVwrCtrl) ⟨hq, hj⟩, hother (r := .memVwrBaseHi) ⟨hq, hj⟩,
    hother (r := .memVwrBaseLo) ⟨hq, hj⟩, hother (r := .memVwrOwner) ⟨hq, hj⟩]

/-- The error bit of a refused arm leaves the table as it is. -/
theorem State.region_vwrErr_armRefused (s : State) : (s.vwrErr p 4 0).region p i = s.region p i := by
  have hother {q : Reg} (hq : q.stands p i) (h : q ≠ .memVwrErr) : (s.vwrErr p 4 0).reg q p i = s.reg q p i :=
    State.reg_setReg_other hq ⟨hp, Nat.one_pos⟩ (Reg.element_ne h _ _ _ _) s _
  simp only [State.region, State.fld, hother (q := .memVwrCtrl) ⟨hp, hi⟩ (by decide), hother (q := .memVwrBaseHi) ⟨hp, hi⟩ (by decide),
    hother (q := .memVwrBaseLo) ⟨hp, hi⟩ (by decide), hother (q := .memVwrOwner) ⟨hp, hi⟩ (by decide)]

end

@[simp] theorem State.setVwr_mem (s : State) (p i k : Nat) (b : Bool) : (s.setVwr p i k b).mem = s.mem := rfl

/-! ## Arming -/

/-- The model refuses an arm exactly where R341 does not allow it. -/
theorem State.armRefused_eq_false_iff (s : State) (p i : Nat) : s.armRefused p i = false ↔ armable s p i := by
  have hdisjoint (a b c d : Nat) : (a < b → c ≤ d) ↔ (c ≤ d ∨ b ≤ a) := by omega
  unfold State.armRefused armable
  simp only [Bool.or_eq_false_iff, decide_eq_false_iff_not, not_or, Nat.not_lt, bne_eq_false_iff_eq, List.any_eq_false, List.mem_range,
    Bool.and_eq_true, bne_iff_ne, decide_eq_true_eq, Bool.not_eq_eq_eq_not, Bool.not_false, Bool.or_eq_true, beq_iff_eq, not_and, hdisjoint,
    and_assoc, Nat.add_mul, Nat.one_mul]
  cases s.partSlot p <;> simp

/-! ## Writes of MEM_VWR_CTRL -/

/-- 0 written to INVALID clears it (R343). -/
def State.clearInvalid (s : State) (p i : Nat) (v : W32) : State := if natBit v.toNat 1 then s else s.setVwr p i 1 false

theorem State.clearInvalid_mem (s : State) (p i : Nat) (v : W32) : (s.clearInvalid p i v).mem = s.mem := by
  unfold State.clearInvalid
  split <;> rfl

theorem State.region_clearInvalid {p i : Nat} (hp : p < 4) (hi : i < 16) (s : State) (v : W32) :
    (s.clearInvalid p i v).region p i = { s.region p i with invalid := (s.region p i).invalid && natBit v.toNat 1 } := by
  unfold State.clearInvalid
  cases natBit v.toNat 1 with
  | true => simp
  | false => simp [State.region_setVwr hp hi]

section
variable {s : State} {p i : Nat} {v : W32}

theorem State.wrVwrCtrl_closed (h : s.partOpen p = false) : s.wrVwrCtrl p i v = s := if_pos (by simp [h])

variable (hopen : s.partOpen p = true)
include hopen

theorem State.wrVwrCtrl_open : s.wrVwrCtrl p i v =
    if (s.region p i).draining then s.clearInvalid p i v
    else if natBit v.toNat 0 then
      (if (s.region p i).armed then s.clearInvalid p i v
      else if s.armRefused p i then (s.clearInvalid p i v).vwrErr p 4 0
      else (s.clearInvalid p i v).setVwr p i 0 true)
    else if (s.region p i).armed then (s.clearInvalid p i v).setVwr p i 2 true
    else s.clearInvalid p i v :=
  if_neg (by simp [hopen])

theorem State.wrVwrCtrl_draining (hdrain : (s.region p i).draining = true) : s.wrVwrCtrl p i v = s.clearInvalid p i v := by
  rw [State.wrVwrCtrl_open hopen, if_pos hdrain]

variable (hdrain : (s.region p i).draining = false)
include hdrain

theorem State.wrVwrCtrl_disarms (hv : natBit v.toNat 0 = false) (harmed : (s.region p i).armed = true) :
    s.wrVwrCtrl p i v = (s.clearInvalid p i v).setVwr p i 2 true := by
  simp [State.wrVwrCtrl_open hopen, hdrain, hv, harmed]

variable (hv : natBit v.toNat 0 = true) (harmed : (s.region p i).armed = false)
include hv harmed

theorem State.wrVwrCtrl_arms (h : armable s p i) : s.wrVwrCtrl p i v = (s.clearInvalid p i v).setVwr p i 0 true := by
  simp [State.wrVwrCtrl_open hopen, hdrain, hv, harmed, (s.armRefused_eq_false_iff p i).2 h]

theorem State.wrVwrCtrl_refused (h : ¬ armable s p i) : s.wrVwrCtrl p i v = (s.clearInvalid p i v).vwrErr p 4 0 := by
  have hrefused : s.armRefused p i = true := (Bool.not_eq_false _).mp (mt (s.armRefused_eq_false_iff p i).1 h)
  simp [State.wrVwrCtrl_open hopen, hdrain, hv, harmed, hrefused]

end

/-! ## The commands -/

section
variable {s : State} {part : Fin 4} {i : Fin 16}

theorem exec_vwrArm (v : W32) : exec (.vwrArm part i v) s = .next (s.wrVwrCtrl part.val i.val v) := rfl

theorem exec_vwrDisarm (v : W32) : exec (.vwrDisarm part i v) s = .next (s.wrVwrCtrl part.val i.val v) := rfl

theorem exec_vwrDrainComplete_idle (h : (s.region part.val i.val).draining = false) : exec (.vwrDrainComplete part i) s = .next s :=
  congrArg _ (if_neg (by rw [h]; decide))

theorem exec_vwrDrainComplete_ends (h : (s.region part.val i.val).draining = true) :
    exec (.vwrDrainComplete part i) s = .next ((s.setVwr part.val i.val 2 false).setVwr part.val i.val 0 false) :=
  congrArg _ (if_pos h)

/-- The base, size and owner registers of an armed or draining entry take no write (R341). -/
theorem exec_registerWrite_vwrHeld {f : Reg} (hf : f ∈ [Reg.memVwrBaseLo, Reg.memVwrBaseHi, Reg.memVwrOwner])
    (h : (s.region part.val i.val).armed = true ∨ (s.region part.val i.val).draining = true) (v : W64) :
    exec (.registerWrite (f.addr part.val i.val) { size := 4, v := v }) s = .next s := by
  have hheld : ((s.region part.val i.val).armed || (s.region part.val i.val).draining) = true := by simpa using h
  simp only [List.mem_cons, List.not_mem_nil, or_false] at hf
  rcases hf with rfl | rfl | rfl <;>
  · rw [exec_registerWrite_addr part.isLt i.isLt, State.wrReg_eq_plainWrite rfl]
    exact congrArg _ (State.plainWrite_ignored (.inr hheld))

end

end Sys2Proof.Machine
end

section

open Sys2Proof Sys2Proof.Machine Sys2Proof.Claim

/-- Settles O43: scrub, repair, frames and self-refresh of a stack by what each finds, then the writes of an entry of the region table by the state
that the entry is in. -/
theorem stacksAreRepairedAndRegionsArmed : Obligations.StacksAreRepairedAndRegionsArmed := by
  refine ⟨?memory, ?regions⟩
  case memory =>
    intro s stack unit row f st o a now row0 errs used t0
    have hst : st < 20 := stack.isLt
    refine ⟨fun h => exec_scrub_off unit h f, exec_scrub_clean unit, ?corrected, ?uncorrectable, ?repaired, exec_rowRepairDone_none, ?frame,
      exec_stackIdleRefresh_idles, exec_stackIdleRefresh_stays⟩
    case corrected =>
      intro hon h
      exact ⟨_, exec_scrub_corrected unit hon o rfl h, State.corrected_setMem hst s _ row0⟩
    case uncorrectable =>
      intro hon h
      obtain ⟨hue, hscrub⟩ := State.memErr_scrubUncorrectable hst s a row0
      obtain ⟨hlo, hkind⟩ := State.ueAddr_scrubUncorrectable hst s a row0
      exact ⟨_, exec_scrub_uncorrectable unit hon o rfl h, hue, hscrub, State.memCnt_scrubUncorrectable hst s a row0, hlo, hkind,
        State.mem_scrubUncorrectable hst s a row0⟩
    case repaired =>
      intro h
      refine ⟨_, exec_rowRepairDone_ends h, ?_⟩
      rw [State.stack_of_setMgmt, State.stack_endRepair, State.fld, State.reg_of_setMgmt, State.reg_of_setMgmt]
      refine ⟨rfl, State.memErr_endRepair hst s row, State.memRepair_endRepair s st row, ?_, ?_⟩
      · rw [← State.mgmt_endRepair s st row]
        rfl
      · rw [State.setMgmt_mem, State.mem_endRepair]
    case frame =>
      refine ⟨s.setStack st (s.stackFrame st), rfl, ?_⟩
      rw [State.stack_setStack_self]
      by_cases h : (s.stack st).frame = t0
      · rw [State.stackFrame_same h]
        exact ⟨h, rfl, rfl, fun _ => rfl, fun hne => absurd h hne⟩
      · rw [State.stackFrame_new h]
        exact ⟨rfl, rfl, rfl, fun he => absurd he h, fun _ => ⟨rfl, rfl, fun q hq =>
          ⟨State.get_frameReservations s _ _ _ _ hq, State.get_frameReservations s _ _ _ _ hq⟩⟩⟩
  case regions =>
    intro s part i v p e r
    have hp : p < 4 := part.isLt
    have he : e < 16 := i.isLt
    refine ⟨?closed, ?arm, ?disarm, ?draining, ?drained, exec_vwrDrainComplete_idle, fun h f v hf => exec_registerWrite_vwrHeld hf h v⟩
    case closed =>
      intro h
      rw [exec_vwrArm, exec_vwrDisarm, State.wrVwrCtrl_closed h]
      exact ⟨rfl, rfl⟩
    case arm =>
      intro hopen hv hdrain harmed
      refine ⟨fun h => ⟨_, (exec_vwrArm v).trans (congrArg _ (State.wrVwrCtrl_arms hopen hdrain hv harmed h)), ?_⟩,
        fun h => ⟨_, (exec_vwrArm v).trans (congrArg _ (State.wrVwrCtrl_refused hopen hdrain hv harmed h)), ?_⟩⟩
      · rw [State.region_setVwr hp he, State.region_clearInvalid hp he, State.setVwr_mem, State.clearInvalid_mem]
        exact ⟨rfl, hdrain, rfl, rfl, rfl⟩
      · rw [State.region_vwrErr_armRefused hp he, State.region_clearInvalid hp he]
        exact ⟨harmed, State.natBit_orReg_self _ _ _ _ rfl, fun hclear => by simp [hclear], State.clearInvalid_mem s p e v⟩
    case disarm =>
      intro hopen hv hdrain harmed
      refine ⟨_, (exec_vwrDisarm v).trans (congrArg _ (State.wrVwrCtrl_disarms hopen hdrain hv harmed)), ?_⟩
      rw [State.region_setVwr hp he, State.region_clearInvalid hp he, State.setVwr_mem, State.clearInvalid_mem]
      exact ⟨harmed, rfl, rfl⟩
    case draining =>
      intro hopen hdrain
      refine ⟨_, (exec_vwrArm v).trans (congrArg _ (State.wrVwrCtrl_draining hopen hdrain)), ?_⟩
      rw [State.region_clearInvalid hp he]
      exact ⟨hdrain, rfl, rfl⟩
    case drained =>
      intro hdrain
      refine ⟨_, exec_vwrDrainComplete_ends hdrain, ?_⟩
      rw [State.region_setVwr hp he, State.region_setVwr hp he]
      refine ⟨rfl, rfl, rfl, fun q j hq hj hne => ?_, rfl⟩
      rw [State.region_setVwr_other hp he _ _ _ hq hj hne, State.region_setVwr_other hp he _ _ _ hq hj hne]

end

section
/-! SUPPORT. What a record in the ERR log and the operations of a Ferdo port leave as it is: the contexts, the cores, and every register but those
that they write; what has been sent stays sent (R353 to R364, R406). -/

namespace Sys2Proof.Machine

/-! ## Reports -/

/-- `t` is `s` after reports: contexts, cores and links stand, and what has left the device has left it. -/
structure Noted (s t : State) : Prop where
  ctxs : t.ctxs = s.ctxs
  cores : t.cores = s.cores
  links : t.links = s.links
  sent : s.out <+: t.out

namespace Noted

variable {s t u : State}

theorem refl (s : State) : Noted s s := ⟨rfl, rfl, rfl, ⟨[], List.append_nil _⟩⟩

theorem trans (h : Noted s t) (k : Noted t u) : Noted s u :=
  ⟨k.ctxs.trans h.ctxs, k.cores.trans h.cores, k.links.trans h.links, h.sent.trans k.sent⟩

theorem setReg (h : Noted s t) (r : Reg) (i j : Nat) (v : W32) : Noted s (t.setReg r i j v) := ⟨h.ctxs, h.cores, h.links, h.sent⟩

theorem setMem (h : Noted s t) (m : Mem) : Noted s (t.setMem m) := ⟨h.ctxs, h.cores, h.links, h.sent⟩

theorem setHost (h : Noted s t) (m : Mem) : Noted s (t.setHost m) := ⟨h.ctxs, h.cores, h.links, h.sent⟩

theorem setHif (h : Noted s t) (v : Hif) : Noted s (t.setHif v) := ⟨h.ctxs, h.cores, h.links, h.sent⟩

theorem emit (h : Noted s t) (o : Out) : Noted s (t.emit o) := ⟨h.ctxs, h.cores, h.links, h.sent.trans ⟨[o], rfl⟩⟩

theorem foldl {α : Type} {f : State → α → State} (hf : ∀ s a, Noted s (f s a)) (l : List α) : Noted s (l.foldl f s) := by
  induction l generalizing s with
  | nil => exact refl s
  | cons a l ih => exact (hf s a).trans ih

end Noted

theorem State.barBit_noted (s : State) (a : Nat) (b : Bar) : Noted s (s.barBit a b) := by
  cases b <;> exact (Noted.refl s).setReg _ _ _ _

theorem State.logWrite_noted (s : State) (a : Nat) (b : List Byte) : Noted s (s.logWrite a b) := by
  unfold State.logWrite State.writeBy
  split
  next =>
    split
    · exact ((Noted.refl s).setHost _).emit _
    · exact Noted.refl s
  next => exact Noted.refl s
  next =>
    unfold State.barredWrite
    dsimp only
    split
    · exact (Noted.refl s).setMem _
    · refine Noted.foldl (fun u p => ?_) _
      split
      · exact State.barBit_noted u _ _
      · exact (Noted.refl u).setMem _

theorem State.msix_noted (s : State) (k : Nat) : Noted s (s.msix k) := by
  unfold State.msix
  dsimp only
  split
  · split
    · exact Noted.refl s
    · exact (Noted.refl s).setHif _
  · exact (Noted.refl s).emit _

theorem State.event_noted (s : State) (n : Nat) : Noted s (s.event n) := by
  have hpend := (Noted.refl s).setReg .gctEvtPend 0 0 (s.reg .gctEvtPend 0 0 ||| BitVec.ofNat 32 (2 ^ n))
  unfold State.event
  dsimp only
  split
  · exact Noted.refl s
  · split
    · exact hpend
    · exact hpend.trans (State.msix_noted _ _)

theorem State.errLog_noted (s : State) (r : ErrRec) : Noted s (s.errLog r) := by
  have hsrc := (Noted.refl s).setReg .errSrc 0 0 (s.reg .errSrc 0 0 ||| BitVec.ofNat 32 (2 ^ r.source))
  unfold State.errLog
  dsimp only
  split
  · exact hsrc
  · split
    · exact (hsrc.setReg _ _ _ _).setReg _ _ _ _
    · have hlogged (a : Nat) (b : List Byte) (v w : W32) :=
        ((hsrc.trans (State.logWrite_noted _ a b)).setReg .errLogPtr 0 0 v).setReg .errStatus 0 0 w
      split
      · exact (hlogged _ _ _ _).trans (State.event_noted _ 4)
      · exact hlogged _ _ _ _

/-- An error bit set, with a record in the log where a condition holds. -/
theorem State.errorBit_noted {c : Prop} [Decidable c] (s : State) (r : Reg) (i j : Nat) (m : W32) (e : ErrRec) :
    Noted s (if c then (s.orReg r i j m).errLog e else s.orReg r i j m) := by
  have hbit : Noted s (s.orReg r i j m) := (Noted.refl s).setReg r i j _
  split
  · exact hbit.trans (State.errLog_noted _ _)
  · exact hbit

theorem State.memErr_noted (s : State) (st b scope addr : Nat) : Noted s (s.memErr st b scope addr) := State.errorBit_noted s _ _ _ _ _

theorem State.vwrErr_noted (s : State) (p b addr : Nat) : Noted s (s.vwrErr p b addr) := State.errorBit_noted s _ _ _ _ _

theorem State.indErr_noted (s : State) (e b : Nat) : Noted s (s.indErr e b) := State.errorBit_noted s _ _ _ _ _

theorem State.lnkErr_noted (s : State) (n b : Nat) : Noted s (s.lnkErr n b) := by
  have hbit := (Noted.refl s).setReg .lnkErr n 0 (s.reg .lnkErr n 0 ||| BitVec.ofNat 32 (2 ^ b))
  unfold State.lnkErr
  dsimp only
  split
  · exact hbit.trans ((State.errLog_noted _ _).trans (State.event_noted _ _))
  · exact hbit

theorem State.link_lnkErr (s : State) (n b i : Nat) : (s.lnkErr n b).link i = s.link i := by
  rw [State.link, (State.lnkErr_noted s n b).links]
  rfl

/-- After an error bit of a link has been set, the rest is reports. -/
theorem State.lnkErr_reported (s : State) (n b : Nat) : Reported (s.orReg .lnkErr n 0 (BitVec.ofNat 32 (2 ^ b))) (s.lnkErr n b) := by
  unfold State.lnkErr
  dsimp only
  split
  · exact (State.errLog_reported _ _).trans (State.event_reported _ _)
  · exact Reported.refl _

theorem State.lnkErr_sets {n : Nat} (hn : n < 48) {b : Nat} (hb : b < 32) (s : State) :
    natBit ((s.lnkErr n b).reg .lnkErr n 0).toNat b = true := by
  rw [(State.lnkErr_reported s n b).reg ⟨hn, Nat.one_pos⟩ (by decide)]
  exact State.natBit_orReg_self _ _ _ _ (natBit_ofNat_two_pow hb)

/-! ## Port operations -/

/-- `t` is `s` after operations of a port that write no registers but those of `rs`. -/
structure Ported (rs : List Reg) (s t : State) : Prop where
  ctxs : t.ctxs = s.ctxs
  cores : t.cores = s.cores
  sent : s.out <+: t.out
  reg : ∀ {r u n}, r.stands u n → r ∉ rs → t.reg r u n = s.reg r u n

namespace Ported

variable {rs : List Reg} {s t u : State}

theorem refl (s : State) : Ported rs s s := ⟨rfl, rfl, ⟨[], List.append_nil _⟩, fun _ _ => rfl⟩

theorem trans (h : Ported rs s t) (k : Ported rs t u) : Ported rs s u :=
  ⟨k.ctxs.trans h.ctxs, k.cores.trans h.cores, h.sent.trans k.sent, fun hr hn => (k.reg hr hn).trans (h.reg hr hn)⟩

theorem setLink (h : Ported rs s t) (n : Nat) (l : Link) : Ported rs s (t.setLink n l) := ⟨h.ctxs, h.cores, h.sent, h.reg⟩

theorem emit (h : Ported rs s t) (o : Out) : Ported rs s (t.emit o) := ⟨h.ctxs, h.cores, h.sent.trans ⟨[o], rfl⟩, h.reg⟩

theorem setReg (h : Ported rs s t) {r : Reg} {i j : Nat} (hr : r.stands i j) (hm : r ∈ rs) (v : W32) : Ported rs s (t.setReg r i j v) :=
  h.trans ⟨rfl, rfl, ⟨[], List.append_nil _⟩, fun hq hn =>
    State.reg_setReg_other hq hr (Reg.element_ne (ne_of_mem_of_not_mem hm hn).symm _ _ _ _) t v⟩

theorem fld (h : Ported rs s t) {r : Reg} {i j : Nat} (hr : r.stands i j) (hn : r ∉ rs) (hi lo : Nat) : t.fld r i j hi lo = s.fld r i j hi lo := by
  rw [State.fld, h.reg hr hn]
  rfl

/-- A port operation does not bring a link up or down where LNK_STATUS is not among the registers written. -/
theorem linkUp (h : Ported rs s t) (hn : Reg.lnkStatus ∉ rs) (n : Nat) : t.linkUp n = s.linkUp n := by
  by_cases hlt : n < 48
  · rw [State.linkUp, State.linkState, h.fld ⟨hlt, Nat.one_pos⟩ hn]
    rfl
  · simp [State.linkUp, hlt]

theorem ctx (h : Ported rs s t) (x : Nat) : t.ctx x = s.ctx x := by
  rw [State.ctx, h.ctxs]
  rfl

theorem core (h : Ported rs s t) (n : Nat) : t.core n = s.core n := by
  rw [State.core, h.cores]
  rfl

end Ported

/-- The registers that port operations write. -/
def portRegs : List Reg := .lnkCnt :: .lnkErr :: reportRegs

theorem State.lnkErr_ported {n : Nat} (hn : n < 48) (s : State) (b : Nat) : Ported portRegs s (s.lnkErr n b) where
  ctxs := (State.lnkErr_noted s n b).ctxs
  cores := (State.lnkErr_noted s n b).cores
  sent := (State.lnkErr_noted s n b).sent
  reg hr hout := by
    rw [(State.lnkErr_reported s n b).reg hr (fun hm => hout (List.mem_cons_of_mem _ (List.mem_cons_of_mem _ hm)))]
    exact ((Ported.refl s).setReg ⟨hn, Nat.one_pos⟩ (List.mem_cons_of_mem _ List.mem_cons_self) _).reg hr hout

section
variable {rs : List Reg} {s t : State} (h : Ported rs s t)
include h

theorem Ported.emitSlot (n : Nat) (seq : Option Nat) (f : Flit) (ack : Nat) (crd : Nat × Nat) : Ported rs s (t.emitSlot n seq f ack crd) :=
  (h.setLink n _).emit _

theorem Ported.sendPlain (n : Nat) (f : Flit) : Ported rs s (t.sendPlain n f) := (h.setLink n _).emitSlot n _ _ _ _

theorem Ported.sendIdle (n : Nat) : Ported rs s (t.sendIdle n) := h.sendPlain n _

theorem Ported.returnEntries (n tc k : Nat) : Ported rs s (t.returnEntries n tc k) := by
  unfold State.returnEntries State.freeEntries
  dsimp only
  split
  · exact (h.setLink n _).sendIdle n
  · exact h.setLink n _

theorem Ported.returnOf (m : OutMsg) : Ported rs s (t.returnOf m) := by
  unfold State.returnOf
  split
  next => exact h
  next =>
    split
    · exact h.returnEntries _ _ _
    · exact h

theorem Ported.chargeSlot (n : Nat) (m : OutMsg) : Ported rs s (t.chargeSlot n m) := h.setLink n _

variable (hcnt : Reg.lnkCnt ∈ rs) {n : Nat} (hn : n < 48)
include hcnt hn

theorem Ported.countFlits {which : Nat} (hw : which < 8) (k : Nat) : Ported rs s (t.countFlits n which k) :=
  (h.setLink n _).setReg ⟨hn, hw⟩ hcnt _

theorem Ported.sendSeq (f : Flit) : Ported rs s (t.sendSeq n f) :=
  ((h.setLink n _).emitSlot n _ _ _ _).countFlits hcnt hn (by omega) 1

theorem Ported.recvSeq (k : Nat) : Ported rs s (t.recvSeq n k) := (h.setLink n _).countFlits hcnt hn (by omega) k

theorem Ported.pump (f : Nat) : Ported rs s (State.pump f t n) := by
  induction f generalizing t with
  | zero => exact h
  | succ f ih =>
    unfold State.pump
    split
    · exact h
    · split
      next => exact h
      next m _ =>
        split
        next => exact ih (h.setLink n _)
        next x rest _ =>
          have hsent (l : Link) := ((h.chargeSlot n m).sendSeq hcnt hn x).setLink n l
          dsimp only
          split
          next => exact ih (hsent _)
          next => exact ih (((hsent _).countFlits hcnt hn (by omega) 1).returnOf _)

theorem Ported.drive : Ported rs s (t.drive n) := h.pump hcnt hn _

theorem Ported.sendOn (m : OutMsg) : Ported rs s (t.sendOn n m) := (h.setLink n _).drive hcnt hn

end

/-- A header's ACK and credits change the port alone, but not its queue; an excess of credits is an error of the link. -/
theorem State.takeHead_cases (s : State) (n : Nat) (h : FlitHead) : ∃ l : Link, l.queue = (s.link n).queue ∧
    (s.takeHead n h = s.setLink n l ∨ s.takeHead n h = (s.setLink n l).lnkErr n 6) := by
  unfold State.takeHead
  extract_lets l i l1 room sum s1
  have hq : l1.queue = l.queue := by
    simp only [l1]
    split <;> rfl
  refine ⟨{ l1 with credits := AMap.put 0 h.crdTc (min sum room) l1.credits }, hq, ?_⟩
  split
  · exact .inr rfl
  · exact .inl rfl

section
variable {n : Nat} (hn : n < 48) (s : State) (h : FlitHead)
include hn

theorem State.takeHead_ported : Ported portRegs s (s.takeHead n h) := by
  obtain ⟨l, -, e | e⟩ := State.takeHead_cases s n h
  · rw [e]
    exact (Ported.refl s).setLink n l
  · rw [e]
    exact ((Ported.refl s).setLink n l).trans (State.lnkErr_ported hn _ 6)

theorem State.recvHead_ported : Ported portRegs s (s.recvHead n h) := (State.takeHead_ported hn s h).drive List.mem_cons_self hn

theorem State.recvMsg_ported (k tc : Nat) : Ported portRegs s (s.recvMsg n h k tc) :=
  (((State.recvHead_ported hn s h).recvSeq List.mem_cons_self hn k).setLink n _).sendIdle n

end

/-! ## The links that port operations leave as they are -/

section
variable {i n : Nat} (hi : i ≠ n) (s : State)
include hi

theorem State.link_takeHead_other (h : FlitHead) : (s.takeHead n h).link i = s.link i := by
  obtain ⟨l, -, e | e⟩ := State.takeHead_cases s n h
  · rw [e, State.link_setLink_ne _ hi]
  · rw [e, State.link_lnkErr, State.link_setLink_ne _ hi]

theorem State.link_recvSeq_other (k : Nat) : (s.recvSeq n k).link i = s.link i := by
  rw [State.recvSeq, State.countFlits, State.bump, State.link_of_setReg, State.link_setLink_ne _ hi, State.link_setLink_ne _ hi]

theorem State.link_sendIdle_other : (s.sendIdle n).link i = s.link i := by
  rw [State.sendIdle, State.sendPlain, State.emitSlot, State.link_of_emit, State.link_setLink_ne _ hi, State.link_setLink_ne _ hi]

end

end Sys2Proof.Machine
end

section
/-! SUPPORT. A port with one message queued: which flit it picks, what leaves, and what waits (R357, R360 to R362). -/

namespace Sys2Proof.Machine

open Sys2Proof.Claim

/-! ## Arbitration of one message -/

@[simp] theorem Link.inFrame_queue (l : Link) (t : Nat) : (l.inFrame t).queue = l.queue := by
  unfold Link.inFrame
  split <;> rfl

@[simp] theorem Link.inFrame_credits (l : Link) (t : Nat) : (l.inFrame t).credits = l.credits := by
  unfold Link.inFrame
  split <;> rfl

@[simp] theorem Link.inFrame_replay (l : Link) (t : Nat) : (l.inFrame t).replay = l.replay := by
  unfold Link.inFrame
  split <;> rfl

/-- The rotation of R361 comes to every requester. -/
theorem Link.inTurn_one (l : Link) {m : OutMsg} (hopen : m.open = false) (hrq : m.rq.code < 7) : l.inTurn [m] = some m := by
  have hcode : m.rq.code ∈ (List.range 7).map (fun i => (l.turn + 1 + i) % 7) :=
    List.mem_map.2 ⟨(m.rq.code + 7 - (l.turn + 1) % 7) % 7, by simp [Nat.mod_lt], by omega⟩
  have hmine {c : Nat} {o : OutMsg} (h : [m].find? (fun o => o.rq.code == c) = some o) : o = m :=
    List.mem_singleton.1 (List.mem_of_find?_eq_some h)
  have hturn : l.inTurn [m] = ((List.range 7).map (fun i => (l.turn + 1 + i) % 7)).findSome? (fun c => [m].find? (fun o => o.rq.code == c)) := by
    simp [Link.inTurn, hopen]
  rw [hturn]
  cases hfind : ((List.range 7).map (fun i => (l.turn + 1 + i) % 7)).findSome? (fun c => [m].find? (fun o => o.rq.code == c)) with
  | none => simpa using List.findSome?_eq_none_iff.1 hfind _ hcode
  | some o =>
    obtain ⟨c, -, hc⟩ := List.exists_of_findSome?_eq_some hfind
    rw [hmine hc]

section
variable {l : Link} {m : OutMsg} (hq : l.queue = [m]) (hopen : m.open = false)
include hq hopen

/-- A message that is alone in its queue is ready if its class is collective or bulk and has credit. -/
theorem Link.ready_one : l.ready = if (m.tc = 1 ∨ m.tc = 2) ∧ 0 < AMap.get 0 m.tc l.credits then [m] else [] := by
  simp only [Link.ready, hq, List.filter_cons, List.filter_nil, List.find?_cons, List.find?_nil, hopen, Bool.and_false, beq_self_eq_true,
    Bool.and_self, Bool.and_true, Bool.and_eq_true, Bool.or_eq_true, beq_iff_eq, decide_eq_true_eq]

end

section
variable {s : State} {n : Nat} {m : OutMsg} (hq : (s.link n).queue = [m]) (hopen : m.open = false)
include hq hopen

/-- A message alone in its queue goes next where its class has credit and the window of R359 allows. -/
theorem State.pick_one (htc : 0 < m.tc ∧ m.tc < 4) (hrq : m.rq.code < 7) (hwindow : (s.link n).replay.length < 1023)
    (hcred : 0 < AMap.get 0 m.tc (s.link n).credits) : s.pick n = some m := by
  have hready := Link.ready_one (l := (s.link n).inFrame s.tim.now.toNat) (by simpa using hq) hopen
  by_cases h3 : m.tc = 3
  · have hmgmt : 0 < AMap.get 0 3 (s.link n).credits := h3 ▸ hcred
    simp [State.pick, hready, hq, h3, hmgmt, Nat.not_le.2 hwindow]
  · have hready' : ((s.link n).inFrame s.tim.now.toNat).ready = [m] := by
      rw [hready, if_pos ⟨by omega, by simpa using hcred⟩]
    have hturn := Link.inTurn_one ((s.link n).inFrame s.tim.now.toNat) hopen hrq
    cases hbelow : s.below n ((s.link n).inFrame s.tim.now.toNat) m.rq <;>
      simp [State.pick, hready', hturn, hbelow, hq, h3, Nat.not_le.2 hwindow]

/-- A message whose class has no credit waits. -/
theorem State.pick_one_waits (hcred : AMap.get 0 m.tc (s.link n).credits = 0) : s.pick n = none := by
  have hready := Link.ready_one (l := (s.link n).inFrame s.tim.now.toNat) (by simpa using hq) hopen
  have hnone : ((s.link n).inFrame s.tim.now.toNat).ready = [] := by simp [hready, hcred]
  have hturn : ((s.link n).inFrame s.tim.now.toNat).inTurn [] = none := by simp [Link.inTurn]
  by_cases h3 : m.tc = 3
  · have hmgmt : AMap.get 0 3 (s.link n).credits = 0 := h3 ▸ hcred
    simp [State.pick, hnone, hturn, hmgmt]
  · simp [State.pick, hnone, hturn, hq, h3]

end

/-! ## What leaves and what waits -/

theorem State.drive_idle {s : State} {n : Nat} (h : (s.link n).queue = []) : s.drive n = s := by
  rw [State.drive, h]
  rfl

theorem State.pump_down {s : State} {n : Nat} (h : s.linkUp n = false) (f : Nat) : State.pump f s n = s := by
  cases f with
  | zero => rfl
  | succ f => rw [State.pump, if_pos (by rw [h]; rfl)]

theorem State.pump_waits {s : State} {n : Nat} (h : s.pick n = none) (f : Nat) : State.pump f s n = s := by
  cases f with
  | zero => rfl
  | succ f =>
    rw [State.pump, h]
    exact ite_self s

/-- An unsequenced flit leaves in the next slot of its port. -/
theorem State.sendPlain_out (s : State) (n : Nat) (f : Flit) : (s.sendPlain n f).out = s.out ++ [wireSlot s n 0 none f (s.link n).crdOut] := by
  rw [State.sendPlain, State.emitSlot, State.link_setLink_self]
  rfl

theorem State.nakSent_sendPlain (s : State) (n : Nat) (f : Flit) : ((s.sendPlain n f).link n).nakSent = (s.link n).nakSent := by
  rw [State.sendPlain, State.emitSlot, State.link_of_emit, State.link_setLink_self, State.link_setLink_self]
  rfl

/-- A sequenced flit leaves in the next slot of its port, with the next SEQ. -/
theorem State.sendSeq_sends (s : State) (n : Nat) (f : Flit) :
    wireSlot s n 0 (some (s.link n).nextSeq) f (s.link n).crdOut ∈ (s.sendSeq n f).out := by
  refine List.mem_append_right _ (List.mem_singleton.2 ?_)
  rw [State.link_setLink_self]
  rfl

/-- What a slot shows depends on the port by the ACK and the place in the codeword alone. -/
theorem wireSlot_congr {s t : State} {n : Nat} (hphase : (t.link n).phase = (s.link n).phase) (hexp : (t.link n).expSeq = (s.link n).expSeq)
    (i : Nat) (seq : Option Nat) (f : Flit) (crd : Nat × Nat) : wireSlot t n i seq f crd = wireSlot s n i seq f crd := by
  simp only [wireSlot, Link.ackOut, hphase, hexp]

theorem wireSlot_next_congr {s t : State} {n : Nat} (hseq : (t.link n).nextSeq = (s.link n).nextSeq) (hphase : (t.link n).phase = (s.link n).phase)
    (hexp : (t.link n).expSeq = (s.link n).expSeq) (hret : (t.link n).toReturn = (s.link n).toReturn) (f : Flit) :
    wireSlot t n 0 (some (t.link n).nextSeq) f (t.link n).crdOut = wireSlot s n 0 (some (s.link n).nextSeq) f (s.link n).crdOut := by
  simp only [wireSlot_congr hphase hexp, Link.crdOut, hseq, hret]

/-- The charge of a slot changes nothing that the slot shows. -/
theorem State.wireSlot_chargeSlot (s : State) (n : Nat) (m : OutMsg) (f : Flit) :
    wireSlot (s.chargeSlot n m) n 0 (some ((s.chargeSlot n m).link n).nextSeq) f ((s.chargeSlot n m).link n).crdOut =
      wireSlot s n 0 (some (s.link n).nextSeq) f (s.link n).crdOut := by
  have hframe : ∃ l : Link, (s.chargeSlot n m).link n = l ∧ l.nextSeq = (s.link n).nextSeq ∧ l.phase = (s.link n).phase ∧
      l.expSeq = (s.link n).expSeq ∧ l.toReturn = (s.link n).toReturn := by
    refine ⟨_, rfl, ?_⟩
    rw [State.chargeSlot, State.link_setLink_self]
    unfold Link.inFrame
    (repeat' split) <;> exact ⟨rfl, rfl, rfl, rfl⟩
  obtain ⟨l, rfl, hseq, hphase, hexp, hret⟩ := hframe
  exact wireSlot_next_congr hseq hphase hexp hret f

/-- A port that picks a message sends its next flit, whatever leaves after it. -/
theorem State.pump_sends {s : State} {n : Nat} (hn : n < 48) (hup : s.linkUp n = true) {m : OutMsg} (hpick : s.pick n = some m) {x : Flit}
    {rest : List Flit} (hflits : m.flits = x :: rest) (f : Nat) :
    wireSlot s n 0 (some (s.link n).nextSeq) x (s.link n).crdOut ∈ (State.pump (f + 1) s n).out := by
  have hsent := State.sendSeq_sends (s.chargeSlot n m) n x
  rw [State.wireSlot_chargeSlot] at hsent
  have hcnt : Reg.lnkCnt ∈ [Reg.lnkCnt] := List.mem_singleton_self _
  have hlater (l : Link) : Ported [.lnkCnt] ((s.chargeSlot n m).sendSeq n x) (((s.chargeSlot n m).sendSeq n x).setLink n l) :=
    (Ported.refl _).setLink n l
  rw [State.pump, if_neg (by simp [hup]), hpick]
  simp only [hflits]
  split
  next => exact ((hlater _).pump hcnt hn f).sent.subset hsent
  next => exact ((((hlater _).countFlits hcnt hn (by omega) 1).returnOf _).pump hcnt hn f).sent.subset hsent

section
variable {s : State} {n : Nat} (hidle : portIdle s n = true) {m : OutMsg} (hopen : m.open = false)
include hidle

theorem State.queue_of_portIdle : (s.link n).queue = [] := by simpa [portIdle] using hidle

include hopen

/-- A message that comes to an idle port leaves at once, where its class has credit and the window allows. -/
theorem State.sendOn_sends (hn : n < 48) (hup : s.linkUp n = true) (htc : 0 < m.tc ∧ m.tc < 4) (hrq : m.rq.code < 7)
    (hwindow : (s.link n).replay.length < 1023) (hcred : 0 < AMap.get 0 m.tc (s.link n).credits) {x : Flit} {rest : List Flit}
    (hflits : m.flits = x :: rest) : wireSlot s n 0 (some (s.link n).nextSeq) x (s.link n).crdOut ∈ (s.sendOn n m).out := by
  let s1 := s.setLink n { s.link n with queue := (s.link n).queue ++ [m] }
  have hq : (s1.link n).queue = [m] := by simp [s1, State.queue_of_portIdle hidle]
  have hpick : s1.pick n = some m := State.pick_one hq hopen htc hrq (by simpa [s1] using hwindow) (by simpa [s1] using hcred)
  have hfirst := State.pump_sends (s := s1) hn hup hpick hflits (m.flits.length)
  have hdrive : s.sendOn n m = State.pump (m.flits.length + 1) s1 n := by
    rw [State.sendOn, State.drive, hq]
    simp [s1]
  have hslot : wireSlot s1 n 0 (some (s1.link n).nextSeq) x (s1.link n).crdOut = wireSlot s n 0 (some (s.link n).nextSeq) x (s.link n).crdOut := by
    refine wireSlot_next_congr ?_ ?_ ?_ ?_ x <;> rw [State.link_setLink_self]
  rw [hdrive, ← hslot]
  exact hfirst

/-- A message that comes to an idle port stands in its queue while its class has no credit. -/
theorem State.sendOn_waits (hcred : AMap.get 0 m.tc (s.link n).credits = 0) :
    s.sendOn n m = s.setLink n { s.link n with queue := [m] } := by
  have hq : (s.link n).queue = [] := State.queue_of_portIdle hidle
  rw [State.sendOn, State.drive, hq]
  exact State.pump_waits (State.pick_one_waits (by simp) hopen (by simpa using hcred)) _

end

end Sys2Proof.Machine
end

section
/-! SUPPORT. What a peer copy writes: the bytes of a PUT_DATA in the posted buffer, and the channels, which no write changes (R369, R370). -/

namespace Sys2Proof.Machine

open Sys2Proof.Claim

/-! ## Channels -/

@[simp] theorem State.chan_setChan_self (s : State) (x ch : Nat) (v : Chan) : (s.setChan x ch v).chan x ch = v := by
  rw [State.setChan, State.chan, State.ctx_setCtx_self, AMap.get_put_self]

/-- The channels of every slot in `t` are those in `s`. -/
def SameChans (s t : State) : Prop := ∀ x, (t.ctx x).chans = (s.ctx x).chans

namespace SameChans

variable {s t u : State}

theorem trans (h : SameChans s t) (k : SameChans t u) : SameChans s u := fun x => (k x).trans (h x)

theorem of_ctxs (h : t.ctxs = s.ctxs) : SameChans s t := fun x => by
  rw [State.ctx, h]
  rfl

theorem of_noted (h : Noted s t) : SameChans s t := of_ctxs h.ctxs

theorem setCtx {x : Nat} {c : Ctx} (h : c.chans = (s.ctx x).chans) : SameChans s (s.setCtx x c) := fun y => by
  rw [State.ctx_setCtx]
  split
  next hy => rw [h, hy]
  next => rfl

theorem foldl {α : Type} {f : State → α → State} (hf : ∀ s a, SameChans s (f s a)) (l : List α) (s : State) : SameChans s (l.foldl f s) := by
  induction l generalizing s with
  | nil => exact fun _ => rfl
  | cons a l ih => exact (hf s a).trans (ih _)

theorem chan (h : SameChans s t) (x ch : Nat) : t.chan x ch = s.chan x ch := by
  rw [State.chan, h x]
  rfl

end SameChans

theorem State.noteRefused_sameChans (s : State) (a : Nat) : SameChans s (s.noteRefused a) := by
  unfold State.noteRefused
  split
  next => exact .of_noted (State.vwrErr_noted _ _ _ _)
  next =>
    split
    next => exact .of_noted (State.indErr_noted _ _ _)
    next => exact fun _ => rfl

theorem State.touchStack_sameChans (s : State) (a : Nat) : SameChans s (s.touchStack a) := by
  unfold State.touchStack
  split <;> exact fun _ => rfl

theorem State.foldUnit_sameChans (s : State) (a : Nat) (data : List Byte) : SameChans s (s.foldUnit a data) := by
  refine SameChans.foldl (fun u x => ?_) _ s
  dsimp only
  split
  next => exact fun _ => rfl
  next => exact SameChans.setCtx rfl

theorem State.putUnit_sameChans (s : State) (ps : List Piece) (i : Nat) (po : Bool) (n : Nat) : SameChans s (s.putUnit ps i po n) := by
  have hput : SameChans s ((s.setMem (s.mem.write (ps.filter (fun p => p.addr / 64 == i)))).touchStack (64 * i)) :=
    (SameChans.of_ctxs rfl).trans (State.touchStack_sameChans _ _)
  unfold State.putUnit
  dsimp only
  split
  · split
    next => exact .of_noted (State.memErr_noted _ _ _ _ _)
    next => exact fun _ => rfl
  · split
    · exact hput.trans (State.foldUnit_sameChans _ _ _)
    · exact hput

theorem State.charge_sameChans (s : State) (q : Requester) (vat : Bool) (a : Nat) : SameChans s (s.charge q vat a) := by
  unfold State.charge
  split <;> exact fun _ => rfl

theorem State.chargeRuns_sameChans (s : State) (q : Requester) (l : List (Nat × Nat)) : SameChans s (s.chargeRuns q l) := by
  refine SameChans.foldl (fun u r => ?_) l s
  split
  · exact fun _ => rfl
  · exact SameChans.foldl (fun v i => State.charge_sameChans v q false _) _ u

theorem State.putHost_sameChans (s : State) (ps : List Piece) : SameChans s (s.putHost ps) := by
  have hhost (m : Mem) : SameChans s (s.setHost m) := SameChans.of_ctxs rfl
  have hemit (u : State) (p : Piece) : SameChans u (u.emit (.hostWrite p.addr p.data p.po)) := SameChans.of_ctxs rfl
  exact (hhost _).trans (SameChans.foldl hemit _ _)

theorem State.tallyUp_sameChans (s : State) (x k : Nat) : SameChans s (s.tallyUp x k) := by
  unfold State.tallyUp
  split
  · exact fun _ => rfl
  · exact SameChans.setCtx rfl

/-- A write performed leaves the channels of every slot as they are. -/
theorem State.performWrite_sameChans (s : State) (x : Nat) (ps : List Piece) : SameChans s (s.performWrite x ps).1 := by
  unfold State.performWrite
  extract_lets units bad ok s1 dev t3 s2 s3 inStore k
  have hrefused : SameChans s s1 := SameChans.foldl (fun u p => State.noteRefused_sameChans u p.addr) bad s
  have hstored : SameChans s1 s2 :=
    (SameChans.foldl (fun u e => State.putUnit_sameChans u dev e.1 e.2.1 e.2.2) (coverOf dev) s1).trans (State.chargeRuns_sameChans _ _ _)
  exact ((hrefused.trans hstored).trans (State.putHost_sameChans s2 t3)).trans (State.tallyUp_sameChans s3 x k)

/-! ## Bytes placed in a buffer of one run -/

theorem Mem.setBytes_take_drop (n : Nat) (l : List Byte) (m : Mem) (a : Nat) :
    (m.setBytes a (l.take n)).setBytes (a + n) (l.drop n) = m.setBytes a l := by
  induction l generalizing n m a with
  | nil => simp [Mem.setBytes]
  | cons b t ih =>
    cases n with
    | zero => rfl
    | succ n => simpa [Mem.setBytes, Nat.add_assoc, Nat.add_comm 1 n] using ih n (m.setByte a b) (a + 1)

/-- Bytes that fit a buffer of one run are one piece of it. -/
theorem placeRuns_one {len off : Nat} {b : List Byte} (hb : b ≠ []) (hfit : off + b.length ≤ len) (d : Nat) (po : Bool) :
    placeRuns [(d, len)] off b po = [{ addr := d + off, data := b, po := po }] := by
  have hpos : 0 < b.length := List.length_pos_iff.2 hb
  simp only [placeRuns]
  rw [if_neg (by omega), if_pos (by omega), if_neg hb]

/-- The pieces of the flits of a PUT_DATA write its bytes one after another: those from flit `k` on. -/
theorem foldl_setBytes_flits {d len : Nat} {g : PutMsg} (hfit : g.offset + g.data.length ≤ len) (f k : Nat) (hf : (g.data.drop (64 * k)).length ≤ f)
    (m : Mem) :
    (((chunks 64 f (g.data.drop (64 * k))).zipIdx k).flatMap (fun p =>
      placeRuns [(d, len)] (g.offset + 64 * p.2) ((g.data.drop (64 * p.2)).take 64) (g.poison.getD p.2 false))).foldl
        (fun m p => m.setBytes p.addr p.data) m = m.setBytes (d + g.offset + 64 * k) (g.data.drop (64 * k)) := by
  induction f generalizing k m with
  | zero => simp [chunks, List.length_eq_zero_iff.1 (Nat.le_zero.1 hf), Mem.setBytes]
  | succ f ih =>
    by_cases hnil : g.data.drop (64 * k) = []
    · simp [hnil, chunks, Mem.setBytes]
    · have hcut : chunks 64 (f + 1) (g.data.drop (64 * k)) =
          (g.data.drop (64 * k)).take 64 :: chunks 64 f (g.data.drop (64 * (k + 1))) := by
        rw [show 64 * (k + 1) = 64 * k + 64 by omega, ← List.drop_drop]
        cases hl : g.data.drop (64 * k) with
        | nil => exact absurd hl hnil
        | cons b t => rfl
      have hlen : 0 < g.data.length - 64 * k := by simpa using List.length_pos_iff.2 hnil
      have hplace := placeRuns_one (b := (g.data.drop (64 * k)).take 64) (len := len) (off := g.offset + 64 * k) (by simpa using hnil)
        (by simp only [List.length_take, List.length_drop]; omega) d (g.poison.getD k false)
      have hrest := ih (k + 1) (by simp only [List.length_drop] at hf ⊢; omega)
        (m.setBytes (d + (g.offset + 64 * k)) ((g.data.drop (64 * k)).take 64))
      rw [hcut, List.zipIdx_cons, List.flatMap_cons, List.foldl_append, hplace, List.foldl_cons, List.foldl_nil, hrest,
        ← Mem.setBytes_take_drop 64 (g.data.drop (64 * k)), List.drop_drop]
      simp only [Nat.mul_add, Nat.add_assoc, Nat.mul_one]

/-- A PUT_DATA in a buffer of one run writes its bytes from its offset on. -/
theorem foldl_setBytes_putPieces {v : Chan} {d len : Nat} (hruns : v.runs = [(d, len)]) {g : PutMsg} (hfit : g.offset + g.data.length ≤ len)
    (m : Mem) : (putPieces v g).foldl (fun m p => m.setBytes p.addr p.data) m = m.setBytes (d + g.offset) g.data := by
  have h := foldl_setBytes_flits (d := d) hfit g.data.length 0 (by simp) m
  rw [putPieces, payloads, List.zipIdx_map, List.flatMap_map, hruns]
  simpa using h

/-- What a memory reads after pieces that write bytes one after another. -/
theorem Mem.byte_write_consecutive {ps : List Piece} {a : Nat} {l : List Byte}
    (h : ∀ m : Mem, ps.foldl (fun m p => m.setBytes p.addr p.data) m = m.setBytes a l) (m : Mem) (k : Nat) :
    (m.write ps).byte k = if a ≤ k ∧ k < a + l.length then l.getD (k - a) 0 else m.byte k := by
  rw [Mem.write, Mem.byte_markUnits, h, Mem.byte_setBytes, Mem.byte_foldl_settle]

theorem Mem.read_write_consecutive {ps : List Piece} {a : Nat} {l : List Byte}
    (h : ∀ m : Mem, ps.foldl (fun m p => m.setBytes p.addr p.data) m = m.setBytes a l) (m : Mem) : (m.write ps).read a l.length = l := by
  have hsame : (m.write ps).read a l.length = (m.setBytes a l).read a l.length :=
    List.map_congr_left (fun i hi => by
      have hlt : i < l.length := List.mem_range.1 hi
      rw [Mem.byte_write_consecutive h, Mem.byte_setBytes, if_pos (by omega)])
  rw [hsame, Mem.read_setBytes]

theorem State.loc_localWrite (s : State) (n : Nat) (ps : List Piece) : ((s.localWrite n ps).core n).loc = (s.core n).loc.write ps := by
  rw [State.localWrite, State.core_setCore_self]

end Sys2Proof.Machine
end

section
/-! SUPPORT. The messages that a Ferdo port receives, one by one: peer copies and messages that go on (R356, R359, R362, R364, R369, R370). -/

namespace Sys2Proof.Machine

open Sys2Proof.Claim

/-! ## Reception -/

section
variable {s : State} {n : Nat} {h : FlitHead} {k tc : Nat} {body : State → State}

theorem recv_down (hdown : s.linkUp n = false) : recv n h k tc s body = .next s := by
  rw [recv, hdown]
  rfl

variable (hup : s.linkUp n = true)
include hup

theorem recv_discards (hseq : s.inSeq n h k tc = false) : recv n h k tc s body = .next (s.sendNak n) := by
  rw [recv, hup, hseq]
  rfl

theorem recv_takes (hseq : s.inSeq n h k tc = true) : recv n h k tc s body = .next (body s) := by
  rw [recv, hup, hseq]
  rfl

end

theorem State.sendNak_sends (s : State) (n : Nat) : (s.sendNak n).out = s.out ++ nakOf s n ∧ ((s.sendNak n).link n).nakSent = true := by
  unfold nakOf
  cases hsent : (s.link n).nakSent with
  | true => simp [State.sendNak, hsent]
  | false =>
    have hnak : s.sendNak n = (s.setLink n { s.link n with nakSent := true }).sendPlain n { typ := 4, tc := 0, payload := noPayload } := by
      rw [State.sendNak, hsent]
      rfl
    rw [hnak, State.sendPlain_out, State.nakSent_sendPlain, State.link_setLink_self,
      wireSlot_congr (s := s) (by rw [State.link_setLink_self]) (by rw [State.link_setLink_self])]
    exact ⟨rfl, rfl⟩

section
variable (s : State) (link : Fin 48) (h : FlitHead) (k tc x : Nat)

theorem State.deaf_recvMsg : (s.recvMsg link.val h k tc).deaf x = s.deaf x := by
  rw [State.deaf, (State.recvMsg_ported link.isLt s h k tc).ctx]
  rfl

theorem State.chan_recvMsg (ch : Nat) : (s.recvMsg link.val h k tc).chan x ch = s.chan x ch :=
  (SameChans.of_ctxs (State.recvMsg_ported link.isLt s h k tc).ctxs).chan x ch

end

/-! ## Peer copies -/

/-- The bytes of a PUT_DATA written into a posted buffer, and whether the memory path has refused a unit. -/
def State.putWrite (s : State) (g : PutMsg) (v : Chan) : State × Bool :=
  if v.dev then s.performWrite g.slot.val (putPieces v g) else (s.localWrite v.core (putPieces v g), false)

theorem State.putWrite_sameChans (s : State) (g : PutMsg) (v : Chan) : SameChans s (s.putWrite g v).1 := by
  unfold State.putWrite
  split
  · exact State.performWrite_sameChans _ _ _
  · exact SameChans.of_ctxs rfl

/-- The channel after a PUT_DATA, with `got` bytes of the tile come: PUT_DONE leaves with the tile written, and the wait ends with the buffer full
(R369, R370). -/
def State.putTaken (s : State) (g : PutMsg) (v : Chan) (got : Nat) : State :=
  let x := g.slot.val
  let ch := g.ch.val
  let s1 := s.setChan x ch { s.chan x ch with got := got, full := decide (runsLen v.runs ≤ got), mseq := g.mseq + 1 }
  let s2 := if v.len ≤ got then s1.sendPut (v.core / 100) x ch g.src.toNat 3 0 [] [] else s1
  if decide (runsLen v.runs ≤ got) then s2.releaseAll x else s2

section
variable (link : Fin 48) (h : FlitHead) (g : PutMsg) (s : State)

theorem exec_putReq : exec (.putReq link h g) s = execPutReq link h g s := rfl

theorem exec_putGo : exec (.putGo link h g) s = execPutGo link h g s := rfl

theorem exec_putData : exec (.putData link h g) s = execPutData link h g s := rfl

theorem exec_putDone : exec (.putDone link h g) s = execPutDone link h g s := rfl

end

section
variable {s : State} {link : Fin 48} (h : FlitHead) (g : PutMsg) (hdown : s.linkUp link.val = false)
include hdown

theorem exec_putRequests_down :
    exec (.putReq link h g) s = .next s ∧ exec (.putGo link h g) s = .next s ∧ exec (.putDone link h g) s = .next s := by
  rw [exec_putReq, exec_putGo, exec_putDone, execPutReq, execPutGo, execPutDone]
  exact ⟨recv_down hdown, recv_down hdown, recv_down hdown⟩

theorem exec_putData_down : exec (.putData link h g) s = .next s := by
  rw [exec_putData, execPutData]
  exact recv_down hdown

end

section
variable {s : State} {link : Fin 48} {h : FlitHead} {g : PutMsg} (hup : s.linkUp link.val = true)
include hup

theorem exec_putRequests_discards (hseq : s.inSeq link.val h 1 2 = false) : exec (.putReq link h g) s = .next (s.sendNak link.val) ∧
    exec (.putGo link h g) s = .next (s.sendNak link.val) ∧ exec (.putDone link h g) s = .next (s.sendNak link.val) := by
  rw [exec_putReq, exec_putGo, exec_putDone, execPutReq, execPutGo, execPutDone]
  exact ⟨recv_discards hup hseq, recv_discards hup hseq, recv_discards hup hseq⟩

theorem exec_putData_discards (hseq : s.inSeq link.val h (1 + ceilDiv g.data.length 64) 2 = false) :
    exec (.putData link h g) s = .next (s.sendNak link.val) := by
  rw [exec_putData, execPutData]
  exact recv_discards hup hseq

section
variable (hseq : s.inSeq link.val h 1 2 = true)
include hseq

/-- A message for a slot with no live context is received and has no other effect (R370). -/
theorem exec_putRequests_deaf (hdeaf : s.deaf g.slot.val = true) : exec (.putReq link h g) s = .next (s.recvMsg link.val h 1 2) ∧
    exec (.putGo link h g) s = .next (s.recvMsg link.val h 1 2) ∧ exec (.putDone link h g) s = .next (s.recvMsg link.val h 1 2) := by
  have hd : (s.recvMsg link.val h 1 2).deaf g.slot.val = true := by rw [State.deaf_recvMsg, hdeaf]
  rw [exec_putReq, exec_putGo, exec_putDone, execPutReq, execPutGo, execPutDone, recv_takes hup hseq, recv_takes hup hseq, recv_takes hup hseq]
  exact ⟨congrArg _ (if_pos hd), congrArg _ (if_pos hd), congrArg _ (if_pos hd)⟩

variable (hlive : s.deaf g.slot.val = false)
include hlive

/-- PUT_REQ for a posted buffer is answered. -/
theorem exec_putReq_expected (hexp : expects s g = true) : exec (.putReq link h g) s = .next (
    ((s.recvMsg link.val h 1 2).setChan g.slot.val g.ch.val
    { s.chan g.slot.val g.ch.val with mseq := g.mseq + 1 }).answerPut g.slot.val g.ch.val g.src.toNat g.offset) := by
  simp only [expects] at hexp
  rw [exec_putReq, execPutReq, recv_takes hup hseq]
  simp only [State.deaf_recvMsg, State.chan_recvMsg, hlive, hexp, Bool.false_eq_true, if_false, if_true]

/-- PUT_REQ for which no buffer is posted is kept. -/
theorem exec_putReq_unexpected (hexp : expects s g = false) : exec (.putReq link h g) s = .next (
    (s.recvMsg link.val h 1 2).setChan g.slot.val g.ch.val
    { s.chan g.slot.val g.ch.val with reqs := (s.chan g.slot.val g.ch.val).reqs ++ [(g.src.toNat, g.offset, g.mseq)] }) := by
  simp only [expects] at hexp
  rw [exec_putReq, execPutReq, recv_takes hup hseq]
  simp only [State.deaf_recvMsg, State.chan_recvMsg, hlive, hexp, Bool.false_eq_true, if_false]

theorem exec_putGo_live {q : Sending} (hq : ((s.recvMsg link.val h 1 2).ctx g.slot.val).sending.find?
      (fun e => e.ch == g.ch.val && e.dst == g.src.toNat && !e.gone) = some q) :
    exec (.putGo link h g) s = .next ((chunks 4096 (q.data.take g.offset).length (q.data.take g.offset)).zipIdx.foldl
      (fun t e => t.sendPut (q.core / 100) g.slot.val q.ch q.dst 2 (4096 * e.2) e.1 ((q.po.drop (64 * e.2)).take 64))
      ((s.recvMsg link.val h 1 2).setCtx g.slot.val { (s.recvMsg link.val h 1 2).ctx g.slot.val with
        sending := ((s.recvMsg link.val h 1 2).ctx g.slot.val).sending.replace q { q with gone := true } })) := by
  rw [exec_putGo, execPutGo, recv_takes hup hseq]
  simp only [State.deaf_recvMsg, hlive, Bool.false_eq_true, if_false, hq]

theorem exec_putDone_live {q : Sending}
    (hq : (s.ctx g.slot.val).sending.find? (fun e => e.ch == g.ch.val && e.dst == g.src.toNat && e.gone) = some q) :
    exec (.putDone link h g) s = .next (((s.recvMsg link.val h 1 2).setCtx g.slot.val
      { s.ctx g.slot.val with sending := (s.ctx g.slot.val).sending.erase q }).setCore q.core
        { s.core q.core with lsendOut := (s.core q.core).lsendOut - 1 }) := by
  have hport := State.recvMsg_ported link.isLt s h 1 2
  rw [exec_putDone, execPutDone, recv_takes hup hseq]
  simp only [State.deaf_recvMsg, hlive, Bool.false_eq_true, if_false, hport.ctx, hport.core, hq]

end

section
variable (hseq : s.inSeq link.val h (1 + ceilDiv g.data.length 64) 2 = true)
include hseq

/-- A PUT_DATA for a slot with no live context, or for which no buffer is posted, is received and has no other effect (R370). -/
theorem exec_putData_ignored (hignored : s.deaf g.slot.val = true ∨ expects s g = false) :
    exec (.putData link h g) s = .next (s.recvMsg link.val h (1 + ceilDiv g.data.length 64) 2) := by
  simp only [expects] at hignored
  rw [exec_putData, execPutData]
  dsimp only
  rw [recv_takes hup hseq]
  obtain hdeaf | hexp := hignored
  · simp [State.deaf_recvMsg, hdeaf]
  · simp [hexp]

variable (hlive : s.deaf g.slot.val = false) (hexp : expects s g = true)
include hlive hexp

/-- A PUT_DATA before its turn has no effect (log entry 77). -/
theorem exec_putData_early (hearly : (s.chan g.slot.val g.ch.val).early g = true) : exec (.putData link h g) s = .next s := by
  simp only [expects] at hexp
  rw [exec_putData, execPutData]
  dsimp only
  rw [recv_takes hup hseq]
  simp [hlive, hexp, hearly]

theorem exec_putData_expected (horder : (s.chan g.slot.val g.ch.val).early g = false) :
    let v := s.chan g.slot.val g.ch.val
    let w := (s.recvMsg link.val h (1 + ceilDiv g.data.length 64) 2).putWrite g v
    exec (.putData link h g) s = .next (if w.2 then w.1.endBy g.slot.val stPage 0x08 else w.1.putTaken g v (v.got + g.data.length)) := by
  intro v w
  have hgot : (w.1.chan g.slot.val g.ch.val).got = v.got := by
    rw [((State.putWrite_sameChans _ g v).chan g.slot.val g.ch.val), State.chan_recvMsg]
  simp only [expects] at hexp
  rw [exec_putData, execPutData]
  dsimp only
  rw [recv_takes hup hseq]
  simp only [State.deaf_recvMsg, hlive, hexp, horder, Bool.and_false, Bool.not_true, Bool.or_self, Bool.false_eq_true, if_false]
  rw [← hgot]
  rfl

end

end

/-! ## Messages that go on -/

/-- The output link of a message (R362). -/
def outLink (r : RawMsg) : Nat := (r.route.map (fun e => e.val)).getD r.hptr 63

/-- A message as it stands in the queue of its output link, from its input link. -/
def State.forwarded (s : State) (n : Nat) (r : RawMsg) : OutMsg :=
  { message (RawMsg.onward r) r.tc.val none .unreserved r.data r.poison with fwd := some (n, s.tim.now) }

/-- A message received on a link, put in the queue of its output link and sent as far as credit goes, its flits acknowledged with IDLE. -/
def State.forward (s : State) (n : Nat) (h : FlitHead) (r : RawMsg) : State :=
  (((s.recvHead n h).recvSeq n (1 + r.ndata)).sendOn (outLink r) (s.forwarded n r)).sendIdle n

theorem State.flits_forwarded (s : State) (n : Nat) (r : RawMsg) :
    (s.forwarded n r).flits = onward r :: dataFlits r.tc.val r.data r.poison := rfl

theorem State.open_forwarded (s : State) (n : Nat) (r : RawMsg) : (s.forwarded n r).open = false := rfl

theorem State.rq_forwarded (s : State) (n : Nat) (r : RawMsg) : (s.forwarded n r).rq = .unreserved := rfl

theorem exec_messageForward (link : Fin 48) (h : FlitHead) (r : RawMsg) (s : State) :
    exec (.messageForward link h r) s = execMessageForward link h r s := rfl

theorem exec_messageForward_portDown {s : State} {link : Fin 48} (h : FlitHead) (r : RawMsg) (hdown : s.linkUp link.val = false) :
    exec (.messageForward link h r) s = .next s := by
  rw [exec_messageForward, execMessageForward]
  exact recv_down hdown

theorem exec_messageForward_discards {s : State} {link : Fin 48} {h : FlitHead} {r : RawMsg} (hup : s.linkUp link.val = true)
    (hseq : s.inSeq link.val h (1 + r.ndata) r.tc.val = false) : exec (.messageForward link h r) s = .next (s.sendNak link.val) := by
  rw [exec_messageForward, execMessageForward]
  exact recv_discards hup hseq

section
variable {s : State} {link : Fin 48} {h : FlitHead} {r : RawMsg} (hup : s.linkUp link.val = true)
  (hseq : s.inSeq link.val h (1 + r.ndata) r.tc.val = true)
include hup hseq

theorem exec_messageForward_past (hptr : r.hops < r.hptr) :
    exec (.messageForward link h r) s = .next ((s.recvMsg link.val h (1 + r.ndata) r.tc.val).lnkErr link.val 4) := by
  rw [exec_messageForward, execMessageForward]
  dsimp only
  rw [recv_takes hup hseq, if_pos hptr]

theorem exec_messageForward_last (hptr : r.hptr = r.hops) :
    exec (.messageForward link h r) s = .next (if r.dst.toNat = s.devId then s.recvMsg link.val h (1 + r.ndata) r.tc.val
      else (s.recvMsg link.val h (1 + r.ndata) r.tc.val).lnkErr link.val 4) := by
  rw [exec_messageForward, execMessageForward]
  dsimp only
  rw [recv_takes hup hseq, if_neg (by omega), if_pos hptr]

variable (hptr : r.hptr < r.hops)
include hptr

theorem exec_messageForward_outDown (hout : s.linkUp (outLink r) = false) :
    exec (.messageForward link h r) s =
      .next ((s.recvMsg link.val h (1 + r.ndata) r.tc.val).lnkErr (if outLink r < 48 then outLink r else link.val) 4) := by
  rw [exec_messageForward, execMessageForward]
  dsimp only
  rw [recv_takes hup hseq, if_neg (by omega), if_neg (by omega)]
  exact congrArg _ (if_pos (by rw [outLink] at hout; rw [hout]; rfl))

theorem exec_messageForward_on (hout : s.linkUp (outLink r) = true) :
    exec (.messageForward link h r) s = .next (s.forward link.val h r) := by
  rw [exec_messageForward, execMessageForward]
  dsimp only
  rw [recv_takes hup hseq, if_neg (by omega), if_neg (by omega)]
  exact congrArg _ (if_neg (by rw [outLink] at hout; rw [hout]; decide))

end

section
variable {s : State} {n i : Nat} (hidle : portIdle s n = true) (hi : i ≠ n)
include hidle

theorem State.recvHead_idle (h : FlitHead) : s.recvHead n h = s.takeHead n h := by
  refine State.drive_idle ?_
  obtain ⟨l, hq, e | e⟩ := State.takeHead_cases s n h <;>
    simp only [e, State.link_lnkErr, State.link_setLink_self, hq, State.queue_of_portIdle hidle]

include hi

/-- The reception of a message on an idle port leaves every other link as it is. -/
theorem State.link_received_other (h : FlitHead) (k : Nat) : ((s.recvHead n h).recvSeq n k).link i = s.link i := by
  rw [State.link_recvSeq_other hi, State.recvHead_idle hidle, State.link_takeHead_other hi]

end

section
variable {s : State} {link : Fin 48} (h : FlitHead) {r : RawMsg} (hne : outLink r ≠ link.val) (hidle : portIdle s link.val = true)
  (hidleOut : portIdle s (outLink r) = true)
include hne hidle hidleOut

/-- The HEAD of a message leaves over its output link in the next slot where its class has credit and the window allows. -/
theorem State.forward_sends (hout : s.linkUp (outLink r) = true) (htc : r.tc ≠ 0) (hwindow : (s.link (outLink r)).replay.length < 1023)
    (hcred : 0 < AMap.get 0 r.tc.val (s.link (outLink r)).credits) :
    wireSlot s (outLink r) 0 (some (s.link (outLink r)).nextSeq) (onward r) (s.link (outLink r)).crdOut ∈
      (s.forward link.val h r).out := by
  let u := (s.recvHead link.val h).recvSeq link.val (1 + r.ndata)
  have hlink : u.link (outLink r) = s.link (outLink r) := State.link_received_other hidle hne h _
  have hport : Ported portRegs s u := (State.recvHead_ported link.isLt s h).recvSeq List.mem_cons_self link.isLt _
  have hlt : outLink r < 48 := by simp only [State.linkUp, Bool.and_eq_true, decide_eq_true_eq] at hout; exact hout.1
  have hsent := State.sendOn_sends (s := u) (m := s.forwarded link.val r) (by rw [portIdle, hlink]; exact hidleOut) (s.open_forwarded _ r) hlt
    (by rw [hport.linkUp (by decide), hout]) ⟨Nat.pos_of_ne_zero (fun h0 => htc (Fin.ext h0)), r.tc.isLt⟩ (by rw [s.rq_forwarded]; decide)
    (by rw [hlink]; exact hwindow) (by rw [hlink]; exact hcred) (s.flits_forwarded link.val r)
  rw [wireSlot_congr (s := s) (by rw [hlink]) (by rw [hlink]), hlink] at hsent
  exact ((Ported.refl (rs := portRegs) _).sendIdle _).sent.subset hsent

/-- A message stands alone in the queue of its output link while its class has no credit. -/
theorem State.forward_waits (hcred : AMap.get 0 r.tc.val (s.link (outLink r)).credits = 0) :
    ((s.forward link.val h r).link (outLink r)).queue = [s.forwarded link.val r] := by
  have hlink := State.link_received_other hidle hne h (1 + r.ndata)
  have hwaits := State.sendOn_waits (s := (s.recvHead link.val h).recvSeq link.val (1 + r.ndata)) (by rw [portIdle, hlink]; exact hidleOut)
    (s.open_forwarded link.val r) (by rw [hlink]; exact hcred)
  rw [State.forward, State.link_sendIdle_other hne, hwaits, State.link_setLink_self]

end

/-! ## Messages that have stalled -/

theorem State.queue_setLink {s : State} {n : Nat} {l : Link} (h : l.queue = (s.link n).queue) (i : Nat) :
    ((s.setLink n l).link i).queue = (s.link i).queue := by
  rw [State.link_setLink]
  split
  next hi => rw [hi, h]
  next => rfl

theorem State.queue_sendIdle (s : State) (n i : Nat) : ((s.sendIdle n).link i).queue = (s.link i).queue := by
  have hcredits : ((s.setLink n (s.link n).crdTaken).link i).queue = (s.link i).queue := by
    refine State.queue_setLink ?_ i
    rfl
  rw [State.sendIdle, State.sendPlain, State.emitSlot, State.link_of_emit, ← hcredits]
  refine State.queue_setLink ?_ i
  rfl

theorem State.queue_freeEntries (s : State) (n tc k i : Nat) : ((s.freeEntries n tc k).link i).queue = (s.link i).queue := by
  refine State.queue_setLink ?_ i
  rfl

/-- The entries that go back to the input link of a message leave every queue as it is. -/
theorem State.queue_returnOf (s : State) (m : OutMsg) (i : Nat) : ((s.returnOf m).link i).queue = (s.link i).queue := by
  unfold State.returnOf State.returnEntries
  split
  next => rfl
  next =>
    split
    · dsimp only
      split
      · rw [State.queue_sendIdle, State.queue_freeEntries]
      · exact State.queue_freeEntries _ _ _ _ _
    · rfl

/-- A message that has stalled discarded, before the port goes on. -/
def State.dropStalled (s : State) (n : Nat) (m : OutMsg) : State :=
  ((s.setLink n { s.link n with queue := (s.link n).queue.erase m }).returnOf m).lnkErr n 5

theorem State.queue_dropStalled (s : State) (n : Nat) (m : OutMsg) : ((s.dropStalled n m).link n).queue = (s.link n).queue.erase m := by
  rw [State.dropStalled, State.link_lnkErr, State.queue_returnOf, State.link_setLink_self]

theorem State.dropStalled_ported {n : Nat} (hn : n < 48) (s : State) (m : OutMsg) : Ported portRegs s (s.dropStalled n m) :=
  (((Ported.refl s).setLink n _).returnOf m).trans (State.lnkErr_ported hn _ 5)

section
variable {s : State} {link : Fin 48} {tc : Fin 4} {m : OutMsg} {p : Nat × W64}
  (hm : (s.link link.val).queue.find? (fun e => e.tc == tc.val) = some m) (hp : m.fwd = some p)
include hm hp

theorem exec_forwardStallTimeout_early (h : s.tim.now.toNat < p.2.toNat + 1000 * s.fld .lnkCfg link.val 0 31 16) :
    exec (.forwardStallTimeout link tc) s = .next s := by
  have hexec : exec (.forwardStallTimeout link tc) s = execForwardStallTimeout link tc s := rfl
  rw [hexec, execForwardStallTimeout]
  simp only [hm, hp]
  exact if_pos h

theorem exec_forwardStallTimeout_late (h : p.2.toNat + 1000 * s.fld .lnkCfg link.val 0 31 16 ≤ s.tim.now.toNat) :
    exec (.forwardStallTimeout link tc) s = .next ((s.dropStalled link.val m).drive link.val) := by
  have hexec : exec (.forwardStallTimeout link tc) s = execForwardStallTimeout link tc s := rfl
  rw [hexec, execForwardStallTimeout]
  simp only [hm, hp]
  exact if_neg (Nat.not_lt.2 h)

end

end Sys2Proof.Machine
end

section

open Sys2Proof Sys2Proof.Machine Sys2Proof.Claim

/-- Settles O46: what a port does with a message that it cannot take, then each message of a peer copy, a message that goes on, and one that has
stalled. -/
theorem messagesAreDeliveredAndForwarded : Obligations.MessagesAreDeliveredAndForwarded := by
  intro s link h g q r m p tc n x ch v src size u dk ud early
  refine ⟨?down, exec_putRequests_discards, exec_putData_discards, exec_messageForward_discards, State.sendNak_sends s n, ?deaf, ?requests, ?data,
    ?onward, ?stalled⟩
  case down =>
    intro hdown
    obtain ⟨hreq, hgo, hdone⟩ := exec_putRequests_down h g hdown
    exact ⟨hreq, hgo, exec_putData_down h g hdown, hdone, exec_messageForward_portDown h r hdown⟩
  case deaf =>
    exact fun hup hdeaf => ⟨fun hseq => exec_putRequests_deaf hup hseq hdeaf, fun hseq => exec_putData_ignored hup hseq (.inl hdeaf)⟩
  case requests =>
    intro hup hseq hlive
    refine ⟨fun hexp => ?_, exec_putReq_unexpected hup hseq hlive, exec_putGo_live hup hseq hlive, fun hq => ?_⟩
    · intro k t1 t2
      rw [exec_putReq_expected hup hseq hlive hexp, State.answerPut, State.chan_setChan_self]
    · refine ⟨_, exec_putDone_live hup hseq hlive hq, ?_, ?_⟩
      · rw [State.ctx_of_setCore, State.ctx_setCtx_self]
      · rw [State.core_setCore_self]
  case data =>
    intro hup hseq hlive
    refine ⟨exec_putData_early hup hseq hlive, fun hexp => exec_putData_ignored hup hseq (.inr hexp), fun hexp horder => ?_⟩
    intro w got t1 t2
    have hexec := exec_putData_expected hup hseq hlive hexp horder
    refine ⟨fun hrefused => hexec.trans (congrArg _ (if_pos hrefused)), fun hwritten => ?_, fun hlocal d len hruns hfit => ?_⟩
    · refine (hexec.trans (congrArg _ (if_neg (Bool.eq_false_iff.1 hwritten)))).trans (congrArg _ ?_)
      exact ite_congr decide_eq_true_eq (fun _ => rfl) (fun _ => rfl)
    · have hw : w.1 = ud.localWrite v.core (putPieces v g) := by simp [w, hlocal]
      have hbytes := foldl_setBytes_putPieces hruns hfit
      rw [hw, State.loc_localWrite]
      refine ⟨Mem.read_write_consecutive hbytes _, fun c hc => ?_⟩
      rw [Mem.byte_write_consecutive hbytes, if_neg (by omega)]
  case onward =>
    intro hup hseq back out
    refine ⟨exec_messageForward_past hup hseq, exec_messageForward_last hup hseq, exec_messageForward_outDown hup hseq,
      fun hptr hout hne hidle hidleOut hwindow htc => ⟨fun hcred => ?_, fun hcred => ?_⟩⟩
    · exact ⟨_, exec_messageForward_on hup hseq hptr hout, State.forward_sends h hne hidle hidleOut hout htc hwindow hcred⟩
    · exact ⟨_, _, exec_messageForward_on hup hseq hptr hout, State.forward_waits h hne hidle hidleOut hcred, rfl, s.flits_forwarded n r⟩
  case stalled =>
    intro hm hp
    refine ⟨exec_forwardStallTimeout_early hm hp, fun hlate => ⟨_, exec_forwardStallTimeout_late hm hp hlate, ?_⟩⟩
    have hn : n < 48 := link.isLt
    have hdrop := State.dropStalled_ported hn s m
    have hdrive : Ported [.lnkCnt] (s.dropStalled n m) ((s.dropStalled n m).drive n) := (Ported.refl _).drive List.mem_cons_self hn
    refine ⟨?_, hdrive.ctxs.trans hdrop.ctxs, fun hq => ?_, fun hdown => ?_⟩
    · rw [hdrive.reg ⟨hn, Nat.one_pos⟩ (by decide)]
      exact State.lnkErr_sets hn (by omega) _
    · have hempty : ((s.dropStalled n m).link n).queue = [] := by rw [State.queue_dropStalled, hq, List.erase_cons_head]
      rw [State.drive_idle hempty, hempty]
    · rw [State.drive, State.pump_down ((hdrop.linkUp (by decide) n).trans hdown), State.queue_dropStalled]

end

section
/-! SUPPORT. What the second of an Ochre sample and the day of a life fit leave of the monitor: reports, extensions of promises and rechecks of
admitted programs touch no partition, no save request and no register of the monitor but the REPLACE bits; a derate touches its own partition (R413,
R421 to R425). -/

namespace Sys2Proof.Machine

open Sys2Proof.Claim

/-! ## Bits of a register outside a field that is written -/

theorem natBit_putBits_out {hi lo i : Nat} (h : i < lo ∨ hi < i) (w : W32) (v : Nat) :
    natBit (putBits w hi lo v).toNat i = natBit w.toNat i := by
  simp only [natBit_eq_testBit, BitVec.testBit_toNat]
  by_cases h32 : i < 32
  · simp only [putBits, BitVec.getLsbD_or, BitVec.getLsbD_and, BitVec.getLsbD_not, BitVec.getLsbD_ofNat, h32, Nat.testBit_mul_two_pow,
      Nat.testBit_two_pow_sub_one, Nat.testBit_mod_two_pow]
    rcases h with hlow | hhigh
    · have hout : ¬ lo ≤ i := by omega
      simp [hout]
    · have hout : ¬ i - lo < hi + 1 - lo := by omega
      simp [hout]
  · rw [BitVec.getLsbD_of_ge _ _ (by omega), BitVec.getLsbD_of_ge _ _ (by omega)]

theorem State.natBit_setFld_out {hi lo i : Nat} (h : i < lo ∨ hi < i) (s : State) (r : Reg) (u n v : Nat) :
    natBit ((s.setFld r u n hi lo v).reg r u n).toNat i = natBit (s.reg r u n).toNat i := by
  rw [State.setFld, State.reg_setReg_self, natBit_putBits_out h]

theorem bitsOf_congr {a b : W32} {hi lo : Nat} (h : ∀ i, lo ≤ i → i ≤ hi → natBit a.toNat i = natBit b.toNat i) :
    bitsOf a hi lo = bitsOf b hi lo := by
  apply Nat.eq_of_testBit_eq
  intro j
  simp only [bitsOf, Nat.testBit_mod_two_pow, Nat.testBit_shiftRight]
  by_cases hj : j < hi + 1 - lo
  · simpa [hj, natBit_eq_testBit] using h (lo + j) (by omega) (by omega)
  · simp [hj]

/-! ## What is held of the monitor -/

/-- The registers that a sample or a fit reads or is to leave in its last steps, with their elements. -/
def heldRegs : List (Reg × Nat) := [(.ochCtrl, 0), (.ochDerate, 0), (.ochLife, 0), (.ochCnt, 0)]

theorem heldRegs_stand : ∀ e ∈ heldRegs, e.1.stands 0 e.2 := by
  unfold Reg.stands
  decide

theorem ochStatus_stands : Reg.ochStatus.stands 0 0 := ⟨Nat.one_pos, Nat.one_pos⟩

/-- `t` holds what the Ochre monitor knows in `s`, every save request, and partition `p` with the time and the bit of its derate. -/
structure OchreHeld (p : Nat) (s t : State) : Prop where
  now : t.tim.now = s.tim.now
  och : t.och = { s.och with lastDerate := t.och.lastDerate }
  last : AMap.get 0 p t.och.lastDerate = AMap.get 0 p s.och.lastDerate
  part : t.part p = s.part p
  saves : ∀ x, (t.ctx x).savePending = (s.ctx x).savePending
  reg : ∀ e ∈ heldRegs, t.reg e.1 0 e.2 = s.reg e.1 0 e.2
  status : ∀ i, i < 8 ∨ i = 9 + p → natBit (t.reg .ochStatus 0 0).toNat i = natBit (s.reg .ochStatus 0 0).toNat i

namespace OchreHeld

variable {p : Nat} {s t u : State}

theorem refl (s : State) : OchreHeld p s s := ⟨rfl, rfl, rfl, rfl, fun _ => rfl, fun _ _ => rfl, fun _ _ => rfl⟩

theorem trans (h : OchreHeld p s t) (k : OchreHeld p t u) : OchreHeld p s u where
  now := k.now.trans h.now
  och := k.och.trans (congrArg (fun o : Ochre => { o with lastDerate := u.och.lastDerate }) h.och)
  last := k.last.trans h.last
  part := k.part.trans h.part
  saves x := (k.saves x).trans (h.saves x)
  reg e he := (k.reg e he).trans (h.reg e he)
  status i hi := (k.status i hi).trans (h.status i hi)

theorem foldl {α : Type} {f : State → α → State} {l : List α} (hf : ∀ s, ∀ a ∈ l, OchreHeld p s (f s a)) (s : State) :
    OchreHeld p s (l.foldl f s) := by
  induction l generalizing s with
  | nil => exact refl s
  | cons a l ih => exact (hf s a List.mem_cons_self).trans (ih (fun s b hb => hf s b (List.mem_cons_of_mem a hb)) (f s a))

section
variable (h : OchreHeld p s t)
include h

theorem setMem (m : Mem) : OchreHeld p s (t.setMem m) := ⟨h.now, h.och, h.last, h.part, h.saves, h.reg, h.status⟩

theorem setHost (m : Mem) : OchreHeld p s (t.setHost m) := ⟨h.now, h.och, h.last, h.part, h.saves, h.reg, h.status⟩

theorem setHif (v : Hif) : OchreHeld p s (t.setHif v) := ⟨h.now, h.och, h.last, h.part, h.saves, h.reg, h.status⟩

theorem setMgmt (v : Mgmt) : OchreHeld p s (t.setMgmt v) := ⟨h.now, h.och, h.last, h.part, h.saves, h.reg, h.status⟩

theorem emit (o : Out) : OchreHeld p s (t.emit o) := ⟨h.now, h.och, h.last, h.part, h.saves, h.reg, h.status⟩

theorem setTim {v : Tim} (hv : v.now = t.tim.now) : OchreHeld p s (t.setTim v) :=
  ⟨hv.trans h.now, h.och, h.last, h.part, h.saves, h.reg, h.status⟩

theorem setCtx {x : Nat} {c : Ctx} (hc : c.savePending = (t.ctx x).savePending) : OchreHeld p s (t.setCtx x c) := by
  refine h.trans ⟨rfl, rfl, rfl, rfl, fun y => ?_, fun _ _ => rfl, fun _ _ => rfl⟩
  rw [State.ctx_setCtx]
  split
  next e => rw [e, hc]
  next => rfl

theorem setPart {q : Nat} (hq : q ≠ p) (v : Part) : OchreHeld p s (t.setPart q v) :=
  h.trans ⟨rfl, rfl, rfl, State.part_setPart_ne _ hq.symm v, fun _ => rfl, fun _ _ => rfl, fun _ _ => rfl⟩

theorem setLast {q : Nat} (hq : q ≠ p) (v : Nat) :
    OchreHeld p s (t.setOch { t.och with lastDerate := AMap.put 0 q v t.och.lastDerate }) :=
  h.trans ⟨rfl, rfl, AMap.get_put_ne _ _ hq.symm _ _, rfl, fun _ => rfl, fun _ _ => rfl, fun _ _ => rfl⟩

theorem setReg {r : Reg} {i j : Nat} (hr : r.stands i j) (hn : (r, j) ∉ (.ochStatus, 0) :: heldRegs) (v : W32) :
    OchreHeld p s (t.setReg r i j v) := by
  obtain ⟨hstatus, hheld⟩ := not_or.1 (mt List.mem_cons.2 hn)
  refine h.trans ⟨rfl, rfl, rfl, rfl, fun _ => rfl, fun e he => ?_, fun k _ => ?_⟩
  · refine State.reg_setReg_other (heldRegs_stand e he) hr (fun heq => hheld ?_) t v
    cases heq
    exact he
  · rw [State.reg_setReg_other ochStatus_stands hr]
    intro heq
    cases heq
    exact hstatus rfl

/-- A bit of OCH_STATUS above RISK that is not the partition's is written. -/
theorem setStatus {i : Nat} (hi : 8 ≤ i) (hp : i ≠ 9 + p) (v : Nat) : OchreHeld p s (t.setFld .ochStatus 0 0 i i v) := by
  refine h.trans ⟨rfl, rfl, rfl, rfl, fun _ => rfl, fun e he => ?_, fun k hk => State.natBit_setFld_out (by omega) t _ _ _ _⟩
  refine State.reg_setReg_other (heldRegs_stand e he) ochStatus_stands (fun heq => ?_) t _
  have hne : ∀ e ∈ heldRegs, e.1 ≠ .ochStatus := by decide
  exact hne e he (congrArg Prod.fst heq)

end

/-- A further operation, where a condition holds. -/
theorem ite {c : Prop} [Decidable c] (h : OchreHeld p s t) (k : OchreHeld p s u) : OchreHeld p s (if c then u else t) := by
  split
  · exact k
  · exact h

end OchreHeld

/-! ## Reports -/

section
variable {p : Nat} (s : State)

theorem State.msix_ochreHeld (k : Nat) : OchreHeld p s (s.msix k) := by
  unfold State.msix
  dsimp only
  split
  · split
    · exact .refl s
    · exact (OchreHeld.refl s).setHif _
  · exact (OchreHeld.refl s).emit _

theorem State.event_ochreHeld (n : Nat) : OchreHeld p s (s.event n) := by
  have hpend (v : W32) : OchreHeld p s (s.setReg .gctEvtPend 0 0 v) := (OchreHeld.refl s).setReg ⟨Nat.one_pos, Nat.one_pos⟩ (by decide) v
  unfold State.event
  dsimp only
  split
  · exact .refl s
  · split
    · exact hpend _
    · exact (hpend _).trans (State.msix_ochreHeld _ _)

/-- A write of the device, of which what is barred leaves the monitor as it is. -/
theorem State.writeBy_ochreHeld {note : State → Nat → Bar → State} (hnote : ∀ s a b, b.inDevice → OchreHeld p s (note s a b)) (a : Nat)
    (b : List Byte) : OchreHeld p s (State.writeBy note s a b) := by
  unfold State.writeBy
  split
  next =>
    split
    · exact ((OchreHeld.refl s).setHost _).emit _
    · exact .refl s
  next => exact .refl s
  next =>
    unfold State.barredWrite
    dsimp only
    split
    · exact (OchreHeld.refl s).setMem _
    · refine .foldl (fun u q _ => ?_) s
      split
      next hbar => exact hnote u _ _ (State.bar_inDevice hbar)
      next => exact (OchreHeld.refl u).setMem _

theorem State.barBit_ochreHeld (a : Nat) (b : Bar) (h : b.inDevice) : OchreHeld p s (s.barBit a b) := by
  cases b with
  | region q => exact (OchreHeld.refl s).setReg ⟨h, Nat.one_pos⟩ (by decide) _
  | retired st => exact (OchreHeld.refl s).setReg ⟨h, Nat.one_pos⟩ (by decide) _

theorem State.errLog_ochreHeld (r : ErrRec) : OchreHeld p s (s.errLog r) := by
  have hsrc (v : W32) : OchreHeld p s (s.setReg .errSrc 0 0 v) := (OchreHeld.refl s).setReg ⟨Nat.one_pos, Nat.one_pos⟩ (by decide) v
  have hwrite (u : State) (a : Nat) (b : List Byte) : OchreHeld p u (u.logWrite a b) := u.writeBy_ochreHeld State.barBit_ochreHeld a b
  unfold State.errLog
  dsimp only
  split
  · exact hsrc _
  · split
    · exact ((hsrc _).setReg ⟨Nat.one_pos, by decide⟩ (by decide) _).setReg ⟨Nat.one_pos, Nat.one_pos⟩ (by decide) _
    · have hlogged (a : Nat) (b : List Byte) (v w x : W32) :=
        (((hsrc x).trans (hwrite _ a b)).setReg (r := .errLogPtr) (i := 0) (j := 0) ⟨Nat.one_pos, Nat.one_pos⟩ (by decide) v).setReg
          (r := .errStatus) (i := 0) (j := 0) ⟨Nat.one_pos, Nat.one_pos⟩ (by decide) w
      exact (hlogged _ _ _ _ _).ite ((hlogged _ _ _ _ _).trans (State.event_ochreHeld _ 4))

/-- An error bit set, with a record in the log where a condition holds. -/
theorem State.errorBit_ochreHeld {c : Prop} [Decidable c] {r : Reg} {i j : Nat} (hr : r.stands i j) (hn : (r, j) ∉ (.ochStatus, 0) :: heldRegs)
    (m : W32) (e : ErrRec) : OchreHeld p s (if c then (s.orReg r i j m).errLog e else s.orReg r i j m) :=
  have hbit : OchreHeld p s (s.orReg r i j m) := (OchreHeld.refl s).setReg hr hn _
  hbit.ite (hbit.trans (State.errLog_ochreHeld _ e))

theorem State.vwrErr_ochreHeld {q : Nat} (hq : q < 4) (b addr : Nat) : OchreHeld p s (s.vwrErr q b addr) :=
  s.errorBit_ochreHeld (r := .memVwrErr) (j := 0) ⟨hq, Nat.one_pos⟩ (by decide) _ _

theorem State.memErr_ochreHeld {st : Nat} (hst : st < 20) (b scope addr : Nat) : OchreHeld p s (s.memErr st b scope addr) :=
  s.errorBit_ochreHeld (r := .memErr) (j := 0) ⟨hst, Nat.one_pos⟩ (by decide) _ _

theorem State.barLog_ochreHeld (a : Nat) (b : Bar) (h : b.inDevice) : OchreHeld p s (s.barLog a b) := by
  cases b with
  | region q => exact s.vwrErr_ochreHeld h 3 a
  | retired st => exact s.memErr_ochreHeld h 7 0 a

theorem State.rawWrite_ochreHeld (a : Nat) (b : List Byte) : OchreHeld p s (s.rawWrite a b) := s.writeBy_ochreHeld State.barLog_ochreHeld a b

theorem State.evqPut_ochreHeld (f : Nat) (l : List (List Byte)) : OchreHeld p s (State.evqPut f s l) := by
  induction f generalizing s l with
  | zero => exact (OchreHeld.refl s).setTim rfl
  | succ f ih =>
    cases l with
    | nil => exact (OchreHeld.refl s).setTim rfl
    | cons b l =>
      unfold State.evqPut
      dsimp only
      split
      · exact (OchreHeld.refl s).setTim rfl
      · exact (((s.rawWrite_ochreHeld _ b).setReg ⟨Nat.one_pos, Nat.one_pos⟩ (by decide) _).trans (State.event_ochreHeld _ 8)).trans (ih _ l)

theorem State.timEvent_ochreHeld (r : TimRec) : OchreHeld p s (s.timEvent r) := by
  unfold State.timEvent
  dsimp only
  split
  · exact s.evqPut_ochreHeld _ _
  · exact ((s.evqPut_ochreHeld _ _).setReg ⟨Nat.one_pos, Nat.one_pos⟩ (by decide) _).setTim rfl

theorem State.replaceCause_ochreHeld (b parts : Nat) : OchreHeld p s (s.replaceCause b parts) := by
  have hcause (v : W32) : OchreHeld p s (s.setReg .ochReplace 0 0 v) := (OchreHeld.refl s).setReg ⟨Nat.one_pos, Nat.one_pos⟩ (by decide) v
  unfold State.replaceCause
  dsimp only
  split
  · exact hcause _
  · exact (((((hcause _).setStatus (Nat.le_refl 8) (by omega) 1).setMgmt _).emit _).emit _).trans (State.event_ochreHeld _ 5)

theorem State.sparesCheck_ochreHeld (q : Nat) : OchreHeld p s (s.sparesCheck q) := (OchreHeld.refl s).ite (s.replaceCause_ochreHeld 1 _)

/-! ## Promises, rechecks, clocks -/

theorem State.moveP_ochreHeld (x cause detail : Nat) (running : Bool) (q : Nat) (thr : Option (Nat × Nat × Nat)) :
    OchreHeld p s (s.moveP x cause detail running q thr) := by
  unfold State.moveP
  dsimp only
  split
  next => exact .refl s
  next =>
    refine .trans (.ite ?_ (.setReg ?_ ⟨Nat.one_pos, by decide⟩ (by decide) _)) (State.timEvent_ochreHeld _ _) <;>
      exact (OchreHeld.refl s).setCtx (by split <;> rfl)

theorem State.throttle_ochreHeld (x k : Nat) (running : Bool) : OchreHeld p s (s.throttle x k running) := by
  unfold State.throttle
  split
  · exact .refl s
  · exact s.moveP_ochreHeld _ _ _ _ _ _

theorem State.derated_ochreHeld (old : Nat → Nat) : OchreHeld p s (s.derated old) :=
  .foldl (fun u _ _ => (OchreHeld.refl u).ite (u.throttle_ochreHeld _ _ _)) s

theorem State.showClk_ochreHeld : OchreHeld p s s.showClk := by
  have hclk (u : State) (q : Nat) (v : W32) : OchreHeld p u (if (u.part q).resetting then u else u.setReg .umbClk 0 0 v) := by
    split
    · exact .refl u
    · exact (OchreHeld.refl u).setReg ⟨Nat.one_pos, Nat.one_pos⟩ (by decide) v
  exact ((OchreHeld.foldl (fun u q _ => hclk u q _) s).setReg ⟨Nat.one_pos, Nat.one_pos⟩ (by decide) _).setReg ⟨Nat.one_pos, Nat.one_pos⟩
    (by decide) _

theorem State.withdraw_ochreHeld (x reason detail : Nat) : OchreHeld p s (s.withdraw x reason detail) := by
  unfold State.withdraw
  split
  next => exact .refl s
  next =>
    have hctx : OchreHeld p s (s.setCtx x { s.ctx x with admitted := none }) := (OchreHeld.refl s).setCtx rfl
    exact (hctx.setReg (r := .timCnt) (i := 0) (j := 4) ⟨Nat.one_pos, by decide⟩ (by decide) _).trans (State.timEvent_ochreHeld _ _)

theorem State.recheck_ochreHeld : OchreHeld p s s.recheck := by
  refine .foldl (fun u x _ => ?_) s
  unfold State.recheckOne
  split
  · exact .refl u
  · split
    · exact u.withdraw_ochreHeld _ _ _
    · split
      · exact u.withdraw_ochreHeld _ _ _
      · split
        · exact u.withdraw_ochreHeld _ _ _
        · exact .refl u

end

/-! ## One derate -/

/-- The stress of the ageing and drift classes comes from the readings alone. -/
theorem State.partStress_congr {s t : State} (h : t.och.sensors = s.och.sensors) (p : Nat) :
    t.partStress 0 p = s.partStress 0 p ∧ t.partStress 1 p = s.partStress 1 p := by
  constructor <;> simp only [State.partStress, State.instances, State.stressAt, State.rawOf, stressOf, h]

theorem derates_congr {s t : State} {p : Nat} (hnow : t.tim.now = s.tim.now) (hsensors : t.och.sensors = s.och.sensors)
    (hlast : AMap.get 0 p t.och.lastDerate = AMap.get 0 p s.och.lastDerate) (hpart : t.part p = s.part p)
    (hreg : t.reg .ochDerate 0 0 = s.reg .ochDerate 0 0) : derates t p = derates s p := by
  obtain ⟨h0, h1⟩ := State.partStress_congr hsensors p
  unfold derates State.fld
  rw [hnow, hlast, hpart, hreg, h0, h1]

theorem OchreHeld.derates {p : Nat} {s t : State} (h : OchreHeld p s t) : derates t p = derates s p :=
  derates_congr h.now (by rw [h.och]) h.last h.part (h.reg (.ochDerate, 0) (by decide))

/-- A partition one step slower: its limit, the day it took it, UMB_FLOOR, OCH_STATUS.DERATED and the count. -/
def State.slowed (s : State) (p : Nat) : State :=
  let s1 := (s.setPart p { s.part p with kOchre := (s.part p).kOchre - 1 }).setOch
    { s.och with lastDerate := AMap.put 0 p (s.tim.now.toNat + 1) s.och.lastDerate }
  ((s1.setFld .umbFloor 0 0 (8 * p + 4) (8 * p) ((s.part p).kOchre - 1)).setFld .ochStatus 0 0 (9 + p) (9 + p) 1).bump .ochCnt 0 3 1

section
variable {s : State} {p : Nat}

theorem State.derateOne_eq (s : State) (p : Nat) :
    s.derateOne p = if derates s p = true then (((s.slowed p).showClk).derated (fun i => s.effK i)).recheck else s := by
  have hguard : (!natBit (s.reg .ochDerate 0 0).toNat 0 ∨ max (s.partStress 0 p) (s.partStress 1 p) < s.fld .ochDerate 0 0 15 8 ∨
      (s.part p).kOchre ≤ 8 ∨ (AMap.get 0 p s.och.lastDerate ≠ 0 ∧ s.tim.now.toNat < AMap.get 0 p s.och.lastDerate - 1 + 86400000000000)) ↔
      ¬ derates s p = true := by
    simp only [derates, Bool.and_eq_true, Bool.or_eq_true, decide_eq_true_eq, beq_iff_eq, Bool.not_eq_true', ne_eq,
      Classical.not_and_iff_not_or_not, not_or, Nat.not_le, Nat.not_lt, Bool.not_eq_true, or_assoc]
  unfold State.derateOne
  dsimp only
  rw [ite_cond_congr (propext hguard), ite_not]
  rfl

theorem State.derateOne_stays (h : derates s p = false) : s.derateOne p = s := by
  rw [State.derateOne_eq, if_neg (Bool.eq_false_iff.1 h)]

/-- What follows the slowing of a partition leaves the monitor as it is. -/
theorem State.derateOne_slows (h : derates s p = true) (q : Nat) : OchreHeld q (s.slowed p) (s.derateOne p) := by
  rw [State.derateOne_eq, if_pos h]
  exact ((State.showClk_ochreHeld _).trans (State.derated_ochreHeld _ _)).trans (State.recheck_ochreHeld _)

theorem State.slowed_other {q : Nat} (hq : q ≠ p) (s : State) : OchreHeld p s (s.slowed q) := by
  have hpart := ((OchreHeld.refl s).setPart hq { s.part q with kOchre := (s.part q).kOchre - 1 }).setLast hq (s.tim.now.toNat + 1)
  exact ((hpart.setReg (r := .umbFloor) ⟨Nat.one_pos, Nat.one_pos⟩ (by decide) _).setStatus (by omega) (by omega) 1).setReg
    ⟨Nat.one_pos, by decide⟩ (by decide) _

theorem State.derateOne_other {q : Nat} (hq : q ≠ p) (s : State) : OchreHeld p s (s.derateOne q) := by
  cases h : derates s q with
  | false =>
    rw [State.derateOne_stays h]
    exact .refl s
  | true => exact (State.slowed_other hq s).trans (State.derateOne_slows h p)

theorem State.slowed_self (hp : p < 4) (s : State) : ((s.slowed p).part p).kOchre = (s.part p).kOchre - 1 ∧
    AMap.get 0 p (s.slowed p).och.lastDerate = s.tim.now.toNat + 1 ∧ natBit ((s.slowed p).reg .ochStatus 0 0).toNat (9 + p) = true := by
  refine ⟨congrArg Part.kOchre (State.part_setPart_self s p _), AMap.get_put_self 0 p (s.tim.now.toNat + 1) s.och.lastDerate, ?_⟩
  rw [State.slowed, State.bump, State.reg_setReg_other ochStatus_stands ⟨Nat.one_pos, by decide⟩ (by decide)]
  exact State.natBit_setFld_self _ _ _ _ true (by omega)

/-- A derate seen from its own partition. -/
theorem State.derateOne_self (hp : p < 4) (h : derates s p = true) : ((s.derateOne p).part p).kOchre = (s.part p).kOchre - 1 ∧
    AMap.get 0 p (s.derateOne p).och.lastDerate = s.tim.now.toNat + 1 ∧ natBit ((s.derateOne p).reg .ochStatus 0 0).toNat (9 + p) = true := by
  obtain ⟨hk, hlast, hbit⟩ := State.slowed_self hp s
  have hrest := State.derateOne_slows h p
  exact ⟨(congrArg Part.kOchre hrest.part).trans hk, hrest.last.trans hlast, (hrest.status _ (.inr rfl)).trans hbit⟩

end

/-! ## The derates and the spares checks of one second -/

/-- The partitions of a list derated in turn. -/
def State.derateAll (s : State) (l : List Nat) : State := l.foldl (fun s p => s.derateOne p) s

/-- The spares of every partition checked. -/
def State.sparesChecks (s : State) : State := (List.range 4).foldl (fun s p => s.sparesCheck p) s

theorem State.sparesChecks_ochreHeld (p : Nat) (s : State) : OchreHeld p s s.sparesChecks := .foldl (fun u q _ => u.sparesCheck_ochreHeld q) s

/-- What a sample does after its save request: every partition is derated that is to be, then the spares are checked. -/
def State.lastSteps (s : State) : State := (s.derateAll (List.range 4)).sparesChecks

theorem State.derateAll_other {l : List Nat} {p : Nat} (hp : p ∉ l) (s : State) : OchreHeld p s (s.derateAll l) :=
  .foldl (fun u _ hq => State.derateOne_other (ne_of_mem_of_not_mem hq hp) u) s

/-- The derate of a partition stands between those of the others, which leave it as it is. -/
theorem State.derateAll_split {p : Nat} (hp : p < 4) (s : State) :
    ∃ u, OchreHeld p s u ∧ OchreHeld p (u.derateOne p) (s.derateAll (List.range 4)) := by
  obtain ⟨l, m, hlm⟩ := List.append_of_mem (List.mem_range.2 hp)
  have hnodup : (l ++ p :: m).Nodup := hlm ▸ List.nodup_range
  obtain ⟨-, hrest, hdisjoint⟩ := List.nodup_append.1 hnodup
  have hl : p ∉ l := fun h => hdisjoint p h p List.mem_cons_self rfl
  have hm : p ∉ m := (List.nodup_cons.1 hrest).1
  refine ⟨s.derateAll l, State.derateAll_other hl s, ?_⟩
  rw [hlm]
  unfold State.derateAll
  rw [List.foldl_append, List.foldl_cons]
  exact State.derateAll_other hm _

/-! ## The save request of a risk -/

/-- A save requested for a slot, unless it is free. -/
def State.requestBound (s : State) (x : Nat) : State := if (s.ctx x).st = .free then s else s.requestSave x

theorem State.requestBound_ctx (s : State) (x y : Nat) : ((s.requestBound y).ctx x).st = (s.ctx x).st ∧
    ((s.requestBound y).ctx x).savePending = ((s.ctx x).savePending || decide (x = y ∧ (s.ctx x).st ≠ .free)) := by
  unfold State.requestBound
  by_cases hfree : (s.ctx y).st = .free
  · rw [if_pos hfree]
    refine ⟨rfl, ?_⟩
    have : ¬ (x = y ∧ (s.ctx x).st ≠ .free) := fun ⟨e, h⟩ => h (e ▸ hfree)
    simp [this]
  · rw [if_neg hfree, State.requestSave, State.ctx_setCtx]
    by_cases e : x = y
    · subst e
      simp [hfree]
    · simp [e]

/-- Saves requested of a list of slots: nothing but contexts changes. -/
theorem State.requestBound_foldl_eq (l : List Nat) (s : State) : ∃ c, l.foldl State.requestBound s = { s with ctxs := c } := by
  induction l generalizing s with
  | nil => exact ⟨s.ctxs, rfl⟩
  | cons y l ih =>
    obtain ⟨c, hc⟩ := ih (s.requestBound y)
    refine ⟨c, hc.trans ?_⟩
    unfold State.requestBound
    split <;> rfl

theorem State.requestBound_foldl_pending {l : List Nat} {x : Nat} {s : State}
    (h : (s.ctx x).savePending = true ∨ x ∈ l ∧ (s.ctx x).st ≠ .free) : ((l.foldl State.requestBound s).ctx x).savePending = true := by
  induction l generalizing s with
  | nil => simpa using h
  | cons y l ih =>
    obtain ⟨hst, hpend⟩ := s.requestBound_ctx x y
    apply ih
    rw [hst, hpend, Bool.or_eq_true, decide_eq_true_eq]
    rcases h with hp | ⟨hx, hbound⟩
    · exact .inl (.inl hp)
    · rcases List.mem_cons.1 hx with e | hx
      · exact .inl (.inr ⟨e, hbound⟩)
      · exact .inr ⟨hx, hbound⟩

/-- The save request of a risk that has risen: the bound slots are asked for a save, and the next request waits to be armed. -/
def State.saveFired (s : State) : State :=
  let u := (List.range 4).foldl State.requestBound (s.bump .ochCnt 0 1 1)
  (u.setOch { u.och with armed := false }).bump .ochCnt 0 0 1

theorem State.riskRequest_cases (s : State) (r : Nat) :
    (s.fld .ochCtrl 0 0 7 0 ≤ r ∧ s.riskRequest r = s.saveFired) ∨
    (s.fld .ochCtrl 0 0 7 0 ≤ r ∧ ¬ (s.och.armed = true ∧ natBit (s.reg .sepCtrl 0 0).toNat 1 = true) ∧
      s.riskRequest r = s.bump .ochCnt 0 1 1) ∨
    (r + s.fld .ochCtrl 0 0 15 8 < s.fld .ochCtrl 0 0 7 0 ∧ s.riskRequest r = s.setOch { s.och with armed := true }) ∨
    (r < s.fld .ochCtrl 0 0 7 0 ∧ s.fld .ochCtrl 0 0 7 0 ≤ r + s.fld .ochCtrl 0 0 15 8 ∧ s.riskRequest r = s) := by
  have hsaves : (fun (s : State) (x : Nat) => if (s.ctx x).st = .free then s else s.requestSave x) = State.requestBound := rfl
  unfold State.riskRequest State.saveFired
  dsimp only
  rw [hsaves]
  by_cases hth : s.fld .ochCtrl 0 0 7 0 ≤ r
  · rw [if_pos hth]
    by_cases hfires : s.och.armed = true ∧ natBit (s.reg .sepCtrl 0 0).toNat 1 = true
    · exact .inl ⟨hth, if_pos ⟨hth, hfires⟩⟩
    · exact .inr (.inl ⟨hth, hfires, (if_neg (fun h => hfires h.2)).trans (if_neg (by omega))⟩)
  · rw [if_neg hth, if_neg (fun h => hth h.1)]
    by_cases hlow : r + s.fld .ochCtrl 0 0 15 8 < s.fld .ochCtrl 0 0 7 0
    · exact .inr (.inr (.inl ⟨hlow, if_pos hlow⟩))
    · exact .inr (.inr (.inr ⟨by omega, by omega, if_neg hlow⟩))

/-- What a count of the monitor leaves of the registers. -/
theorem State.reg_bump_ochCnt {q : Reg} {n m : Nat} (hq : q.stands 0 m) (hn : n < 4) (hne : (q, m) ≠ (.ochCnt, n)) (s : State) :
    (s.bump .ochCnt 0 n 1).reg q 0 m = s.reg q 0 m := by
  refine State.reg_setReg_other hq ⟨Nat.one_pos, hn⟩ (fun e => hne ?_) s _
  cases e
  rfl

theorem State.saveFired_eq (s : State) : ∃ c, s.saveFired =
    ((State.setOch { s.bump .ochCnt 0 1 1 with ctxs := c } { s.och with armed := false }).bump .ochCnt 0 0 1) := by
  obtain ⟨c, hc⟩ := State.requestBound_foldl_eq (List.range 4) (s.bump .ochCnt 0 1 1)
  refine ⟨c, ?_⟩
  unfold State.saveFired
  rw [hc]
  rfl

/-- A request changes of the monitor only whether it is armed, and its counts. -/
theorem State.riskRequest_frame (s : State) (r : Nat) : (s.riskRequest r).tim = s.tim ∧ (∀ p, (s.riskRequest r).part p = s.part p) ∧
    (s.riskRequest r).och = { s.och with armed := (s.riskRequest r).och.armed } ∧
    ∀ q : Reg, q.stands 0 0 → q ≠ .ochCnt → (s.riskRequest r).reg q 0 0 = s.reg q 0 0 := by
  have hcount {q : Reg} (hq : q.stands 0 0) (hne : q ≠ .ochCnt) {n : Nat} (hn : n < 4) (u : State) :=
    u.reg_bump_ochCnt hq hn (fun e => hne (congrArg Prod.fst e))
  rcases s.riskRequest_cases r with ⟨-, e⟩ | ⟨-, -, e⟩ | ⟨-, e⟩ | ⟨-, -, e⟩ <;> rw [e]
  · obtain ⟨c, hc⟩ := s.saveFired_eq
    rw [hc]
    exact ⟨rfl, fun _ => rfl, rfl, fun q hq hne => (hcount hq hne (by omega) _).trans (hcount hq hne (by omega) s)⟩
  · exact ⟨rfl, fun _ => rfl, rfl, fun q hq hne => hcount hq hne (by omega) s⟩
  · exact ⟨rfl, fun _ => rfl, rfl, fun _ _ _ => rfl⟩
  · exact ⟨rfl, fun _ => rfl, rfl, fun _ _ _ => rfl⟩

theorem State.riskRequest_derates (s : State) (r p : Nat) : derates (s.riskRequest r) p = derates s p := by
  obtain ⟨htim, hpart, hoch, hreg⟩ := s.riskRequest_frame r
  exact derates_congr (congrArg Tim.now htim) (by rw [hoch]) (by rw [hoch]) (hpart p) (hreg _ ⟨Nat.one_pos, Nat.one_pos⟩ (by decide))

section
variable {s : State} {r : Nat}

theorem State.riskRequest_fires (hth : s.fld .ochCtrl 0 0 7 0 ≤ r) (harmed : s.och.armed = true)
    (hen : natBit (s.reg .sepCtrl 0 0).toNat 1 = true) : (s.riskRequest r).och.armed = false ∧
      (s.riskRequest r).reg .ochCnt 0 0 = s.reg .ochCnt 0 0 + 1 ∧
      ∀ x, x < 4 → (s.ctx x).st ≠ .free → ((s.riskRequest r).ctx x).savePending = true := by
  have hfired : s.riskRequest r = s.saveFired := by
    rcases s.riskRequest_cases r with ⟨-, e⟩ | ⟨-, hno, -⟩ | ⟨hlow, -⟩ | ⟨hlow, -, -⟩
    · exact e
    · exact absurd ⟨harmed, hen⟩ hno
    · omega
    · omega
  obtain ⟨c, hc⟩ := s.saveFired_eq
  rw [hfired]
  refine ⟨by rw [hc]; rfl, ?_, fun x hx hbound => ?_⟩
  · rw [hc, State.bump, State.reg_setReg_self]
    exact congrArg (· + 1) (s.reg_bump_ochCnt (q := .ochCnt) (n := 1) (m := 0) ⟨Nat.one_pos, by decide⟩ (by omega) (by decide))
  · unfold State.saveFired
    rw [State.bump, State.ctx_of_setReg, State.ctx_of_setOch]
    exact State.requestBound_foldl_pending (.inr ⟨List.mem_range.2 hx, hbound⟩)

theorem State.riskRequest_rearms (h : r + s.fld .ochCtrl 0 0 15 8 < s.fld .ochCtrl 0 0 7 0) : (s.riskRequest r).och.armed = true := by
  rcases s.riskRequest_cases r with ⟨hhigh, -⟩ | ⟨hhigh, -, -⟩ | ⟨-, e⟩ | ⟨-, hnear, -⟩
  · omega
  · omega
  · rw [e]
    rfl
  · omega

end

/-! ## One sample -/

theorem riskOf_lt (s : State) : riskOf s < 2 ^ 8 := Nat.lt_of_le_of_lt (Nat.min_le_left _ _) (by decide)

/-- The risk score taken and shown, with the sums and the counts of the day. -/
def State.scored (u : State) (sums counts : AMap Nat) : State :=
  (u.setOch { u.och with risk := riskOf u, daySum := sums, dayCount := counts }).setFld .ochStatus 0 0 7 0 (riskOf u)

theorem State.fld_scored (u : State) (sums counts : AMap Nat) : (u.scored sums counts).fld .ochStatus 0 0 7 0 = riskOf u :=
  (State.fld_setFld_self _ _ _ _ _ (by omega)).trans (Nat.mod_eq_of_lt (riskOf_lt u))

theorem State.reg_scored {q : Reg} (hq : q.stands 0 0) (hne : q ≠ .ochStatus) (u : State) (sums counts : AMap Nat) :
    (u.scored sums counts).reg q 0 0 = u.reg q 0 0 :=
  State.reg_setReg_other hq ochStatus_stands (Reg.element_ne hne _ _ _ _) _ _

theorem State.scored_derates (u : State) (sums counts : AMap Nat) (p : Nat) : derates (u.scored sums counts) p = derates u p :=
  derates_congr rfl rfl rfl rfl (u.reg_scored (q := .ochDerate) ⟨Nat.one_pos, Nat.one_pos⟩ (by decide) sums counts)

/-- OCHRE_SAMPLE in its order: the score, the save request, the derates, the spares. -/
theorem exec_ochreSample (l : List SensorReading) (s : State) : ∃ sums counts, exec (.ochreSample l) s =
    .next (((sensed s l).scored sums counts).riskRequest (riskOf (sensed s l))).lastSteps := by
  unfold State.lastSteps State.derateAll State.sparesChecks
  exact ⟨_, _, rfl⟩

/-- What the derates and the spares checks hold for every partition at once: partition 4 does not exist. -/
theorem State.lastSteps_ochreHeld (s : State) : OchreHeld 4 s s.lastSteps :=
  (s.derateAll_other (by decide)).trans (State.sparesChecks_ochreHeld 4 _)

section
variable {p : Nat} (hp : p < 4) {s : State}
include hp

theorem State.lastSteps_derate (h : derates s p = true) :
    (s.lastSteps.part p).kOchre = (s.part p).kOchre - 1 ∧ natBit (s.lastSteps.reg .ochStatus 0 0).toNat (9 + p) = true ∧
      AMap.get 0 p s.lastSteps.och.lastDerate = s.tim.now.toNat + 1 := by
  obtain ⟨u, hbefore, hafter⟩ := s.derateAll_split hp
  obtain ⟨hk, hlast, hbit⟩ := State.derateOne_self hp (hbefore.derates.trans h)
  have hrest : OchreHeld p (u.derateOne p) s.lastSteps := hafter.trans (State.sparesChecks_ochreHeld p _)
  refine ⟨?_, (hrest.status _ (.inr rfl)).trans hbit, ?_⟩
  · rw [hrest.part, hk, hbefore.part]
  · rw [hrest.last, hlast, hbefore.now]

theorem State.lastSteps_no_derate (h : derates s p = false) : s.lastSteps.part p = s.part p := by
  obtain ⟨u, hbefore, hafter⟩ := s.derateAll_split hp
  rw [State.derateOne_stays (hbefore.derates.trans h)] at hafter
  exact ((hbefore.trans hafter).trans (State.sparesChecks_ochreHeld p _)).part

end

/-! ## The fit of one day -/

/-- The day's means of classes 0 and 1 joined to the last 30, and a new day begun (R423). -/
def State.dayClosed (s : State) : State :=
  let mean := fun c : Nat => AMap.get 0 c s.och.daySum * 65536 / max 1 (AMap.get 0 c s.och.dayCount)
  let days := if AMap.get 0 0 s.och.dayCount = 0 then s.och.means else s.och.means ++ [(mean 0, mean 1)]
  s.setOch { s.och with means := days.drop (days.length - 30), daySum := [], dayCount := [] }

/-- The rounding that the free values from the counter on give the four fractions of OCH_LIFE. -/
def State.lifeRounding (s : State) (i : Nat) : Nat := (Config.freeValue 1 (s.free + i)).toNat

theorem State.lifeRounding_le (s : State) (i : Nat) : s.lifeRounding i ≤ 1 := Nat.le_of_lt_succ (BitVec.isLt _)

/-- The life estimate shown. -/
def State.lifeShown (w : State) (up : Nat → Nat) : State :=
  (w.drawN 4).setReg .ochLife 0 0 (BitVec.ofNat 32 ((w.lifeVals up).1 + 2 ^ 16 * (w.lifeVals up).2))

/-- The life shown of the means in `w`, and a replacement requested where its lower bound, rounded down, is below LIFE_TH. -/
def State.lifeFitted (s w : State) : State :=
  if (w.lifeVals (fun _ => 0)).2 < s.fld .ochCtrl 0 0 31 16 then (w.lifeShown s.lifeRounding).replaceCause 0 0 else w.lifeShown s.lifeRounding

theorem exec_lifeFit (s : State) : exec .lifeFit s = .next (s.lifeFitted s.dayClosed) := rfl

theorem State.lifeFitted_ochreHeld (p : Nat) (s w : State) : OchreHeld p (w.lifeShown s.lifeRounding) (s.lifeFitted w) :=
  (OchreHeld.refl _).ite (State.replaceCause_ochreHeld _ 0 0)

theorem State.ochLife_lifeFitted (s w : State) : (s.lifeFitted w).reg .ochLife 0 0 =
    BitVec.ofNat 32 ((w.lifeVals s.lifeRounding).1 + 2 ^ 16 * (w.lifeVals s.lifeRounding).2) :=
  ((s.lifeFitted_ochreHeld 0 w).reg (.ochLife, 0) (by decide)).trans (State.reg_setReg_self _ _ _ _ _)

theorem lifeOf_few {l : List Nat} (h : l.length < 7) (cur : Nat) : lifeOf l cur = none := if_pos h

/-- With fewer than seven daily means neither class has an estimate. -/
theorem State.lifeVals_few {w : State} (h : w.och.means.length < 7) (up : Nat → Nat) : w.lifeVals up = (0xFFFF, 0xFFFF) := by
  have hnone (sel : Nat × Nat → Nat) (cur : Nat) : lifeOf (w.och.means.map sel) cur = none := lifeOf_few (by rwa [List.length_map]) cur
  unfold State.lifeVals
  simp only [hnone]
  rfl

end Sys2Proof.Machine
end

section

open Sys2Proof Sys2Proof.Machine Sys2Proof.Claim

/-- Settles O49: a droop by its event; a sample by its score, its save request and its derates, which leave one another as they are; the fit by the
means of its days. -/
theorem healthIsMonitored : Obligations.HealthIsMonitored := by
  intro s part inst l now u r th mean days w
  refine ⟨⟨_, rfl, State.reg_setReg_self _ _ _ _ _, rfl, rfl⟩, ?sample, ?fit⟩
  case sample =>
    obtain ⟨sums, counts, hexec⟩ := exec_ochreSample l s
    let v := u.scored sums counts
    have hv {q : Reg} (hq : q.stands 0 0) (hne : q ≠ .ochStatus) : v.reg q 0 0 = s.reg q 0 0 := u.reg_scored hq hne sums counts
    have hctrl (hi lo : Nat) : v.fld .ochCtrl 0 0 hi lo = s.fld .ochCtrl 0 0 hi lo :=
      congrArg (bitsOf · hi lo) (hv (q := .ochCtrl) ⟨Nat.one_pos, Nat.one_pos⟩ (by decide))
    have hvpart (p : Nat) : v.part p = s.part p := rfl
    obtain ⟨htim, hpart, hoch, hreg⟩ := v.riskRequest_frame r
    have hlast := (v.riskRequest r).lastSteps_ochreHeld
    have hderates (p : Nat) : derates (v.riskRequest r) p = derates u p := (v.riskRequest_derates r p).trans (u.scored_derates sums counts p)
    refine ⟨_, hexec, by rw [hlast.och, hoch]; rfl, ?_, by rw [hlast.och, hoch]; rfl, fun hth harmed hen => ?_, fun hlow => ?_,
      fun p hp h => ?_, fun p hp h => ?_⟩
    · refine (bitsOf_congr fun i _ hi => hlast.status i (.inl (by omega))).trans ?_
      rw [hreg _ ochStatus_stands (by decide)]
      exact u.fld_scored sums counts
    · obtain ⟨hoff, hcount, hsaves⟩ := State.riskRequest_fires (s := v) (r := r) (by rwa [hctrl]) harmed
        (by rwa [hv (q := .sepCtrl) ⟨Nat.one_pos, Nat.one_pos⟩ (by decide)])
      refine ⟨by rw [hlast.och]; exact hoff, ?_, fun x hx hbound => (hlast.saves x).trans (hsaves x hx hbound)⟩
      rw [hlast.reg (.ochCnt, 0) (by decide), hcount, hv (q := .ochCnt) ⟨Nat.one_pos, by decide⟩ (by decide)]
    · rw [hlast.och]
      exact State.riskRequest_rearms (s := v) (r := r) (by rwa [hctrl, hctrl])
    · obtain ⟨hk, hbit, hday⟩ := State.lastSteps_derate hp ((hderates p).trans h)
      exact ⟨by rw [hk, hpart, hvpart], hbit, by rw [hday, htim]; rfl⟩
    · rw [State.lastSteps_no_derate hp ((hderates p).trans h), hpart, hvpart]
  case fit =>
    have hexec : exec .lifeFit s = .next (s.lifeFitted w) := exec_lifeFit s
    have hheld := s.lifeFitted_ochreHeld 0 w
    have hlife := s.ochLife_lifeFitted w
    refine ⟨_, s.lifeRounding, hexec, s.lifeRounding_le, by rw [hheld.och]; rfl, by rw [hheld.och]; rfl, by rw [hheld.och]; rfl, hlife,
      fun hfew => ?_, fun hlow => ?_⟩
    · rw [hlife, State.lifeVals_few hfew]
      rfl
    · rw [State.lifeFitted, if_pos hlow]
      exact (State.replaceCause_sets (by omega)).2

end
